-- ==== Sys2Proof/Word.lean ====
section
/-! DEFINITION. Word.lean: the register word of the CN96 (R5, "Registers are 32 bits wide") and the byte of its
memory windows. -/
namespace Sys2Proof

/-- A register word: 32 bits. -/
abbrev Word := BitVec 32

/-- A byte of a memory window. -/
abbrev Byte := BitVec 8

end Sys2Proof
end

