-- ==== Sys2Proof/Syntax.lean ====
section
/-! DEFINITION. Syntax.lean: the commands that reach the CN96, one constructor of `Instr` per row of the command
table, and the plain data they carry (who sends, what a flit, a frame or a host access holds).
Unit numbers are `Fin`, so a command that names a unit the device lacks (R16) cannot be written down. -/
namespace Sys2Proof

/-- Who performs an access. `host`, `lattice`, `steward` and `jtag` are privileged (Table 0.3, R277, R377);
a region's register port and a sequencer are not. -/
inductive Agent where
  /-- The local host through BAR0 and BAR2. -/
  | host
  /-- A remote host access that arrives over the lattice (R277). -/
  | lattice
  /-- The steward. -/
  | steward
  /-- LC_ACCESS of the TAP (R377). -/
  | jtag
  /-- The hardened ports of REGION `r`. -/
  | region (r : Nat)
  /-- Roll sequencer `q`. -/
  | seq (q : Nat)
deriving DecidableEq, Repr

/-- What a device's census flit says of its sender (R279). -/
structure CensusInfo where
  addr     : BitVec 16
  eligible : Bool
  protoMax : Nat
  epochs   : BitVec 16
  /-- Largest one-way delay of its UP ports, in 19.53125 ps steps. -/
  delay    : Nat
  /-- 0 OFF, 1 ELECTING, 2 FOLLOWER, 3 ROOT. -/
  role     : Nat
deriving DecidableEq, Repr

/-- The payload of a flit. The classes GONG and CARILLON have the word layouts of Tables 9.8 and 9.9 and STREAM
carries 48 bytes: these are `words` W3 to W14. For the other classes the manual says what a flit carries and
gives no layout: these hold the values themselves. -/
inductive FlitBody where
  | words (ws : List Word)
  | request (write : Bool) (off len : Nat) (data : List Byte)
  | response (data : List Byte)
  | undeliv (reason : Nat) (w0 w1 w2 : Word)
  | peal (g : Nat) (total : Int) (mark : Nat) (mask addr : BitVec 16) (seq : BitVec 16)
  | census (c : CensusInfo)
  | notice (link : BitVec 16)
deriving DecidableEq, Repr

/-- A flit: the header fields of Table 9.2 and its payload. `crcOk` says whether W15 matches W0 to W14 (R267). -/
structure Flit where
  cls    : Nat
  epoch  : Nat := 1
  typ    : Nat := 0
  lseq   : BitVec 16 := 0
  dest   : BitVec 16
  src    : BitVec 16
  hops   : Nat := 0
  detour : Bool := false
  vc     : Bool := false
  tag    : BitVec 16 := 0
  body   : FlitBody
deriving DecidableEq, Repr

/-- What the far end of a link sends in training (R264, R268). -/
structure PeerId where
  addr : BitVec 16
  port : Fin 8
  size : BitVec 16
  pmin : Nat
  pmax : Nat
deriving DecidableEq, Repr

/-- A cycle that a MAINS_SENSE input shows at its zero crossing: which input, and the peak it reached (R38, R57). -/
structure MainsCycle where
  sense : Fin 4
  peak  : BitVec 16
deriving DecidableEq, Repr

/-- One access at a port of a deep memory: a word address, a write flag and the word written with its byte
enables. -/
structure MemAccess where
  addr  : Nat
  write : Bool
  data  : BitVec 64
  be    : BitVec 8 := 0xFF
deriving DecidableEq, Repr

/-- One access at a port of a fabric memory block (R189 to R191): the shape of Table 6.6, the address at that
shape, a write flag, the data and ninth bits written and their byte enables. -/
structure BlockAccess where
  shape : Fin 7
  addr  : Nat
  write : Bool
  data  : BitVec 64 := 0
  ninth : BitVec 8 := 0
  be    : BitVec 8 := 0xFF
deriving DecidableEq, Repr

/-- A host access to BAR0 (R306). -/
structure HostAccess where
  off      : Nat
  write    : Bool
  /-- 4 or 8 bytes. -/
  size     : Nat := 4
  be       : BitVec 4 := 0xF
  data     : BitVec 64 := 0
  poisoned : Bool := false
deriving DecidableEq, Repr

/-- A frame that a protocol block has received: the instant of its stamp point (Table 10.13), the status of
Table 10.11, PFLAGS, ID, LENGTH and data as the entry of Table 10.10 holds them, and whether its LIN sync field or SENT
calibration pulse was wrong. -/
structure Frame where
  start  : Nat
  status : Fin 8 := 0
  pflags : BitVec 6 := 0
  id     : BitVec 32 := 0
  length : Nat
  data   : List Byte
  /-- The LIN checksum or the Ethernet FCS as it came. -/
  check  : BitVec 32 := 0
  /-- LIN: the bit rate of the sync field in bit/s. SENT: the length of the calibration pulse in ns. -/
  cal    : Nat := 0
deriving DecidableEq, Repr

/-- How a bus-master read of host memory ends (R309). -/
inductive DmaEnd where
  | data (bs : List Byte)
  | ur | ca | poison
deriving DecidableEq, Repr


/-- What is wrong with a received lane word: the code-groups of 8B10B that are invalid or have a disparity error, and the bits
that differ from the PRBS pattern (R313, R315). -/
structure LaneErrs where
  bad  : BitVec 8 := 0
  bits : Nat := 0
deriving DecidableEq, Repr

/-- What else a configuration write sets in the endpoint: the MSI-X function mask and the three BARs (R305, R310). -/
structure PcieCfg where
  fmask : Bool
  bar0 : BitVec 64 := 0
  bar2 : BitVec 64 := 0
  bar4 : BitVec 64 := 0
deriving DecidableEq, Repr

/-- A transaction of the SMBus Address Resolution Protocol, or one whose address or command code is not the target's (R325). -/
inductive SmbArp where
  | prepare
  | getUdid
  | assign (udid : BitVec 128) (addr : BitVec 7)
  | other (addr : BitVec 7) (code : Byte)
deriving DecidableEq, Repr

/-- What the steward finds in a start (R394 to R397): whether the life-cycle bits of a roll-forward verify, the power-up test
that does not pass, by unit 304 + `u`, and whether it was aborted, the words of the factory row that ECC could not correct, as they
are read, and whether every
wiped word reads back 0. -/
structure StartRun where
  otp     : Bool := true
  fail    : Option (Fin 4 × Bool) := none
  factory : List (Nat × BitVec 64) := []
  wipe    : Bool := true
deriving DecidableEq, Repr
/-- The commands of the block: one constructor per row of the command table.
The first operand `t` of each is the instant at which the device takes the command, in units of 1/1024 ns. -/
inductive Instr where
  /-- REGISTER_WRITE (R5). A write to a register that has no row of its own stores its value under its access type, or
    has no effect (R6). -/
  | registerWrite (t : Nat) (a : Agent) (p : Fin 512) (off : Nat) (v : Word)
  /-- ENABLE (R437). A write of CTRL.EN = 1 to a page that is OFF, REFUSED, SAFE or UNTESTED starts the consistency
    check, and STATE reads CHECKING. -/
  | enable (t : Nat) (a : Agent) (p : Fin 512) (v : Word)
  /-- CONSISTENCY_CHECK_END (R437). The consistency check ends within 64 page-clock cycles, judging its conditions as
    they stand in its last cycle, and the page reads ON or the state of the failing row. -/
  | consistencyCheckEnd (t : Nat) (p : Fin 512) (lref : Bool)
  /-- DISABLE (R438). A write of EN = 0 to an ON unit stops it as its chapter states, or is refused with DEPENDENCY
    under R20. -/
  | disable (t : Nat) (a : Agent) (p : Fin 512) (v : Word)
  /-- EVENT_W1C (R435). A W1C write to EVENT clears the bits written; a raising in the same cycle keeps the bit set,
    and the MSI-X condition is re-judged. -/
  | eventW1c (t : Nat) (a : Agent) (p : Fin 512) (v : Word)
  /-- EVENT_MASK_WRITE (R310). A write of EVENT_MASK changes the interrupt condition of its vector and may send its
    MSI-X message. -/
  | eventMaskWrite (t : Nat) (a : Agent) (p : Fin 512) (v : Word)
  /-- MSIX_UNMASK (R310). Unmasking a vector or the function sends a pending message if the condition still holds, and
    clears the pending bit. -/
  | msixUnmask (t : Nat) (vec : Option (Fin 256))
  /-- LOCK (R434). A privileged write of LOCK.LOCKED = 1 clears EXPERT and freezes every RWL field of the page until
    reset. -/
  | lock (t : Nat) (a : Agent) (p : Fin 512) (v : Word)
  /-- COUNTER_UPDATE (R327). In each counter cycle a counter adds the raisings that reached it, two cycles after they
    occurred. -/
  | counterUpdate (t : Nat)
  /-- ENCODER_SAMPLE (R31). At each pin-cycle boundary the PDU samples A, B and I, filters them and counts accepted
    transitions into the decimation accumulator. -/
  | encoderSample (t : Nat) (inp : Fin 16) (la lb li : Bool) (sa sb si : Nat)
  /-- INCREMENT_STROBE (R42). A strobe on a region's increment port adds its signed increment to the FABRIC domain
    that names the region, as one source count. -/
  | incrementStrobe (t : Nat) (r : Fin 96) (inc : BitVec 24)
  /-- SEGMENT_PUBLISH (R44). A count's segment is published 20 ns after its stamp, and every resolved event not yet
    committed is resolved again with it. -/
  | segmentPublish (t : Nat) (d : Fin 16)
  /-- EVENT_COMMIT (R44). When a resolved event comes within 10 ns of the present it is committed to its consumer and
    no longer moves, or fires at once with LATE (R45). -/
  | eventCommit (t : Nat) (d : Fin 16) (m : Fin 64)
  /-- DOMAIN_WRAP (R27). The position passing the modulus changes the cycle counter, raises CYCLE and, at a counter
    wrap, WRAP. -/
  | domainWrap (t : Nat) (d : Fin 16)
  /-- STOP_TIMEOUT (R48). No count for STOP_TIMEOUT × 10 ns stops an ENCODER or FABRIC domain and raises STOPPED. -/
  | stopTimeout (t : Nat) (d : Fin 16)
  /-- SHAFT_APPLY (R36). A host write of SHAFT_APPLY.GO applies a preset, starting a new ramp from the present rate,
    in the same-cycle order of R37. -/
  | shaftApply (t : Nat) (a : Agent) (d : Fin 16) (v : Word)
  /-- RATE_REACHED (R36). A ramp reaching its target rate clears DSTAT.RAMPING and raises RATE_REACHED. -/
  | rateReached (t : Nat) (d : Fin 16)
  /-- MAINS_ZERO_CROSSING (R38). A positive-going zero crossing on MAINS_SENSE updates the tracker, which declares
    lock after 8 good cycles and relocks after holdover. -/
  | mainsZeroCrossing (t : Nat) (c : MainsCycle)
  /-- LOCK_LOST (R39). Two missing zero crossings or a frequency outside 40–70 Hz raise LOCK_LOST and start holdover
    at the last frequency. -/
  | lockLost (t : Nat) (d : Fin 16)
  /-- HOLDOVER_END (R39). Holdover running out without lock stops the MAINS domain and raises HOLDOVER_END. -/
  | holdoverEnd (t : Nat) (d : Fin 16)
  /-- LAT_HOLDOVER_EXPIRY (R41). No Carillon update for LAT_HOLDOVER microseconds stops a LATTICE domain. -/
  | latHoldoverExpiry (t : Nat) (d : Fin 16)
  /-- MARK_FIRE (R52). A mark fires at its resolved instant, sets FIRED and LATE, and performs its IRQ, SWAP, PEAL,
    RATE and SNAPSHOT actions in ascending mark order. -/
  | markFire (t : Nat) (d : Fin 16) (m : Fin 64)
  /-- MARK_WRITE (R54). A write to a mark's POS, CTRL or ARG acts on its next resolution, arms it with SKIP reloaded,
    or disarms it with RANGE when its conditions fail. -/
  | markWrite (t : Nat) (a : Agent) (d : Fin 16) (m : Fin 64) (reg : Fin 4) (v : Word)
  /-- SNAP_CAPTURE (R55). A write of SNAP_TRIG.CAPTURE captures position, cycle, velocity and device time into slot 0
    in one pin cycle. -/
  | snapCapture (t : Nat) (a : Agent) (d : Fin 16) (v : Word)
  /-- SNAP_STAT_READ (R55). Reading a slot's SNAP_STAT copies the slot into its read shadow and clears OVERRUN. -/
  | snapStatRead (t : Nat) (d : Fin 16) (slot : Fin 4)
  /-- POS_LO_READ (R56). Reading POS_LO latches POS_HI and CYCLE into shadows. -/
  | posLoRead (t : Nat) (d : Fin 16)
  /-- VEL_LO_READ (R56). Reading VEL_LO latches VEL_HI into its shadow. -/
  | velLoRead (t : Nat) (d : Fin 16)
  /-- LOAD (R49). A write of LOAD_CTRL.LOAD while EN = 0 sets the position and cycle counter from LOAD_POS and
    LOAD_CYCLE. -/
  | load (t : Nat) (a : Agent) (d : Fin 16) (v : Word)
  /-- TS_DATA_WRITE (R64). A TS_DATA write stores one timing-set word, or all 64 pins' under BCAST, for vectors
    accepted from the next pin cycle, or is refused with RANGE. -/
  | tsDataWrite (t : Nat) (a : Agent) (g : Fin 48) (v : Word)
  /-- TS_DATA_READ (R63). A TS_DATA read returns the addressed word and advances TS_ADDR under AUTOINC. -/
  | tsDataRead (t : Nat) (g : Fin 48)
  /-- EDGE_COMMIT (R60). A resolved edge is committed into its pin's edge queue 10 ns before its resolved time, or at
    once with LATE. -/
  | edgeCommit (t : Nat) (pin : Fin 3072)
  /-- EDGE_PLACE (R61). At the start of its pin cycle an edge leaves the queue and is placed in a slot at least 312.5
    ps after the previous transition. -/
  | edgePlace (t : Nat) (pin : Fin 3072)
  /-- PIN_RESULT (R71). A judged pin delivers its pass or fail bit 10 ns after the strobe or window close, setting
    FAIL_LO or FAIL_HI on a fail. -/
  | pinResult (t : Nat) (pin : Fin 3072)
  /-- PAD_CROSSING (R74). A pad crossing a comparator switching level changes CMPH or CMPL, which feed the judgement,
    the Snare, the reflex cells and the fabric. -/
  | padCrossing (t : Nat) (pin : Fin 3072) (uv : BitVec 22) (hi lo : Bool)
  /-- RING_WRITE (R78). The group writes one Snare record per 400 MHz cycle into its ring, round-robin over the pins,
    advancing RING_WR. -/
  | ringWrite (t : Nat) (g : Fin 48)
  /-- RING_RD_WRITE (R78). A RING_RD write frees ring space, or is refused with RANGE when misaligned or beyond the
    ring. -/
  | ringRdWrite (t : Nat) (a : Agent) (g : Fin 48) (v : Word)
  /-- CAPT_COUNT_WRITE (R79). A CAPT_COUNT write stores COUNT and clears SATURATED. -/
  | captCountWrite (t : Nat) (a : Agent) (pin : Fin 3072) (v : Word)
  /-- THRESH_WRITE (R75). A THRESH write sets the pin's thresholds, leaves its comparators undefined for 500 ns, or is
    refused with INCONSISTENT. -/
  | threshWrite (t : Nat) (a : Agent) (pin : Fin 3072) (v : Word)
  /-- PIN_CFG_WRITE (R91). A PIN_CFG write changes Snare, hysteresis and serial settings at the next boundary, and a
    MODE change is a switch with WHEN IMMEDIATE. -/
  | pinCfgWrite (t : Nat) (a : Agent) (pin : Fin 3072) (v : Word)
  /-- SER_TX_HI_WRITE (R73). A write of SER_TX_HI pushes the 64-bit word into the selected pin's TX FIFO. -/
  | serTxHiWrite (t : Nat) (a : Agent) (g : Fin 48) (v : Word)
  /-- SER_RX_LO_READ (R72). A read of SER_RX_LO pops the oldest RX word and latches its high half into SER_RX_HI. -/
  | serRxLoRead (t : Nat) (a : Agent) (g : Fin 48)
  /-- REFLEX_ENABLE (R82). Setting RFXk_CTRL.EN runs the cell's check and enables it, or leaves EN at 0 with the
    reason. -/
  | reflexEnable (t : Nat) (a : Agent) (g : Fin 48) (k : Fin 16) (v : Word)
  /-- REFLEX_TABLE_WRITE (R81). A TABLE write takes effect at the next pin-cycle boundary, also while the cell runs. -/
  | reflexTableWrite (t : Nat) (a : Agent) (g : Fin 48) (k : Fin 16) (v : Word)
  /-- REFLEX_OUTPUT (R83). A reflex cell's output change reaches the target pin's Mallet after its path delay plus
    DELAY and drives the pad while ACTIVE. -/
  | reflexOutput (t : Nat) (g : Fin 48) (k : Fin 16)
  /-- VCCIO_MEAS_UPDATE (R93). Every 10 µs VCCIO_MEAS is updated and VCCIO_OK follows it, raising VCCIO_LOST and
    turning pads off when VCCIO leaves its band. -/
  | vccioMeasUpdate (t : Nat) (g : Fin 48) (mv : BitVec 16)
  /-- VCCIO_RETURN (R120). After VCCIO has stayed in band for 100 µs the pads return under R114 with a break interval. -/
  | vccioReturn (t : Nat) (g : Fin 48)
  /-- VCCIO_CHANGE (R120). A bank's VCCIO crossing 1.0 V changes its VCCIO_LO or VCCIO_HI bit, making the bank present
    or absent. -/
  | vccioChange (t : Nat) (g : Fin 48) (mv : BitVec 16)
  /-- ADC_TRIG (R88). A write of ADC_TRIG starts a SINGLE conversion of each named ADC that is idle. -/
  | adcTrig (t : Nat) (a : Agent) (g : Fin 48) (v : Word)
  /-- ADC_RESULT (R88). A conversion ends after 2^AVG × 0.5 µs, sets VALID, pushes the FIFO and raises ADCn_DONE; a
    CONTINUOUS converter starts again. -/
  | adcResult (t : Nat) (g : Fin 48) (j : Fin 2) (code : BitVec 16)
  /-- ADC_RESULT_READ (R88). A read of ADCn_RESULT returns the last result and clears VALID. -/
  | adcResultRead (t : Nat) (g : Fin 48) (j : Fin 2)
  /-- ADC_FIFO_READ (R88). A read of ADCn_FIFO pops the oldest result, or returns 0 when empty. -/
  | adcFifoRead (t : Nat) (a : Agent) (g : Fin 48) (j : Fin 2)
  /-- DAC_WRITE (R87). A DAC write sets its code and bus and connects it as a forcing source, or is refused with
    CONFLICT. -/
  | dacWrite (t : Nat) (a : Agent) (g : Fin 48) (j : Fin 2) (v : Word)
  /-- PMU_CTRL_WRITE (R90). A PMU_CTRL write sets mode, range and bus and turns the PMU on or off, refused for a
    second forcing source or an empty clamp window. -/
  | pmuCtrlWrite (t : Nat) (a : Agent) (g : Fin 48) (v : Word)
  /-- PMU_FORCE_WRITE (R90). A PMU_FORCE write sets the forced voltage or current, or is refused with RANGE. -/
  | pmuForceWrite (t : Nat) (a : Agent) (g : Fin 48) (v : Word)
  /-- PMU_CLAMP_WRITE (R90). A PMU_CLAMP write sets the clamp window, or is refused with INCONSISTENT when the window
    would be empty while the PMU is on. -/
  | pmuClampWrite (t : Nat) (a : Agent) (g : Fin 48) (v : Word)
  /-- PMU_CLAMP (R90). The PMU entering its clamp sets CLAMPED and raises PMU_CLAMP. -/
  | pmuClamp (t : Nat) (g : Fin 48)
  /-- PIN_OWN_WRITE (R103). A PIN_OWN write is judged on lock, guard and fields, then stores every field or none. -/
  | pinOwnWrite (t : Nat) (a : Agent) (pin : Fin 3072) (v : Word)
  /-- OWN_LOCK_WRITE (R102). A privileged write of 1 to OWN_LOCK sets a pin's lock bit until reset. -/
  | ownLockWrite (t : Nat) (a : Agent) (g : Fin 48) (hi : Bool) (v : Word)
  /-- HOST_OE_WRITE (R99). A HOST_OE write sets the output enable of host-owned pins at the next pin-cycle boundary. -/
  | hostOeWrite (t : Nat) (a : Agent) (g : Fin 48) (hi : Bool) (v : Word)
  /-- HOST_LVL_WRITE (R99). A HOST_LVL write sets the level of host-owned pins at the next pin-cycle boundary. -/
  | hostLvlWrite (t : Nat) (a : Agent) (g : Fin 48) (hi : Bool) (v : Word)
  /-- SWITCH_SUBMIT (R104). A write of SW_CTRL with GO submits a switch of every masked pin to NEW_OWNER, accepted as
    a whole or refused. -/
  | switchSubmit (t : Nat) (a : Agent) (g : Fin 48) (v : Word)
  /-- CANCEL (R106). A write of SW_CTRL with CANCEL removes the pending switches of the masked pins. -/
  | cancel (t : Nat) (a : Agent) (g : Fin 48) (v : Word)
  /-- SWITCH_BOUNDARY (R109). At boundary B the owner code changes, the old owner's drive drops and the pad enters its
    park state. -/
  | switchBoundary (t : Nat) (g : Fin 48)
  /-- NEW_OWNER_INPUT (R109). Two pin cycles after B the new owner's input follows the pad. -/
  | newOwnerInput (t : Nat) (pin : Fin 3072)
  /-- BREAK_END (R109). At BREAK pin cycles after B the park ends and the pad takes the new owner's drive state. -/
  | breakEnd (t : Nat) (pin : Fin 3072)
  /-- PARK_END (R114). BREAK pin cycles after the last Gong, self-test or swap park cause ends, the pad takes the
    drive state of the highest lower rank. -/
  | parkEnd (t : Nat) (pin : Fin 3072)
  /-- PROTOCOL_REJOIN (R318). After its condition ends a quiet block rejoins its bus as its standard requires and
    raises PIN_RETURNED. -/
  | protocolRejoin (t : Nat) (p : Fin 512)
  /-- HALT (R134). HALT sets HALT_CODE and retires when every enqueued vector has issued. -/
  | halt (t : Nat) (q : Fin 48)
  /-- HALT_RETIRE (R143). The last enqueued vector issuing lets HALT retire, RUN reads HALTED with CAUSE HALT and
    HALTED is raised. -/
  | haltRetire (t : Nat) (q : Fin 48)
  /-- NOP (R134). NOP retires in one cycle with no effect. -/
  | nop (t : Nat) (q : Fin 48)
  /-- VEC (R134). VEC enqueues a command of COUNT vectors at consecutive addresses, stalling while the FIFO is full. -/
  | vec (t : Nat) (q : Fin 48)
  /-- VECR (R134). VECR enqueues a command repeating one vector COUNT times. -/
  | vecr (t : Nat) (q : Fin 48)
  /-- TSET (R134). TSET sets the timing set for commands enqueued after it. -/
  | tset (t : Nat) (q : Fin 48)
  /-- MATCH (R149). MATCH issues copies of one vector until a copy passes or LIMIT copies fail, setting MATCHED or
    TIMEOUT. -/
  | matchVec (t : Nat) (q : Fin 48)
  /-- LOOP (R134). LOOP loads a loop counter and its loop start. -/
  | loop (t : Nat) (q : Fin 48)
  /-- ENDL (R134). ENDL decrements a loop counter and jumps to its loop start unless it reaches 0. -/
  | endl (t : Nat) (q : Fin 48)
  /-- JMP (R134). JMP jumps to TARGET. -/
  | jmp (t : Nat) (q : Fin 48)
  /-- JC (R134). JC jumps to G[A] + OFFSET modulo 2^20. -/
  | jc (t : Nat) (q : Fin 48)
  /-- CALL (R134). CALL pushes the return address and jumps, or faults with STACK_OVF. -/
  | call (t : Nat) (q : Fin 48)
  /-- RET (R134). RET pops an address and jumps to it, or faults with STACK_UNF. -/
  | ret (t : Nat) (q : Fin 48)
  /-- WAITP (R151). WAITP waits for the commit of the next firing of a mark, resynchronising the time grid with
    RESYNC. -/
  | waitp (t : Nat) (q : Fin 48)
  /-- WAITT (R134). WAITT begins a wait of N or G[B] cycles. -/
  | waitt (t : Nat) (q : Fin 48)
  /-- WAITT_COMPLETE (R134). WAITT completes when its N cycles have passed. -/
  | waittComplete (t : Nat) (q : Fin 48)
  /-- WAITE_DOORBELL (R150). WAITE of kind DOORBELL waits until DB_PEND is 1 and clears it. -/
  | waiteDoorbell (t : Nat) (q : Fin 48)
  /-- WAITE_FABRIC (R150). WAITE of kind FABRIC waits until FAB_PEND is 1 and clears it. -/
  | waiteFabric (t : Nat) (q : Fin 48)
  /-- WAITE_SEQ (R150). WAITE of kind SEQ waits for the first EVENT on a line of a named sequencer. -/
  | waiteSeq (t : Nat) (q : Fin 48)
  /-- WAITE_FLAG (R150). WAITE of kind FLAG waits until a user flag is 1. -/
  | waiteFlag (t : Nat) (q : Fin 48)
  /-- WAIT_TIMEOUT (R150). A WAITP or WAITE with TMO that runs G[B] cycles without its event ends with TIMEOUT = 1 and
    raises TIMEOUT. -/
  | waitTimeout (t : Nat) (q : Fin 48)
  /-- LDI (R134). LDI loads an immediate into G[A] and sets Z. -/
  | ldi (t : Nat) (q : Fin 48)
  /-- ADD (R134). ADD adds X to G[A] modulo 2^32 and sets Z. -/
  | add (t : Nat) (q : Fin 48)
  /-- SUB (R134). SUB subtracts X from G[A] modulo 2^32 and sets Z. -/
  | sub (t : Nat) (q : Fin 48)
  /-- AND (R134). AND forms G[A] AND X and sets Z. -/
  | andI (t : Nat) (q : Fin 48)
  /-- OR (R134). OR forms G[A] OR X and sets Z. -/
  | orI (t : Nat) (q : Fin 48)
  /-- XOR (R134). XOR forms G[A] XOR X and sets Z. -/
  | xorI (t : Nat) (q : Fin 48)
  /-- SHL (R134). SHL shifts G[A] left by X[4:0] and sets Z. -/
  | shl (t : Nat) (q : Fin 48)
  /-- SHR (R134). SHR shifts G[A] right logically by X[4:0] and sets Z. -/
  | shr (t : Nat) (q : Fin 48)
  /-- LD (R152). LD reads a word from the RESULT, DEEP, REG, COUNTER or SER space into G[A], or faults with ADDR. -/
  | ld (t : Nat) (q : Fin 48)
  /-- ST (R152). ST posts a word write to a space through the 8-entry post buffer. -/
  | st (t : Nat) (q : Fin 48)
  /-- CAPT (R158). CAPT attaches an ADC mask to the next vector command, starting SEQUENCER-triggered conversions at
    its first vector start. -/
  | capt (t : Nat) (q : Fin 48)
  /-- SIG_CLEAR (R147). SIG CLEAR sets SIGACC to 0xFFFF_FFFF. -/
  | sigClear (t : Nat) (q : Fin 48)
  /-- SIG_READ (R147). SIG READ waits for pending judgements and copies SIGACC into G[A]. -/
  | sigRead (t : Nat) (q : Fin 48)
  /-- SIG_CHECK (R147). SIG CHECK waits for pending judgements and sets MATCHED when SIGACC equals G[A]. -/
  | sigCheck (t : Nat) (q : Fin 48)
  /-- FLAG (R134). FLAG clears then sets the named F bits and clears FAIL, LATE or MATCHED and TIMEOUT. -/
  | flag (t : Nat) (q : Fin 48)
  /-- EVENT (R159). EVENT sets an EVLINES bit, raises PROG and pulses the line to the fabric port and to waiting WAITE
    instructions. -/
  | event (t : Nat) (q : Fin 48)
  /-- PEAL (R160). PEAL sends a Peal descriptor of the CARILLON page, optionally with its position from G[A]. -/
  | peal (t : Nat) (q : Fin 48)
  /-- LOG (R161). LOG copies a record from the result memory and submits it, with its commit flag, to the SEQUENCER
    queue, claiming the bank at the first LOG. -/
  | log (t : Nat) (q : Fin 48)
  /-- SWAPREQ (R160). SWAPREQ starts a swap request of the IMAGE page. -/
  | swapreq (t : Nat) (q : Fin 48)
  /-- VECTOR_ISSUE (R143). At each issue point the issue unit hands the next vector, or an idle fill, to the groups of
    the span, which accept it and resolve its edges. -/
  | vectorIssue (t : Nat) (q : Fin 48)
  /-- XIP_LINE_READ (R155). A granted line read of a record bank returns 8 instructions after 16 cycles into the
    prefetch buffer or branch target cache. -/
  | xipLineRead (t : Nat) (q : Fin 48) (bad : BitVec 8)
  /-- GO (R163). RUN_CTRL.GO starts a sequencer at START_ADDR at once or at the commit of a mark's firing, or is
    refused. -/
  | go (t : Nat) (a : Agent) (q : Fin 48) (v : Word)
  /-- STOP (R163). RUN_CTRL.STOP abandons any wait at the next instruction boundary, empties the FIFO and halts with
    CAUSE STOP. -/
  | stop (t : Nat) (a : Agent) (q : Fin 48) (v : Word)
  /-- STEP (R163). RUN_CTRL.STEP executes the instruction at PC and halts with CAUSE STEP when it retires. -/
  | step (t : Nat) (a : Agent) (q : Fin 48) (v : Word)
  /-- DOORBELL (R150). A host write of DOORBELL.RING sets DB_PEND. -/
  | doorbell (t : Nat) (a : Agent) (q : Fin 48) (v : Word)
  /-- FLAGS_WRITE (R132). A host write of FLAGS sets the F bits, prevailing over same-cycle FLAG and fabric sets. -/
  | flagsWrite (t : Nat) (a : Agent) (q : Fin 48) (v : Word)
  /-- FLOG_RD_WRITE (R148). A FLOG_RD write frees fail-log space, or is refused with RANGE. -/
  | flogRdWrite (t : Nat) (a : Agent) (q : Fin 48) (v : Word)
  /-- SAMPLE_INTERRUPT (R168). A sampling interrupt reaching a sequencer copies SAMPLE_PC and SAMPLE_VCOUNT and raises
    SAMPLE. -/
  | sampleInterrupt (t : Nat) (q : Fin 48)
  /-- PIN_DRIVE_REQUEST (R181). A pin port drive request is committed 2T after it is taken and placed under R61, or
    returns NOT_OWNED. -/
  | pinDriveRequest (t : Nat) (r : Fin 96) (pin : Fin 3072) (oe lvl : Bool)
  /-- SERIAL_PUSH (R183). A pin port push writes a 64-bit word into a served pin's TX FIFO. -/
  | serialPush (t : Nat) (r : Fin 96) (pin : Fin 3072) (w : BitVec 64)
  /-- SERIAL_POP (R183). A pin port pop takes a word from a served pin's RX FIFO, or returns 0. -/
  | serialPop (t : Nat) (r : Fin 96) (pin : Fin 3072)
  /-- PRESET_REQUEST (R184). A PDU port preset request applies a SHAFT preset to a domain under R37. -/
  | presetRequest (t : Nat) (r : Fin 96) (d : Fin 16) (k : Fin 8)
  /-- MARK_NOTICE (R185). A mark notice pulses for one port cycle, two port cycles after the first port-clock edge at
    or after the firing. -/
  | markNotice (t : Nat) (r : Fin 96) (n : Fin 16)
  /-- FLAG_SET (R186). A sequencer port flag set sets F bits of a sequencer, combined by OR across regions. -/
  | flagSet (t : Nat) (r : Fin 96) (q : Fin 48) (mask : BitVec 4)
  /-- STROBE (R186). A sequencer port strobe sets RUN_STAT.FAB_PEND. -/
  | strobe (t : Nat) (r : Fin 96) (q : Fin 48)
  /-- VECTOR_MEMORY_WRITE (R186). A sequencer port write stores one vector memory word, checked under R139, or returns
    REFUSED. -/
  | vectorMemoryWrite (t : Nat) (r : Fin 96) (q : Fin 48) (g : Fin 4) (entry : Fin 16384) (w : Fin 8) (v : Word)
  /-- REGISTER_PORT_ACCESS (R187). A region's register port takes a read or write within its reach, or returns DENIED. -/
  | registerPortAccess (t : Nat) (r : Fin 96) (write : Bool) (counter : Bool) (addr : Nat) (v : Word)
  /-- REGISTER_PORT_RESPONSE (R188). A register port access returns its data and response 80–400 ns after it was
    taken, in order. -/
  | registerPortResponse (t : Nat) (r : Fin 96)
  /-- DEEP_ACCESS (R194). An access on port A or port B of a deep memory reads or writes a word, with collisions
    resolved under R196. -/
  | deepAccess (t : Nat) (row : Fin 8) (east : Bool) (pa pb : Option MemAccess)
  /-- MEMORY_BLOCK_ACCESS (R191). A memory block port read or write in one cycle is write-first, with port B winning
    same-word writes and parity checked on read. -/
  | memoryBlockAccess (t : Nat) (r : Fin 96) (blk : Fin 24) (parity : Bool) (pa pb : Option BlockAccess)
  /-- CLOCK_LOST (R174). A port clock stopping parks the region's ports from the fourth pin cycle after its last edge
    and raises CLOCK_LOST. -/
  | clockLost (t : Nat) (r : Fin 96)
  /-- PORT_CLOCK_RESUME (R174). A port clock running again releases the region's ports from park at its first edge. -/
  | portClockResume (t : Nat) (r : Fin 96)
  /-- HOLD_WINDOW_EXPIRY (R179). A request held for a target under test receives SELFTEST when HOLD_WINDOW port cycles
    pass without the test ending. -/
  | holdWindowExpiry (t : Nat) (r : Fin 96)
  /-- STORE_PORT_SUBMIT (R216). A region's store port takes a whole descriptor into the FABRIC queue. -/
  | storePortSubmit (t : Nat) (r : Fin 96) (ws : List Word)
  /-- HSUBMIT (R208). A write of HSUBMIT.GO submits HDESC0–7 to the HOST queue. -/
  | hsubmit (t : Nat) (a : Agent) (v : Word)
  /-- STORE_NOP (R211). A NOP descriptor completes OK, acting as a barrier with FENCE. -/
  | storeNop (t : Nat) (q : Fin 4)
  /-- READ (R217). A READ descriptor is dispatched and copies COUNT words from flash to its buffer through the bank's
    read port. -/
  | read (t : Nat) (q : Fin 4)
  /-- READ_COMPLETE (R217). A READ ends when its last line is delivered and posts its completion with its corrected
    and uncorrectable counts. -/
  | readComplete (t : Nat) (q : Fin 4) (b : Fin 128) (corr : Nat) (bad : List (Nat × BitVec 64))
  /-- PROGRAM (R218). A PROGRAM descriptor is dispatched, checked and starts programming its words in ascending order. -/
  | program (t : Nat) (q : Fin 4)
  /-- PROGRAM_COMPLETE (R218). A PROGRAM ends after its last word verifies, or at a word that fails the pulse limit,
    and posts its completion. -/
  | programComplete (t : Nat) (q : Fin 4) (b : Fin 104) (fail : Option Nat) (pulses : Nat)
  /-- ERASE (R222). An ERASE descriptor is dispatched, increments the sector's cycle count and starts the erase steps. -/
  | erase (t : Nat) (q : Fin 4)
  /-- ERASE_COMPLETE (R222). An erase ends after its verifying step or at ERASE_LIMIT, writes its done entry and
    completes, repeating once on a spare. -/
  | eraseComplete (t : Nat) (q : Fin 4) (b : Fin 104) (ok : Bool) (pulses : Nat) (spareOk : Bool)
  /-- SUSPEND (R226). SUSPEND acts on the erase in progress in its bank, taking effect once erase progress reaches 250
    µs. -/
  | suspend (t : Nat) (q : Fin 4)
  /-- SUSPEND_EFFECTIVE (R226). At the effective instant the erase step is cut, a suspend entry is written and the
    ERASE completes SUSPENDED. -/
  | suspendEffective (t : Nat) (b : Fin 104) (pulses : Nat)
  /-- RESUME (R228). RESUME continues a suspended erase with a fresh setup and the step count carried over. -/
  | resume (t : Nat) (q : Fin 4)
  /-- SECTOR_INFO (R211). SECTOR_INFO reports a sector's state and cycle count in its completion. -/
  | sectorInfo (t : Nat) (q : Fin 4)
  /-- PROTECT (R235). PROTECT commits the protection bits of the masked groups under a METADATA claim. -/
  | protect (t : Nat) (q : Fin 4)
  /-- UNPROTECT (R236). UNPROTECT compares a password digest and clears the masked groups' bits, or counts a mismatch
    towards lockout. -/
  | unprotect (t : Nat) (q : Fin 4)
  /-- SET_PASSWORD (R237). SET_PASSWORD checks the present password and commits the new password's digest. -/
  | setPassword (t : Nat) (q : Fin 4)
  /-- MARGIN_READ (R211). MARGIN_READ reads at a shifted sense level where the life-cycle state allows it. -/
  | marginRead (t : Nat) (q : Fin 4)
  /-- RAW_READ (R211). RAW_READ reads all 72 bits of each word uncorrected where the life-cycle state allows it. -/
  | rawRead (t : Nat) (q : Fin 4)
  /-- HCOMP0_READ (R216). A read of HCOMP0 pops the oldest HOST completion and latches its other words into HCOMP1–3. -/
  | hcomp0Read (t : Nat) (a : Agent)
  /-- RESET_HOST (R234). QCTRL.RESET_HOST stops the HOST queue's operations and completes its descriptors with
    ABORTED_RESET. -/
  | resetHost (t : Nat) (a : Agent) (v : Word)
  /-- RESET_FABRIC (R234). QCTRL.RESET_FABRIC resets the FABRIC queue in the same way. -/
  | resetFabric (t : Nat) (a : Agent) (v : Word)
  /-- RESET_SEQUENCER (R234). QCTRL.RESET_SEQUENCER resets the SEQUENCER queue in the same way. -/
  | resetSequencer (t : Nat) (a : Agent) (v : Word)
  /-- PWRFAIL_N_FALL (R231). PWRFAIL_N falling stops dispatch, ends pulses and discharges the pumps, and cuts any OTP
    pulse. -/
  | pwrfailNFall (t : Nat)
  /-- PWRFAIL_N_RISE (R232). PWRFAIL_N rising while the supplies held starts the 100 µs wait before recovery. -/
  | pwrfailNRise (t : Nat)
  /-- PWRFAIL_RECOVERY (R232). After PWRFAIL_N has been high for 100 µs, stopped descriptors complete ABORTED_PWRFAIL,
    dispatch resumes and held OTP writes continue. -/
  | pwrfailRecovery (t : Nat)
  /-- COMMIT (R247). IMG_CMD COMMIT reads the header block and runs the commit checks of Table 8.4 for a slot. -/
  | commit (t : Nat) (a : Agent) (v : Word)
  /-- COMMIT_COMPLETE (R248). A commit whose checks pass writes slot records and commit flags with the anchor's flag
    last and reports its result. -/
  | commitComplete (t : Nat) (bad : List (Fin 96))
  /-- REVOKE (R251). IMG_CMD REVOKE programs a revocation flag in the anchor so every slot of the image reads REVOKED. -/
  | revoke (t : Nat) (a : Agent) (v : Word)
  /-- SET_BOOT (R251). IMG_CMD SET_BOOT sets the boot slot of every masked region. -/
  | setBoot (t : Nat) (a : Agent) (v : Word)
  /-- LOAD_WAVE (R253). A wave of up to 24 regions loads its frames in 3.84 µs, checks each CRC and enables the
    regions that match. -/
  | loadWave (t : Nat) (bad : List (Fin 96))
  /-- RE_VERIFY_END (R254). Re-verification of an image after a CRC failure ends, reloading the region or revoking the
    image and falling back. -/
  | reVerifyEnd (t : Nat) (swap : Option (Fin 8)) (bad : List (Fin 96))
  /-- SWAP_ARM (R255). Writing ARM = 1 to an IDLE swap request starts arming, and the state reads ARMING. -/
  | swapArm (t : Nat) (a : Agent) (n : Fin 8) (v : Word)
  /-- ARMING_END (R255). Arming ends in ARMED when its checks and ledger claim pass, or in IDLE with OUTCOME REFUSED. -/
  | armingEnd (t : Nat) (n : Fin 8)
  /-- SWAP_DISARM (R255). Writing ARM = 0 in ARMING or ARMED releases the claim and returns the request to IDLE with
    OUTCOME DISARMED. -/
  | swapDisarm (t : Nat) (a : Agent) (n : Fin 8) (v : Word)
  /-- SWAP_GO (R256). A host write of GO starts a swap request with its trigger instant 100 ns later, or is discarded
    with SWAP_DROPPED. -/
  | swapGo (t : Nat) (a : Agent) (n : Fin 8) (v : Word)
  /-- SWAP_START (R257). At swap instant S the COMPAT check passes, the masked regions park their ports and pins and
    their loads begin in waves. -/
  | swapStart (t : Nat) (n : Fin 8)
  /-- SWAP_RELEASE (R257). At R every CRC has matched, the regions take the new frames and slot, SWAPPING clears and
    OUTCOME reads DONE. -/
  | swapRelease (t : Nat) (n : Fin 8) (bad : List (Fin 96))
  /-- SWAP_REVERT (R259). A failed CRC makes every masked region reload its old frame, released together with OUTCOME
    REVERTED. -/
  | swapRevert (t : Nat) (n : Fin 8) (bad : List (Fin 96))
  /-- LINK_UP (R265). A port's link finishing training reaches UP and raises LINK_UP. -/
  | linkUp (t : Nat) (n : Fin 8) (id : PeerId)
  /-- TRAINING_TIMEOUT (R265). A link that does not reach UP within 2 ms returns to TRAINING with a REASON. -/
  | trainingTimeout (t : Nat) (n : Fin 8) (id : Option PeerId)
  /-- LINK_DOWN (R265). A link failing goes DOWN, raises LINK_DOWN, sends a link notice and returns to TRAINING by
    itself. -/
  | linkDown (t : Nat) (n : Fin 8) (clock : Bool)
  /-- CRC_ERR (R267). A flit that fails its CRC or arrives out of sequence is discarded and resent from the retry
    buffer, raising RETRY. -/
  | crcErr (t : Nat) (n : Fin 8) (lseq : Option (BitVec 16))
  /-- UNKNOWN (R270). A flit of a reserved class is discarded at receipt and raises UNKNOWN. -/
  | unknown (t : Nat) (n : Fin 8) (f : Flit)
  /-- REQUEST_FLIT (R277). A REQUEST flit is routed onward, or served at its destination as a privileged host access,
    or answered UNDELIVERABLE. -/
  | requestFlit (t : Nat) (n : Fin 8) (f : Flit)
  /-- RESPONSE_FLIT (R276). A RESPONSE flit completes a remote read to the host. -/
  | responseFlit (t : Nat) (n : Fin 8) (f : Flit)
  /-- UNDELIVERABLE (R275). An UNDELIVERABLE flit at its source sets REMOTE_ERR or stops a stream channel. -/
  | undeliverable (t : Nat) (n : Fin 8) (f : Flit)
  /-- STREAM_FLIT (R278). A STREAM flit delivers a 48-byte unit to the receiving channel's region in sequence order,
    or is answered UNDELIVERABLE. -/
  | streamFlit (t : Nat) (n : Fin 8) (f : Flit)
  /-- STREAM_PUSH (R278). A region pushes a 48-byte unit into a stream channel, sent as one STREAM flit. -/
  | streamPush (t : Nat) (r : Fin 96) (ch : Fin 16) (ws : List Word)
  /-- STREAM_GAP_TIMEOUT (R278). A sequence gap open for 100 µs stops the channel with ERR and raises STREAM_ERR. -/
  | streamGapTimeout (t : Nat) (ch : Fin 16)
  /-- STREAM_ENABLE (R278). Writing STREAM_CFGn.EN starts a channel from sequence 0. -/
  | streamEnable (t : Nat) (a : Agent) (ch : Fin 16) (v : Word)
  /-- REMOTE_ACCESS (R276). A host BAR4 access becomes REQUEST flits to the device REMOTE_DEV names, or is served
    locally. -/
  | remoteAccess (t : Nat) (write : Bool) (off len : Nat) (data : List (BitVec 8))
  /-- REMOTE_TIMEOUT (R276). A remote read without a RESPONSE within REMOTE_TMO completes with 0xFF bytes and sets
    REMOTE_ERR. -/
  | remoteTimeout (t : Nat)
  /-- CENSUS_SEND (R279). Every 10 ms an ON router sends its census flit along the tree or on every UP port. -/
  | censusSend (t : Nat)
  /-- CENSUS_FLIT (R279). A census flit marks its sender present and updates LAT_DIAM, D_MAX and the census. -/
  | censusFlit (t : Nat) (n : Fin 8) (f : Flit)
  /-- LINK_NOTICE (R279). A link notice counts towards declaring the device beyond that link absent. -/
  | linkNotice (t : Nat) (n : Fin 8) (f : Flit)
  /-- CENSUS_TIMEOUT (R279). 30 ms without a device's census flit lists it absent and raises CENSUS_CHANGE. -/
  | censusTimeout (t : Nat) (addr : BitVec 16)
  /-- SYNC_SEND (R283). Every 2 µs an UP link with CARILLON_USE sends a SYNC flit. -/
  | syncSend (t : Nat) (n : Fin 8)
  /-- SYNC (R283). A SYNC flit is answered with an ECHO carrying its turnaround time. -/
  | sync (t : Nat) (n : Fin 8) (f : Flit)
  /-- ECHO (R283). An ECHO flit updates the link's one-way delay mean, DELAY and LONG, and makes the link usable after
    64 exchanges. -/
  | echo (t : Nat) (n : Fin 8) (f : Flit)
  /-- BEAT_SEND (R284). Every 2 µs the root sends a BEAT with lattice time and LATTICE_COMPAT. -/
  | beatSend (t : Nat)
  /-- BEAT (R284). A BEAT chooses the device's parent, disciplines lattice time, updates LATTICE_COMPAT and is
    forwarded to tree children. -/
  | beat (t : Nat) (n : Fin 8) (f : Flit)
  /-- ELECTION_TIMEOUT (R284). A device that hears no root for 8 µs after its CARILLON enable becomes root if eligible
    and lowest, or waits in ELECTING. -/
  | electionTimeout (t : Nat)
  /-- BEAT_TIMEOUT (R284). No BEAT for 8 µs puts the device in ELECTING, sets holdover on its LATTICE domains and
    floods ROOT_LOST. -/
  | beatTimeout (t : Nat)
  /-- ROOT_LOST (R284). A ROOT_LOST flit puts the device in ELECTING and the lowest eligible device becomes root. -/
  | rootLost (t : Nat) (n : Fin 8) (f : Flit)
  /-- ROOT_HANDOVER (R284). After the census has listed a lower eligible device for 10 ms the root sends a HANDOVER
    flit. -/
  | rootHandover (t : Nat)
  /-- HANDOVER (R284). A HANDOVER flit makes the named device root from the next beat instant. -/
  | handover (t : Nat) (n : Fin 8) (f : Flit)
  /-- SEGMENT_SEND (R286). A publisher sends a SEGMENT of its G-DOM at least every 20 µs and at each trajectory
    change. -/
  | segmentSend (t : Nat) (d : Fin 16)
  /-- SEGMENT (R286). A SEGMENT flit replaces the kept segment of its G-DOM and feeds the LATTICE domains that follow
    it. -/
  | segment (t : Nat) (n : Fin 8) (f : Flit)
  /-- PUB_ENABLE (R286). Writing PUBn.EN makes a domain publish a G-DOM, or is refused with CONFLICT and PUB_CONFLICT. -/
  | pubEnable (t : Nat) (a : Agent) (d : Fin 16) (v : Word)
  /-- LATTICE_COMPAT_WRITE (R287). A LATTICE_COMPAT write while CARILLON is ON is sent to the root as a COMPAT_SET
    flit. -/
  | latticeCompatWrite (t : Nat) (a : Agent) (v : Word)
  /-- COMPAT_SET (R287). A COMPAT_SET flit at the root makes it adopt the new compatibility word for its next BEAT. -/
  | compatSet (t : Nat) (n : Fin 8) (f : Flit)
  /-- LTIME_LO_READ (R282). Reading LTIME_LO latches LTIME_HI. -/
  | ltimeLoRead (t : Nat)
  /-- PEAL_SEND (R290). A PEAL_SEND write forms T from the descriptor and the latest SEGMENT and sends the Peal, or
    refuses it. -/
  | pealSend (t : Nat) (a : Agent) (v : Word)
  /-- PEAL_RELEASE (R290). Peals held while no tree stands are released when the tree returns, with the lead checked
    again. -/
  | pealRelease (t : Nat)
  /-- PEAL_FLIT (R291). A Peal received by a target hands mark m and position T to every domain that follows the
    G-DOM. -/
  | pealFlit (t : Nat) (n : Fin 8) (f : Flit)
  /-- RING (R292). A GONG_CTRL.RING change from 0 to 1 rings a Gong with a new identity and floods it. -/
  | ring (t : Nat) (a : Agent) (v : Word)
  /-- CLEAR (R295). A write of GONG_CTRL.CLEAR floods a CLEAR that names the identity in GONG_LAST. -/
  | clear (t : Nat) (a : Agent) (v : Word)
  /-- GONG_RING_FLIT (R293). The first copy of a Gong identity puts the Gong in force and is forwarded on every other
    UP port. -/
  | gongRingFlit (t : Nat) (n : Fin 8) (f : Flit)
  /-- GONG_CLEAR_FLIT (R295). A CLEAR flit is forwarded and ends the device's Gong when it names GONG_LAST and the
    other conditions hold. -/
  | gongClearFlit (t : Nat) (n : Fin 8) (f : Flit)
  /-- ABORT_N_FALL (R296). A falling edge of ABORT_N with ABORT_IN_EN = 1 that the device does not drive starts a 100
    ns filter. -/
  | abortNFall (t : Nat)
  /-- ABORT_FILTER_EXPIRY (R296). ABORT_N low for 100 ns with ABORT_IN_EN held rings a Gong with CAUSE ABORT_PIN. -/
  | abortFilterExpiry (t : Nat)
  /-- ABORT_N_RISE (R295). ABORT_N rising may end a cleared Gong. -/
  | abortNRise (t : Nat)
  /-- HOT_RESET (R308). A PCI Express hot reset resets the endpoint, the HOST queue and pending BAR4 accesses only. -/
  | hotReset (t : Nat)
  /-- FLR (R308). A Function Level Reset resets the endpoint only. -/
  | flr (t : Nat)
  /-- PERST_N (R420). PERST_N low holds the endpoint in a link-down reset until it rises. -/
  | perstN (t : Nat) (level : Bool)
  /-- D3HOT (R308). A power state change to or from D3hot stops or resumes endpoint requests and interrupts. -/
  | d3hot (t : Nat) (enter bme : Bool) (c : PcieCfg)
  /-- BAR0_ACCESS (R306). A host BAR0 access reaches one register, or raises SIZE_ERR or POISON without effect. -/
  | bar0Access (t : Nat) (acc : HostAccess)
  /-- BAR2_WRITE (R442). A host BAR2 write stores into vector, deep, result or program memory under the window's
    rules. -/
  | bar2Write (t : Nat) (off : Nat) (be : BitVec 4) (v : Option Word)
  /-- ULANE_RX_WORD (R314). A received lane word enters the RX FIFO and is presented to the region, or raises
    RX_OVERFLOW. -/
  | ulaneRxWord (t : Nat) (k : Fin 16) (w : BitVec 72) (errs : LaneErrs)
  /-- ULANE_TX_WORD (R314). The line taking a word sends the TX FIFO head, or the idle of its code with TX_UNDERRUN. -/
  | ulaneTxWord (t : Nat) (k : Fin 16)
  /-- ULANE_PUSH (R314). A lane port push writes one word into a user lane's TX FIFO. -/
  | ulanePush (t : Nat) (r : Fin 96) (k : Fin 16) (w : BitVec 72)
  /-- ULANE_LOCK_CHANGE (R313). A user lane gaining or losing CDR lock or alignment raises LOCKED or LOCK_LOST. -/
  | ulaneLockChange (t : Nat) (k : Fin 16) (lk : Fin 3) (khz : BitVec 19)
  /-- ULANE_STAT_READ (R313). A read of ULANE_STAT returns CODE_ERR and clears it. -/
  | ulaneStatRead (t : Nat) (k : Fin 16)
  /-- PRBS_ERR_READ (R315). A read of PRBS_ERR returns the PRBS error count and clears it. -/
  | prbsErrRead (t : Nat) (k : Fin 16)
  /-- TX_PUSH (R320). TX_CTRL.PUSH queues the built entry into the protocol block's TX FIFO, or raises TX_OVF or
    RANGE. -/
  | txPush (t : Nat) (a : Agent) (p : Fin 512) (v : Word)
  /-- TX_ABORT (R320). TX_CTRL.ABORT removes every queued TX entry not yet started. -/
  | txAbort (t : Nat) (a : Agent) (p : Fin 512) (v : Word)
  /-- TX_DATA_WRITE (R320). A TX_DATA write appends one data word to the entry being built; a TX_H0 write rewinds it. -/
  | txDataWrite (t : Nat) (a : Agent) (p : Fin 512) (v : Word)
  /-- RX_POP (R320). RX_CTRL.POP loads the oldest RX entry into RX_H0–H5 and rewinds RX_DATA. -/
  | rxPop (t : Nat) (a : Agent) (p : Fin 512) (v : Word)
  /-- RX_DATA_READ (R320). An RX_DATA read returns the next data word, or 0 past LENGTH. -/
  | rxDataRead (t : Nat) (p : Fin 512)
  /-- PROTOCOL_PORT_REQUEST (R320). A protocol port request pushes or pops one header or data word of a FABRIC-path
    block. -/
  | protocolPortRequest (t : Nat) (r : Fin 96) (p : Fin 512) (push : Bool) (w : Word)
  /-- PSTAT_READ (R324). A PSTAT read returns the FIFO levels and clears RX_LOST. -/
  | pstatRead (t : Nat) (p : Fin 512)
  /-- FRAME_RECEIVED (R322). A protocol block receiving a frame stamps it and stores it as an RX entry, raising
    RX_AVAIL, RX_ERROR or RX_OVF. -/
  | frameReceived (t : Nat) (p : Fin 512) (fr : Frame)
  /-- FRAME_SENT (R319). A TX frame ending returns a stamped TXDONE entry when CONF is set and raises TX_DONE. -/
  | frameSent (t : Nat) (p : Fin 512) (status : Fin 8) (start : Nat)
  /-- AT_CROSSING (R321). The first forward crossing of an AT entry's position starts it at the first instant its
    protocol allows. -/
  | atCrossing (t : Nat) (p : Fin 512)
  /-- BUS_OFF_RECOVERED (R324). A bus-off CAN block with AUTO_RECOVER leaves bus-off after 128 × 11 recessive bits. -/
  | busOffRecovered (t : Nat) (p : Fin 512)
  /-- NO_RESPONSE (R319). A LIN commander without responder data within the frame time records NO_RESPONSE. -/
  | noResponse (t : Nat) (p : Fin 512) (id : BitVec 6) (start : Nat)
  /-- WAKE (R324). LIN_CMD.WAKE sends a 1 ms dominant wake-up pulse. -/
  | wake (t : Nat) (a : Agent) (p : Fin 512) (v : Word)
  /-- MDIO_GO (R324). ETH_MDIO.GO starts an MDIO address, write or read operation. -/
  | mdioGo (t : Nat) (a : Agent) (p : Fin 512) (v : Word)
  /-- MDIO_DONE (R324). An MDIO operation ends, returning read data and raising MDIO_DONE. -/
  | mdioDone (t : Nat) (p : Fin 512) (data : BitVec 16)
  /-- SMBUS_IDENTITY (R325). SMBus command 0x00 returns serial, stepping, grade, range and life-cycle state. -/
  | smbusIdentity (t : Nat)
  /-- SMBUS_TEMPERATURE (R325). SMBus command 0x01 returns the store-die temperature. -/
  | smbusTemperature (t : Nat)
  /-- SMBUS_STATUS (R325). SMBus command 0x02 returns rail, READY, FAULT_N, reset and shutdown status. -/
  | smbusStatus (t : Nat)
  /-- SMBUS_FAULT_CODE (R325). SMBus command 0x03 returns the steward fault code. -/
  | smbusFaultCode (t : Nat)
  /-- SMBUS_ARP (R325). An SMBus Address Resolution Protocol transaction assigns the target's address. -/
  | smbusArp (t : Nat) (op : SmbArp)
  /-- CNT_SEL_WRITE (R331). A CNT_SEL write selects a counter, or is refused with RANGE for an unassigned number. -/
  | cntSelWrite (t : Nat) (a : Agent) (v : Word)
  /-- CNT_LO_READ (R329). A read of CNT_LO samples the counter and latches its high word into the reader's shadow. -/
  | cntLoRead (t : Nat) (a : Agent)
  /-- CNT_HI_READ (R331). A read of CNT_HI returns the shadow and advances CNT_SEL under AUTOINC. -/
  | cntHiRead (t : Nat) (a : Agent)
  /-- CNT_HI_WRITE (R328). A W1C write of CNT_HI.OVF clears the selected counter's OVF. -/
  | cntHiWrite (t : Nat) (a : Agent) (v : Word)
  /-- CNT_WRITE (R332). CNT_CTRL.WRITE replaces the selected counter's count in one counter cycle, winning over its
    increments. -/
  | cntWrite (t : Nat) (a : Agent) (v : Word)
  /-- DUMP_ENABLE (R337). Writing DCFG.EN runs a dump channel's check and enables it with its ring pointers cleared. -/
  | dumpEnable (t : Nat) (a : Agent) (c : Fin 4) (v : Word)
  /-- DTRIG_CAPTURE (R333). DTRIG.CAPTURE triggers a HOST dump capture in the next counter cycle. -/
  | dtrigCapture (t : Nat) (a : Agent) (c : Fin 4) (v : Word)
  /-- DUMP_PERIOD (R333). Every DPERIOD µs a PERIOD channel captures its range, or skips the trigger. -/
  | dumpPeriod (t : Nat) (c : Fin 4)
  /-- DUMP_DONE (R336). A dump record written whole advances DWR and raises DUMP_DONE, or is abandoned with DUMP_ERR. -/
  | dumpDone (t : Nat) (c : Fin 4)
  /-- DRD_WRITE (R336). A DRD write frees dump ring space, or is refused with RANGE. -/
  | drdWrite (t : Nat) (a : Agent) (c : Fin 4) (v : Word)
  /-- SAMPLE_ENABLE (R338). Writing SCFG.EN = 1 to a disabled preset loads R with P, or is refused. -/
  | sampleEnable (t : Nat) (a : Agent) (k : Fin 16) (v : Word)
  /-- SAMPLE_HIT (R338). A preset whose remaining count reaches 0 fires, reloads, sets SAMPLE_LAST, raises SAMPLE_HIT
    and sends a sequencer's sampling interrupt. -/
  | sampleHit (t : Nat) (k : Fin 16)
  /-- BIST_RUN (R354). BIST_CMD RUN claims a unit's resources and starts or queues its test. -/
  | bistRun (t : Nat) (a : Agent) (v : Word)
  /-- BIST_ABORT (R354). BIST_CMD ABORT ends a unit's test at the next pattern with ABORTED, or withdraws its queued
    claim. -/
  | bistAbort (t : Nat) (a : Agent) (v : Word)
  /-- TEST_START (R343). At the grant of its claim a unit is isolated, its pins park and its test clock and PRPG
    start. -/
  | testStart (t : Nat) (u : Fin 308)
  /-- TEST_END (R342). A test ends with PASS, FAIL or ABORTED, clears the unit and writes its record at shutdown,
    starting the next scheduled tests. -/
  | testEnd (t : Nat) (u : Fin 308) (pats : Nat) (caps : List (BitVec 64)) (mem : Bool)
  /-- ISOLATION_END (R343). Within 10 µs of the result, isolation ends, STATE reads OFF or SAFE and the claim is
    released. -/
  | isolationEnd (t : Nat) (u : Fin 308)
  /-- SELFTEST_HOLD_TIMEOUT (R348). A unit still held by another claim 100 ms into the shutdown self-test is left
    untested without a record. -/
  | selftestHoldTimeout (t : Nat)
  /-- BIST_CFG_WRITE (R363). A BIST_CFG write is committed to metadata within 1 ms and acts at the next start. -/
  | bistCfgWrite (t : Nat) (a : Agent) (v : Word)
  /-- CLAIM_SUBMIT (R355). CLAIM_CTRL.GO submits a host claim, which is granted, queued or refused in one step. -/
  | claimSubmit (t : Nat) (a : Agent) (v : Word)
  /-- RELEASE (R359). A RELEASE write releases a granted host claim or withdraws a queued one, and grants queued
    claims that now fit. -/
  | release (t : Nat) (a : Agent) (v : Word)
  /-- BUDGET_WRITE (R360). A BUDGET write sets the maintenance power budget, raising OVER_BUDGET or granting queued
    claims. -/
  | budgetWrite (t : Nat) (a : Agent) (v : Word)
  /-- ADVANCE (R369). LC_CMD ADVANCE checks a token and programs the intent and commit bits of every step up to
    TARGET, then resets the device. -/
  | advance (t : Nat) (a : Agent) (v : Word)
  /-- UNLOCK (R373). LC_CMD UNLOCK checks a token where needed, consumes a token step and resets with the unlock
    latched. -/
  | unlock (t : Nat) (a : Agent) (v : Word)
  /-- OTP_BIT_DONE (R366). An OTP logical bit finishes its pulse-verify steps, and the command moves to the next bit
    or ends in the life-cycle reset. -/
  | otpBitDone (t : Nat) (verified : Bool)
  /-- PROFILE_WRITE (R376). A PROFILE write narrows access at once, or is refused with LIFECYCLE or RANGE. -/
  | profileWrite (t : Nat) (a : Agent) (v : Word)
  /-- WRITE_DIGEST (R381). SEC_CMD WRITE_DIGEST writes a staged digest to TD3–TD5 or UD_k with the commit bit last. -/
  | writeDigest (t : Nat) (a : Agent) (v : Word)
  /-- INSTALL_KEY (R381). SEC_CMD INSTALL_KEY writes a staged KEY_ID and public key into an empty key slot. -/
  | installKey (t : Nat) (a : Agent) (v : Word)
  /-- REVOKE_KEY (R380). SEC_CMD REVOKE_KEY programs a key slot's revocation bit. -/
  | revokeKey (t : Nat) (a : Agent) (v : Word)
  /-- SET_SEAL_DEFAULT (R376). SEC_CMD SET_SEAL_DEFAULT programs SEAL_DEFAULT so DEPLOYED and RETURNED reset to
    SEALED. -/
  | setSealDefault (t : Nat) (a : Agent) (v : Word)
  /-- JTAG_UPDATE_IR (R377). An instruction update selects a TAP instruction, taking boundary-scan control of the pins
    under EXTEST, CLAMP or HIGHZ. -/
  | jtagUpdateIr (t : Nat) (ir : BitVec 8)
  /-- LC_ACCESS (R377). Update-DR of LC_ACCESS performs a privileged access to the LIFECYCLE or SECURITY page. -/
  | lcAccess (t : Nat) (dr : Nat)
  /-- TEST_LOGIC_RESET (R377). The TAP entering Test-Logic-Reset selects IDCODE. -/
  | testLogicReset (t : Nat)
  /-- POWER_ON (R390). VAUX becoming valid starts the steward, which finishes any torn life-cycle step and waits for
    the other rails. -/
  | powerOn (t : Nat) (otp : Bool)
  /-- VAUX_LOST (R389). The loss of VAUX resets everything, the steward included. -/
  | vauxLost (t : Nat)
  /-- RAIL_LOST (R389). A required rail other than VAUX becoming invalid resets the device with cause RAIL_LOST. -/
  | railLost (t : Nat) (rail : Fin 5)
  /-- RESET_N_FALL (R392). RESET_N held low for 1 µs resets the device and holds it in reset. -/
  | resetNFall (t : Nat)
  /-- DEV_RESET (R390). A write of the DEV_RESET key resets the device with the start 10 µs later. -/
  | devReset (t : Nat) (a : Agent) (v : Word)
  /-- START (R394). At T0 the steward samples the straps and runs the start: clocks, power-up tests, factory row,
    wipe, metadata, retests, PLLs and loads. -/
  | start (t : Nat) (straps : BitVec 4) (refclk : Bool) (o : StartRun)
  /-- REFCLK_RETURN (R17). REFCLK returning lets the internal clocks lock and a waiting start continue. -/
  | refclkReturn (t : Nat) (o : StartRun)
  /-- START_COMPLETE (R396). The start ends: READY and LOAD_DONE set, START_TIME written, the ALL claim released and
    READY rises. -/
  | startComplete (t : Nat)
  /-- SHUTDOWN (R399). SHUTDOWN.GO lowers READY, disarms swap requests, stops sequencers and begins the drain. -/
  | shutdown (t : Nat) (a : Agent) (v : Word)
  /-- DRAIN_DONE (R399). The queues drain or reach 100 ms, every unit is disabled and the shutdown self-test begins. -/
  | drainDone (t : Nat)
  /-- THERMAL_READING (R401). Every 100 µs the sensors are read, setting or clearing the warning and tripping after 10
    readings at 125 °C. -/
  | thermalReading (t : Nat) (fab : List (BitVec 16)) (store : BitVec 16)
  /-- ILLEGAL (R136). Executing an instruction whose opcode Table 5.2 does not list, or a fetch from a reserved code
    address, faults the sequencer with ILLEGAL or FETCH. -/
  | illegal (t : Nat) (q : Fin 48)
  /-- CLAIM_QUEUE_TIMEOUT (R235). A METADATA or COMMIT claim that stays queued for more than 10 ms ends its descriptor
    or command with CONFLICT and writes nothing. -/
  | claimQueueTimeout (t : Nat)
  /-- DMA_READ_COMPLETION (R309). The completion of a device bus-master read from host memory delivers the PROGRAM
    buffer or the image header, or fails it with UR, CA or poisoned data and records DMA_ERR. -/
  | dmaReadCompletion (t : Nat) (steward : Bool) (e : DmaEnd)
  /-- DMA_READ_TIMEOUT (R309). A device read of host memory without a completion within 10 ms fails with TIMEOUT,
    ending a PROGRAM with BAD_DESCRIPTOR or a COMMIT with BUS. -/
  | dmaReadTimeout (t : Nat) (steward : Bool)
  /-- PCIE_LINK_UP (R307). The PCI Express link finishing training or changing speed sets LINK_STAT and raises LINK_UP
    or SPEED_CHANGE on the PCIE page. -/
  | pcieLinkUp (t : Nat) (speed : Fin 6) (width : BitVec 5)
  /-- LINK_DOWN_RESET (R308). A PCI Express link-down resets the endpoint, the HOST queue and pending BAR4 accesses,
    and raises LINK_DOWN on the PCIE page. -/
  | linkDownReset (t : Nat)
  /-- PMU_CLAMP_RELEASE (R90). The PMU leaving its clamp clears PMU_STAT.CLAMPED. -/
  | pmuClampRelease (t : Nat) (g : Fin 48)
  /-- BOUNDARY_REGISTER_UPDATE (R122). Update-DR of the boundary register under EXTEST or CLAMP sets the output enable
    and level of every pin channel whose VCCIO is valid. -/
  | boundaryRegisterUpdate (t : Nat) (bits : List (Bool × Bool))
  /-- WAKEUP (R324). A LIN block detecting a wake-up pulse on its bus raises WAKEUP. -/
  | wakeup (t : Nat) (p : Fin 512)
  /-- LINK_CHANGE (R324). An Ethernet block's link status changing raises LINK_CHANGE. -/
  | linkChange (t : Nat) (p : Fin 512)
  /-- SPC_TIMEOUT (R324). A SENT receiver that sent a short PWM code request and receives no answer in time raises
    SPC_TIMEOUT. -/
  | spcTimeout (t : Nat) (p : Fin 512)
deriving DecidableEq, Repr

end Sys2Proof
end

