-- ==== Sys2Proof/Decode.lean ====
section
/-! DEFINITION. Decode.lean: the command that a word of the command table spells. The table lists commands from
outside and gives no row any bits, so no word spells one. The 64-bit instruction words of the sequencers (Table 5.3)
are read where the sequencer executes them, in Machine/Roll.lean. -/
namespace Sys2Proof

/-- The command that the word `w` of `nbits` bits spells by the table's bits: none, since no row gives bits. -/
def decodeTableWord (_nbits _w : Nat) : Option Instr := none

end Sys2Proof
end

