-- ==== Sys2Proof/Machine/Operands.lean ====
section
/-! DEFINITION. Machine/Operands.lean: bit fields of words, signed readings, device addresses, reason codes,
units of time and the CRC-32C of the flit and frame formats. -/
namespace Sys2Proof.Machine

/-! ### Bit fields (Table 0.4) -/

/-- Bits `hi` down to `lo` of a number. -/
def bits (x hi lo : Nat) : Nat := (x / 2 ^ lo) % 2 ^ (hi + 1 - lo)

/-- `x` with bits `hi` down to `lo` replaced by the low bits of `v`. -/
def putBits (x hi lo v : Nat) : Nat :=
  x - bits x hi lo * 2 ^ lo + (v % 2 ^ (hi + 1 - lo)) * 2 ^ lo

/-- Field [hi:lo] of a register word. -/
def fld (w : Word) (hi lo : Nat) : Nat := bits w.toNat hi lo

/-- Bit `n` of a register word. -/
def bit (w : Word) (n : Nat) : Bool := w.getLsbD n

/-- A register word with field [hi:lo] replaced. -/
def setFld (w : Word) (hi lo v : Nat) : Word := BitVec.ofNat 32 (putBits w.toNat hi lo v)

/-- A register word with bit `n` set to `b`. -/
def setBit (w : Word) (n : Nat) (b : Bool) : Word := setFld w n n (if b then 1 else 0)

/-- A word from a number, modulo 2^32. -/
def word (n : Nat) : Word := BitVec.ofNat 32 n

/-- Bit set of a Nat. -/
def nbit (x n : Nat) : Bool := (x / 2 ^ n) % 2 = 1

/-- The low `w` bits of `x` read as a signed number. -/
def signed (w x : Nat) : Int :=
  let y := x % 2 ^ w
  if y < 2 ^ (w - 1) then (y : Int) else (y : Int) - (2 : Int) ^ w

/-- A signed number as its low `w` bits. -/
def unsigned (w : Nat) (x : Int) : Nat := (x % ((2 : Int) ^ w)).toNat

/-- 1 for true, 0 for false. -/
def b2n (b : Bool) : Nat := if b then 1 else 0

/-- The least multiple of `m` strictly above `t` (R447: "the next boundary after" an instant). -/
def nextAfter (m t : Nat) : Nat := (t / m + 1) * m

/-- The least multiple of `m` at or above `t` (R447: "at or after"). -/
def atOrAfter (m t : Nat) : Nat := (t + (m - 1)) / m * m

/-- The indices below `n` whose bit is set in `x`, ascending. -/
def bitList (n x : Nat) : List Nat := (List.range n).filter (nbit x)

/-- Number of set bits below `n`. -/
def popCount (n x : Nat) : Nat := (bitList n x).length

/-! ### Time, in units of 1/1024 ns -/

/-- One nanosecond. -/
def ns (n : Nat) : Nat := n * 1024
/-- One microsecond. -/
def us (n : Nat) : Nat := n * 1024000
/-- One millisecond. -/
def ms (n : Nat) : Nat := n * 1024000000
/-- One second, 1.024 × 10^12 units. -/
def second : Nat := 1024000000000
/-- 19.53125 ps: the interpolator step (Table 1.3), the unit of device and lattice time. -/
def timeStep : Nat := 20
/-- 312.5 ps: the least spacing of two transitions of a pad (R61). -/
def edgeSlot : Nat := 320
/-- A pin cycle, 1.25 ns (Table 0.3). -/
def pinCycle : Nat := 1280
/-- A sequencer cycle and a counter cycle, 2.5 ns (Table 1.3). -/
def seqCycle : Nat := 2560
/-- A page-clock cycle, 5 ns (Table 1.3). -/
def pageCycle : Nat := 5120

/-! ### Reason codes (Table 16.7) -/

/-- The reason codes of Table 16.7 (R440). -/
inductive Reason where
  | none | range | inconsistent | conflict | budget | owner | locked | lifecycle | selftest | untested
  | bistFail | dependency | clock | image | version | notPresent
deriving DecidableEq, Repr

/-- The code a REFUSE, REASON or CLAIM_RESULT field shows. -/
def Reason.code : Reason → Nat
  | .none => 0x00 | .range => 0x01 | .inconsistent => 0x02 | .conflict => 0x03 | .budget => 0x04
  | .owner => 0x05 | .locked => 0x06 | .lifecycle => 0x07 | .selftest => 0x08 | .untested => 0x09
  | .bistFail => 0x0A | .dependency => 0x0B | .clock => 0x0C | .image => 0x0D | .version => 0x0E
  | .notPresent => 0x0F

/-! ### Agents -/

/-- Privileged access (Table 0.3): by the host, locally or over the lattice (R277), by the steward, or by
LC_ACCESS of the TAP (R377). -/
def privileged : Agent → Bool
  | .host => true | .lattice => true | .steward => true | .jtag => true
  | .region _ => false | .seq _ => false

/-! ### CRC-32C (R267, R245) -/

/-- One bit of the reflected Castagnoli polynomial division. -/
def crcBit (c : Nat) : Nat := if c % 2 = 1 then Nat.xor (c / 2) 0x82F63B78 else c / 2

/-- `n` bits of the division. -/
def crcBits : Nat → Nat → Nat
  | 0, c => c
  | n + 1, c => crcBits n (crcBit c)

/-- One byte into the running remainder. -/
def crcByte (c : Nat) (b : Byte) : Nat := crcBits 8 (Nat.xor c b.toNat)

/-- CRC-32C of a byte string. -/
def crc32c (bs : List Byte) : Word := word (Nat.xor (bs.foldl crcByte 0xFFFFFFFF) 0xFFFFFFFF)

/-- The bytes of a word, little-endian. -/
def wordBytes (w : Word) : List Byte :=
  [w.extractLsb' 0 8, w.extractLsb' 8 8, w.extractLsb' 16 8, w.extractLsb' 24 8]

/-- The word at the head of a byte string, little-endian; absent bytes read 0. -/
def bytesWord (bs : List Byte) : Word :=
  word ((bs.getD 0 0).toNat + 256 * (bs.getD 1 0).toNat + 65536 * (bs.getD 2 0).toNat
    + 16777216 * (bs.getD 3 0).toNat)

/-- Bytes of a number, little-endian. -/
def natBytes : Nat → Nat → List Byte
  | 0, _ => []
  | n + 1, x => BitVec.ofNat 8 x :: natBytes n (x / 256)

/-- The number a byte string spells, little-endian. -/
def bytesNat : List Byte → Nat
  | [] => 0
  | b :: bs => b.toNat + 256 * bytesNat bs

end Sys2Proof.Machine
end

