-- ==== Sys2Proof/Machine/RegisterMap.lean ====
section
/-! DEFINITION. Machine/RegisterMap.lean: the page directory (Table 16.1) and, per block, the registers whose writes
only store (Tables 2.7, 3.9, 4.11, 5.10, 6.9, 7.16, 8.8, 9.12, 9.14, 9.17, 10.3, 10.6, 10.14, 10.15, 11.6, 12.8, 12.10,
13.9, 13.11, 14.8, 14.10), with their writable bits and the reset values that are not 0. -/
namespace Sys2Proof.Machine

/-- The blocks of Table 16.1. -/
inductive Block where
  | ident | steward | ledger | lifecycle | security | power | bist | counterDump | store | flashRecovery | image
  | record | domain | carillon | port | router | pcie | ulane | can | lin | sent | eth | region | pingroup | seq
  | analog
deriving DecidableEq, Repr

/-- The directory row of a page: its block and the block's first page (R428). -/
def blockRow (p : Nat) : Option (Block × Nat) :=
  if p = 0x000 then some (.ident, 0x000) else if p = 0x001 then some (.steward, 0x001)
  else if p = 0x002 then some (.ledger, 0x002) else if p = 0x003 then some (.lifecycle, 0x003)
  else if p = 0x004 then some (.security, 0x004) else if p = 0x005 then some (.power, 0x005)
  else if p = 0x006 then some (.bist, 0x006) else if p = 0x007 then some (.counterDump, 0x007)
  else if p = 0x008 then some (.store, 0x008) else if p = 0x009 then some (.flashRecovery, 0x009)
  else if p = 0x00A then some (.image, 0x00A)
  else if p < 0x010 then none else if p < 0x018 then some (.record, 0x010)
  else if p < 0x020 then none else if p < 0x030 then some (.domain, 0x020)
  else if p = 0x030 then some (.carillon, 0x030) else if p < 0x039 then some (.port, 0x031)
  else if p = 0x039 then some (.router, 0x039) else if p = 0x03A then some (.pcie, 0x03A)
  else if p < 0x040 then none else if p < 0x050 then some (.ulane, 0x040)
  else if p < 0x070 then some (.can, 0x050) else if p < 0x090 then some (.lin, 0x070)
  else if p < 0x0A8 then some (.sent, 0x090) else if p < 0x0B0 then some (.eth, 0x0A8)
  else if p < 0x100 then none else if p < 0x160 then some (.region, 0x100)
  else if p < 0x190 then some (.pingroup, 0x160) else if p < 0x1C0 then some (.seq, 0x190)
  else if p < 0x1F0 then some (.analog, 0x1C0) else none

/-- The block of a page; none for a reserved page number. -/
def blockOf (p : Nat) : Option Block := (blockRow p).map (·.1)

/-! ### Page numbers -/
def pStw : Nat := 0x001
def pLedger : Nat := 0x002
def pLife : Nat := 0x003
def pSec : Nat := 0x004
def pPower : Nat := 0x005
def pBist : Nat := 0x006
def pCnt : Nat := 0x007
def pStore : Nat := 0x008
def pRec : Nat := 0x009
def pImg : Nat := 0x00A
def pRecord (r : Nat) : Nat := 0x010 + r
def pDom (d : Nat) : Nat := 0x020 + d
def pCar : Nat := 0x030
def pPort (n : Nat) : Nat := 0x031 + n
def pRtr : Nat := 0x039
def pPcie : Nat := 0x03A
def pUlane (k : Nat) : Nat := 0x040 + k
def pEth (i : Nat) : Nat := 0x0A8 + i
def pReg (r : Nat) : Nat := 0x100 + r
def pGrp (g : Nat) : Nat := 0x160 + g
def pSeq (q : Nat) : Nat := 0x190 + q
def pAna (g : Nat) : Nat := 0x1C0 + g

/-- The BAR0 byte offset of a register. -/
def reg (p off : Nat) : Nat := p * 4096 + off

/-! ### Header offsets (Table 16.2) -/
def oCtrl : Nat := 0x008
def oStatus : Nat := 0x00C
def oEvent : Nat := 0x010
def oMask : Nat := 0x014
def oOwner : Nat := 0x018
def oLock : Nat := 0x01C

/-- When a register of the map takes writes. -/
inductive Gate where
  /-- In every state. -/
  | rw
  /-- While STATE is OFF, REFUSED, SAFE or UNTESTED ("EN = 0", R438). -/
  | en0
deriving DecidableEq, Repr

/-- `n` registers from `lo`, `stride` bytes apart: their writable bits, further bits writable only while EN = 0,
write-one-to-clear bits, gate and reset value. -/
structure RegRow where
  lo : Nat
  n : Nat := 1
  stride : Nat := 4
  rw : Nat := 0
  more : Nat := 0
  w1c : Nat := 0
  gate : Gate := .rw
  reset : Nat := 0
deriving DecidableEq, Repr

/-- Whether the row holds the register at `off`. -/
def RegRow.holds (r : RegRow) (off : Nat) : Bool :=
  r.lo ≤ off && off < r.lo + r.n * r.stride && (off - r.lo) % r.stride = 0

/-- Every bit. -/
def allBits : Nat := 0xFFFFFFFF

/-- A register all of whose `m` bits are RW. -/
def rwRow (lo m : Nat) (reset : Nat := 0) : RegRow := { lo := lo, rw := m, reset := reset }

/-- A register whose `m` bits take writes while EN = 0. -/
def en0Row (lo m : Nat) (reset : Nat := 0) : RegRow := { lo := lo, rw := m, gate := .en0, reset := reset }

/-- DOMAIN (Table 2.7). -/
def domainRows : List RegRow :=
  [ en0Row 0x040 0x007FFFFF, en0Row 0x044 1, en0Row 0x048 0xFFFFF000, en0Row 0x04C 0xFFFFF
  , en0Row 0x068 allBits 100000, rwRow 0x070 allBits, rwRow 0x074 0xFFFFF, rwRow 0x078 allBits
  , en0Row 0x080 0x00FF0F1F 0x0202, en0Row 0x084 0xFFFFFF 4096, en0Row 0x088 allBits, en0Row 0x08C 0xFFFFF
  , en0Row 0x0C0 0xFFFFFF 3600, rwRow 0x0C4 allBits, en0Row 0x0C8 0xFF03 0x0A01, en0Row 0x0E0 0xFFFF 200
  , { lo := 0x100, n := 8, stride := 16, rw := allBits }, { lo := 0x104, n := 8, stride := 16, rw := 0xFF }
  , { lo := 0x108, n := 8, stride := 16, rw := allBits }
  , rwRow 0x800 0x3FF 0x132, rwRow 0x804 0xFF 50 ]

/-- PINGROUP (Tables 3.9 and 4.11). -/
def pingroupRows : List RegRow :=
  [ en0Row 0x040 0x7F, rwRow 0x048 0xC0003FFF, en0Row 0x050 0x1FFE0, en0Row 0x054 0xFF, en0Row 0x060 1
  , { lo := 0x068, n := 2, w1c := allBits }, rwRow 0x070 0x3F
  , { lo := 0x100, n := 64, rw := 0 }, { lo := 0x200, n := 64, rw := 0, reset := 0x02000200 }
  , { lo := 0x400, n := 16, stride := 16, rw := allBits }, { lo := 0x408, n := 16, stride := 16, rw := 0x303F07FF }
  , { lo := 0x600, n := 64, rw := 0, reset := 0x00102400 }
  , { lo := 0x700, n := 2, rw := allBits }, { lo := 0x70C, w1c := 0xF }
  , { lo := 0x800, n := 64, rw := 0x3F3F }, { lo := 0x900, n := 64, rw := 0xFFF }
  , { lo := 0xA00, n := 64, rw := 0xFFFF } ]

/-- ANALOG (Table 3.18). -/
def analogRows : List RegRow :=
  [ { lo := 0x088, rw := 0, reset := 0xFFFF0000 }, { lo := 0x800, n := 16, rw := allBits } ]

/-- SEQ (Table 5.10). -/
def seqRows : List RegRow :=
  [ en0Row 0x040 0xF001F8F7 0x80000000, en0Row 0x044 allBits 128, en0Row 0x048 0xFFFFFF 4096
  , rwRow 0x04C allBits, rwRow 0x050 0xFFFFF, rwRow 0x054 0xFFFFF, { lo := 0x070, rw := 0, reset := 0xFFFFFFFF }
  , { lo := 0x07C, w1c := 0xFFFF }, en0Row 0x080 0x1FFC0, en0Row 0x084 0xFF, en0Row 0x090 0xFFFFF007 ]

/-- REGION (Table 6.9). -/
def regionRows : List RegRow :=
  [ en0Row 0x04C 0x1F, rwRow 0x050 0xFF, en0Row 0x054 0xFFFFF, en0Row 0x058 0xF0FFFFFF
  , { lo := 0x080, n := 16, rw := 0x800003FF, gate := .en0 } ]

/-- DEEP_STAT of the REGION pages that host a deep memory (Table 6.11). -/
def deepRow : RegRow := { lo := 0x300, w1c := 7, reset := 0x00FF0000 }

/-- The REGION page hosts the status registers of a deep memory (R194). -/
def hostsDeep (p : Nat) : Bool := 0x100 ≤ p && p < 0x160 && ((p - 0x100) % 12 = 0 || (p - 0x100) % 12 = 11)

/-- STORE (Table 7.16). -/
def storeRows : List RegRow :=
  [ { lo := 0x060, n := 8, rw := allBits }, rwRow 0x0A0 0x7F, rwRow 0x800 0x3F1F 0x180C ]

/-- IMAGE (Table 8.8). -/
def imageRows : List RegRow :=
  [ { lo := 0x050, n := 2, rw := allBits }, { lo := 0x058, n := 3, rw := allBits }, rwRow 0x064 allBits ]

/-- CARILLON (Table 9.12). -/
def carillonRows : List RegRow :=
  [ rwRow 0x040 1, rwRow 0x060 0xFF
  , { lo := 0x400, n := 16, stride := 16, rw := allBits }, { lo := 0x404, n := 16, stride := 16, rw := 0xFFFFF }
  , { lo := 0x408, n := 16, stride := 16, rw := 0x00BF00FF }, { lo := 0x40C, n := 16, stride := 16, rw := allBits } ]

/-- PORT (Table 9.14). -/
def portRows : List RegRow := [ rwRow 0x040 0xFFFF0001 1, { lo := 0x044, rw := 0, reset := 0x01000000 } ]

/-- ROUTER (Table 9.17). -/
def routerRows : List RegRow :=
  [ en0Row 0x040 0xFFFF, en0Row 0x044 0xFFFF, rwRow 0x048 1, rwRow 0x050 0xFFFF, { lo := 0x054, reset := 100 }
  , { lo := 0x058, w1c := 0x80000000 }, rwRow 0x05C 0xFFFF 4, { lo := 0x060, reset := 4 }, rwRow 0x080 0xFFFF
  , { lo := 0x100, n := 16, reset := 0x00020000 }, { lo := 0x800, reset := 0x21 } ]

/-- PCIE (Table 10.3). -/
def pcieRows : List RegRow :=
  [ { lo := 0x044, w1c := 0x80000000 }, { lo := 0x400, n := 124, rw := allBits } ]

/-- ULANE (Table 10.6). -/
def ulaneRows : List RegRow := [ { lo := 0x040, rw := 0x1E0, more := 0xFFFFFE00, reset := 0x00340000 } ]

/-- The registers that the protocol blocks share (Table 10.14). -/
def protocolRows : List RegRow :=
  [ { lo := 0x040, rw := 0x00080000, more := 0xFFF00000 }, en0Row 0x044 0x80000FFF, en0Row 0x048 0x80000FFF
  , { lo := 0x064, n := 5, rw := allBits } ]

/-- CAN (Table 10.15). -/
def canRows : List RegRow :=
  protocolRows ++
  [ en0Row 0x100 0xF 3, en0Row 0x104 0xFFFFFFE0, en0Row 0x108 0xFFFFFFC0
  , { lo := 0x200, n := 32, stride := 8, rw := 0xDFFFFFFF }, { lo := 0x204, n := 32, stride := 8, rw := 0x1FFFFFFF } ]

/-- LIN (Table 10.15). -/
def linRows : List RegRow :=
  protocolRows ++
  [ en0Row 0x100 3 2, en0Row 0x104 0x7FFF 19200, { lo := 0x200, n := 64, rw := 0xE000000F }
  , { lo := 0x300, n := 128, rw := allBits } ]

/-- SENT (Table 10.15). -/
def sentRows : List RegRow := protocolRows ++ [ en0Row 0x100 0x37F 0x60, en0Row 0x104 0x1FFFF 3000 ]

/-- ETH (Table 10.15). -/
def ethRows : List RegRow :=
  protocolRows ++
  [ { lo := 0x100, rw := 0x18, more := 0x27, reset := 0x2A }, rwRow 0x104 allBits, rwRow 0x108 0xFFFF
  , { lo := 0x10C, n := 2, rw := allBits }, { lo := 0x114, rw := 0 } ]

/-- COUNTER_DUMP (Table 11.6). -/
def counterRows : List RegRow := [ rwRow 0x04C allBits, rwRow 0x050 0xFFFF ]

/-- BIST (Table 12.8). -/
def bistRows : List RegRow := [ rwRow 0x060 0x1FF ]

/-- LEDGER (Table 12.10). -/
def ledgerRows : List RegRow :=
  [ { lo := 0x040, rw := 0, reset := 60000 }, { lo := 0x050, n := 16, rw := allBits }, rwRow 0x0A0 0x3F ]

/-- SECURITY (Table 13.11). -/
def securityRows : List RegRow :=
  [ { lo := 0x080, n := 8, rw := allBits }, rwRow 0x0A0 allBits, { lo := 0x100, n := 24, rw := allBits } ]

/-- IDENT (Table 13.13). -/
def identRows : List RegRow := [ { lo := 0x058, reset := 0x00960000 }, { lo := 0x05C, reset := 0xBC0960B5 } ]

/-- STEWARD (Table 14.8). -/
def stewardRows : List RegRow := [ { lo := 0x040, reset := 0x30000000 } ]

/-- POWER (Table 14.10). -/
def powerRows : List RegRow := [ rwRow 0x058 0xF, { lo := 0x060, reset := 0x000505F0 } ]

/-- The rows of a block. -/
def blockRows : Block → List RegRow
  | .ident => identRows | .steward => stewardRows | .ledger => ledgerRows | .lifecycle => []
  | .security => securityRows | .power => powerRows | .bist => bistRows | .counterDump => counterRows
  | .store => storeRows | .flashRecovery => [] | .image => imageRows | .record => []
  | .domain => domainRows | .carillon => carillonRows | .port => portRows | .router => routerRows
  | .pcie => pcieRows | .ulane => ulaneRows | .can => canRows | .lin => linRows | .sent => sentRows
  | .eth => ethRows | .region => regionRows | .pingroup => pingroupRows | .seq => seqRows | .analog => analogRows

/-- The row of a register of block `b`. -/
def regRow (b : Block) (off : Nat) : Option RegRow := (blockRows b).find? (·.holds off)

/-- The row of the register at `off` on page `p`. -/
def pageRow (p off : Nat) : Option RegRow :=
  match blockOf p with
  | none => none
  | some b =>
    if hostsDeep p && off = 0x300 then some deepRow
    else if b = .domain && off = 0x804 && 0x024 ≤ p then none else regRow b off

/-- A register whose fields hold what was written last: of the writes of one page-clock cycle, the last one taken prevails (R177,
R439). -/
def plainReg (p off : Nat) : Bool :=
  off = oCtrl || off = oMask || off = oOwner || (0x040 ≤ off &&
    ((pageRow p off).any (·.w1c = 0) || match blockOf p with
      | some .domain => 0x400 ≤ off && off < 0x800
      | some .analog => off = 0x040 || off = 0x044 || (0x070 ≤ off && off < 0x08C)
      | some .pingroup => off = 0x05C || (0x300 ≤ off && off < 0x500) || (0x710 ≤ off && off < 0x720)
      | _ => false))

/-- What a register reads right after a reset (R10), by BAR0 byte offset: EVENT_MASK reads 0xFFFF (Table 16.3), the
others what their tables say, 0 where no row names another value. -/
def regReset (k : Nat) : Word :=
  if k % 4096 = oMask && (blockOf (k / 4096)).isSome then 0xFFFF
  else match pageRow (k / 4096) (k % 4096) with
    | some r => word r.reset
    | none => 0

/-- The EVENT bits that a block's chapter defines (R326). -/
def defEvents : Block → Nat
  | .ident => 0 | .steward => 0x7 | .ledger => 0x1F | .lifecycle => 0x1F | .security => 0xF | .power => 0x7
  | .bist => 0x3F
  | .counterDump => 0x3F | .store => 0x3FF | .flashRecovery => 0x7 | .image => 0xFF | .record => 0xF
  | .domain => 0xFFFF | .carillon => 0x3FF | .port => 0x3F | .router => 0xFF | .pcie => 0xFF | .ulane => 0xF
  | .can => 0x77F | .lin => 0x77F | .sent => 0x37F | .eth => 0xF7F | .region => 0xFF | .pingroup => 0x3FFF
  | .seq => 0xFFF | .analog => 0x3F

end Sys2Proof.Machine
end

