-- ==== Sys2Proof/Config.lean ====
section
/-! DEFINITION. Config.lean: what the spec leaves open or names without giving, as constants with no body. Nothing
can be proved of their values, so a statement holds whatever they are. `Config.freeWord`, `Config.freeInt` and
`Config.freeBool` are applied to the counter `State.free`, which every use advances, so each use is a fresh value.
The others are functions of what they depend on (the part's own contents). -/
namespace Sys2Proof

/-- Bits that the spec leaves undefined. -/
opaque Config.freeWord : Nat → BitVec 128

/-- A number that the spec does not state. -/
opaque Config.freeInt : Nat → Int

/-- An outcome that the spec does not fix. -/
opaque Config.freeBool : Nat → Bool

/-- CMPH and CMPL of a pin at an instant of the 500 ns after a THRESH write (R75). -/
opaque Config.undefCmp : Nat → Nat → Bool × Bool

/-- The vendor root public key in the steward ROM (R380): x and y, each big-endian. -/
opaque Config.rootKey : List (BitVec 8)

/-- The factory row's words as the factory wrote them (R238). -/
opaque Config.factoryWord : Nat → BitVec 64

/-- The check bits of a flash word's data (R204: a single-error-correcting, double-error-detecting code that is not given). -/
opaque Config.checkBits : BitVec 64 → BitVec 8

/-- The words of the PCI Express configuration space that the spec does not give (R303: revision 5.0 of the base
specification). -/
opaque Config.configSpace : Nat → BitVec 32

/-- The SMBus UDID of the part with a serial number (R325: how it is built is not given). -/
opaque Config.udid : BitVec 64 → BitVec 128

/-- The expected self-test signature of a unit class, which the steward ROM holds (R341). -/
opaque Config.expectedSig : Nat → BitVec 64

/-- The token digests TD1 and TD2 that the factory programs (R369). -/
opaque Config.factoryDigest : Nat → BitVec 256

/-- The content that a region's frame gives a memory block in mode INIT (R193; the configuration data of a frame have no
stated layout, R245): by IMAGE_ID, VERSION, region, block and word, 32 data bits and 4 ninth bits. -/
opaque Config.blockInit : BitVec 32 → BitVec 32 → Nat → Nat → Nat → BitVec 36

/-- Whether a frame joins memory blocks 2j and 2j + 1 into a PAIR (R190), by IMAGE_ID, VERSION, region and j. -/
opaque Config.framePair : BitVec 32 → BitVec 32 → Nat → Nat → Bool

/-- What drives an input of the fabric's logic: a level that the ports present, a flip-flop, an output of a LUT6, or an output
bit of an arithmetic slice. -/
inductive NetSrc where
  | port (k : Nat)
  | ff (n : Nat)
  | lut (n : Nat) (second : Bool)
  | slice (n bit : Nat)
deriving DecidableEq, Repr, Inhabited

/-- The design that a region's frame holds (the configuration data of a frame have no stated layout, R245), by IMAGE_ID,
VERSION and region: the table of LUT6 `n` and whether it forms two functions (R171). -/
opaque Config.lutTable : BitVec 32 → BitVec 32 → Nat → Nat → BitVec 64
opaque Config.lutTwo : BitVec 32 → BitVec 32 → Nat → Nat → Bool

/-- What drives input `k` of LUT6 `n`; `j` of flip-flop `n`: 0 data, 1 clock enable, 2 reset; bit `k` of operand A, of operand
B from 27 on, of slice `n`. -/
opaque Config.lutIn : BitVec 32 → BitVec 32 → Nat → Nat → Nat → NetSrc
opaque Config.ffIn : BitVec 32 → BitVec 32 → Nat → Nat → Nat → NetSrc
opaque Config.sliceIn : BitVec 32 → BitVec 32 → Nat → Nat → Nat → NetSrc

/-- A flip-flop of the design: its initial value, its region clock network, and whether its reset is asynchronous (R171). -/
opaque Config.ffInit : BitVec 32 → BitVec 32 → Nat → Nat → Bool
opaque Config.ffClock : BitVec 32 → BitVec 32 → Nat → Nat → Fin 8
opaque Config.ffAsync : BitVec 32 → BitVec 32 → Nat → Nat → Bool

/-- An arithmetic slice of the design (R172): its region clock network; bit 0 operand A signed, 1 operand B signed, 2 accumulator
signed, 3 SATURATE, 4 subtract, 5 the accumulator of the slice before it feeds it. -/
opaque Config.sliceClock : BitVec 32 → BitVec 32 → Nat → Nat → Fin 8
opaque Config.sliceMode : BitVec 32 → BitVec 32 → Nat → Nat → BitVec 6

/-- A level that the hardened ports present to a region's logic, by the model's counter of free values, region and signal
(Table 6.2). -/
opaque Config.portNet : Nat → Nat → Nat → Bool

/-- A region clock network of the design (R173): the global network that it carries, and the base-2 logarithm of its divisor. -/
opaque Config.regionClock : BitVec 32 → BitVec 32 → Nat → Nat → Fin 32 × Fin 4

/-- The period of the receive clock recovered by a user lane, in units of 1/1024 ns (R173). -/
opaque Config.laneClock : Nat → Nat

/-- The publishing domain's number of a global domain whose SEGMENTs come from another device (GDOM_INFO.DOMAIN;
the SEGMENT flit of Table 9.9 does not carry it). -/
opaque Config.remoteDomain : Nat → BitVec 16 → Nat

end Sys2Proof
end

