-- ==== Sys2Proof/Machine/State.lean ====
section
/-! DEFINITION. Machine/State.lean: everything the spec gives the device, as plain data. Registers have one home,
`State.regs`, keyed by BAR0 byte offset; the substructures hold what no register shows (counts waiting to be
published, queues, deadlines). Per-unit records are kept by unit number in rising order; an unlisted unit holds the
record's default, which is its value after reset (R10). Times are instants in units of 1/1024 ns. -/
namespace Sys2Proof.Machine

/-- Why the block stops. No command of the table stops it: every row has an effect, so no fault is raised. -/
inductive Fault where
  /-- Raised by no meaning. The spec names no condition in which the device stops for good. -/
  | none
deriving DecidableEq, Repr

/-- Why a command has no meaning. -/
inductive Refusal where
  /-- The dispatch arm of a command that is not modelled yet. Safe: nothing is claimed of it. -/
  | notModelled (mnemonic : String)
deriving DecidableEq, Repr

/-! ### What leaves the device -/

/-- What the device does that is seen from outside. -/
inductive Output where
  /-- An MSI-X message of vector `v` (R310). -/
  | msix (v : Nat)
  /-- A flit sent on PORT `n` (R267). -/
  | flit (n : Nat) (f : Flit)
  /-- What this end of PORT `n` sends in training (R264, R268). -/
  | train (n : Nat) (id : PeerId)
  /-- A posted bus-master write into host memory (R309). -/
  | hostWrite (addr : Nat) (data : List Byte)
  /-- A bus-master read of host memory (R309). -/
  | hostRead (addr len : Nat)
  /-- A data or response word returned to an agent. -/
  | answer (a : Agent) (ok : Bool) (data : Nat)
  /-- A pulse of EVENT line `l` on sequencer tap `n` of REGION `r`, which appears at instant `due` (R159, R186). -/
  | evline (r n l due : Nat)
  /-- A mark notice pulse `n` to REGION `r` with its LATE bit (R185). -/
  | notice (r n : Nat) (late : Bool)
  /-- The response of port A of deep memory `k` to REGION `r`, which comes at instant `due`: the word accessed, the data of a
  read, and COLLIDE (R194, R197). -/
  | deepA (r k word due data : Nat) (collide : Bool)
  /-- What position tap `n` of REGION `r` presents: whole part, fraction, STOPPED (R184). -/
  | tap (r n whole frac : Nat) (stopped : Bool)
  /-- PERR of a memory block's port (R189). -/
  | perr (r blk : Nat) (portB : Bool)
  /-- A reflex or comparator signal to the fabric is read from the pins; a word delivered to a region's port. -/
  | toRegion (r : Nat) (w : Nat)
  /-- A stream unit delivered to the lane port of REGION `r` on channel `ch` (R278). -/
  | stream (r ch : Nat) (ws : List Word)
  /-- A word sent on user lane `k`. -/
  | lane (k : Nat) (w : BitVec 72)
  /-- A received word that the sub-port of user lane `k` presents to REGION `r` at instant `due` (R314). -/
  | laneWord (r k due : Nat) (w : BitVec 72)
  /-- A frame started on the bus of protocol page `p`. -/
  | frame (p : Nat) (h : List Word) (data : List Byte)
  /-- An MDIO operation started on ETH page `p`, and a wake-up pulse sent on LIN page `p`. -/
  | mdio (p : Nat) (w : Word)
  | wake (p : Nat)
  /-- The ACK slot of a received CAN frame driven, or an error frame sent, by CAN page `p`; a short PWM code request of SENT page
  `p` (R316). -/
  | canAck (p : Nat) (good : Bool)
  | spcRequest (p : Nat)
  /-- What a source forces on analogue bus `b` of group `g`: a voltage in units of 62.5 µV between limits, or a current in
  1/32,000 of range `r` between current codes (R89, R90). -/
  | volts (g b : Nat) (v : Nat)
  | amps (g b r : Nat) (v : Int)
  | limits (g b : Nat) (lo hi : Int)
  /-- An SMBus answer. -/
  | smbus (data : List Byte) (pec : Byte)
  /-- A command code that the SMBus target does not list is not acknowledged (R325). -/
  | smbusNack
  /-- A data-register value shifted out of the TAP. -/
  | tdo (data : Nat)
deriving DecidableEq, Repr

/-- The response of the last port access (Table 6.3), or of the last host access. -/
inductive Resp where
  | ok | selftest | denied | notOwned | range | refused
  /-- Unsupported Request (R307). -/
  | ur
  /-- READY reads 0: the request was not taken (R175). -/
  | retry
deriving DecidableEq, Repr

/-! ### Position domains -/

/-- A trajectory of a domain's total position: from instant `t0`, the total position is
`p0 + (w·τ + 1000·acc·τ²) / den`, in units of 1/(4096 · 5.12 × 10^23) pos. In these units a velocity of
0.001 pos/s is `w` = 2,048 × 10^9 and a ramp of 1 pos/s² is `acc` = 1, so a SHAFT ramp is exact (R36). Beyond
`lim` the segment resolves no event (R44). -/
structure Traj where
  t0  : Nat := 0
  p0  : Int := 0
  w   : Int := 0
  acc : Int := 0
  den : Nat := 1
  lim : Option Nat := none
  /-- The velocity at which a ramp ends: the trajectory goes on at it (R36). -/
  cap : Option Int := none
  /-- A difference that stands at `t0` and the rate, in fine units per unit of time, at which it is removed (R39, R41). -/
  off  : Int := 0
  slew : Int := 0
deriving DecidableEq, Repr

/-- One line of a position input after its glitch filter (R31): the accepted level, how many consecutive samples
have shown the other level, and the crossing stamp of the first of them. -/
structure Line where
  level : Bool := false
  n     : Nat := 0
  stamp : Nat := 0
deriving DecidableEq, Repr

/-- A snapshot slot (R55). Position is whole·4096 + fraction. -/
structure Snap where
  pos : Nat := 0
  cyc : Nat := 0
  vel : Int := 0
  time : Nat := 0
  seq : Nat := 0
  valid : Bool := false
  late : Bool := false
  overrun : Bool := false
  unread : Bool := false
deriving DecidableEq, Repr

/-- A committed firing of a mark: its resolved instant, whether it is LATE (R44, R45), CTRL and ARG as they stood at
the commit, and whether the mark has been armed again since (R54). -/
structure Firing where
  mark : Nat
  due  : Nat
  late : Bool
  ctrl : Word := 0
  arg  : Word := 0
  re   : Bool := false
  /-- For a firing in the span of a jump, the total position it stands at (R50). -/
  span : Option Int := none
deriving DecidableEq, Repr

/-- The mains tracker (R38, R39). -/
structure Tracker where
  locked : Bool := false
  good   : Nat := 0
  last   : Option Nat := none
  period : Nat := 0
  holdEnd : Option Nat := none
  stoppedByHoldover : Bool := false
  /-- A total position that a zero crossing stands at when MAINS_PHASE is 0, from the first lock on. -/
  ref : Int := 0
  /-- Since when the input has been steady: in band, of 0.2 V or more, and drifting by 1 Hz/s at most (Table 2.4). -/
  since : Nat := 0
deriving DecidableEq, Repr

/-- The encoder front end of a domain (R31–R33). -/
structure Enc where
  sampled : Bool := false
  la : Line := {}
  lb : Line := {}
  li : Line := {}
  accum : Int := 0
  idx : Bool := false
  homed : Bool := false
deriving DecidableEq, Repr

/-- The ramp under way (R36): the rate it heads for and whether RATE_REACHED is still owed. -/
structure Ramp where
  target : Int := 0
  ramping : Bool := false
  owed : Bool := false
deriving DecidableEq, Repr

/-- A preset request taken in a pin cycle, with what it replaced, so that a later request of the same cycle can
displace it (R37): trajectory, ramp, STOPPED and the EVENT word before the cycle's first request; and when it was
applied. -/
structure PresetReq where
  cycle : Nat
  rank  : Nat
  traj  : Traj
  ramp  : Ramp
  stopped : Bool := true
  event : Word := 0
  applied : Nat := 0
  /-- When its rate was reached, in the same cycle. -/
  reached : Option Nat := none
deriving DecidableEq, Repr

/-- A Peal that waits at a mark: the total position it names (R291). -/
structure PealWait where
  mark  : Nat
  total : Int
deriving DecidableEq, Repr

/-- A position domain (R25). -/
structure Dom where
  /-- Position (whole·4096 + fraction) and cycle counter while the domain is off (R49). -/
  pos  : Nat := 0
  cyc  : Nat := 0
  traj : Traj := {}
  /-- Segments formed but not yet published, oldest first, with their publication instants (R44). -/
  segs : List (Nat × Traj) := []
  stopped : Bool := true
  /-- Trajectories and STOPPED of before, newest first, each with the instant at which its successor took over (R80, R322). -/
  past : List (Nat × Traj × Bool) := []
  /-- A disable acts at this instant: until then the trajectory goes on (R49). -/
  offAt : Nat := 0
  reverse : Bool := false
  /-- The largest total position reached since enable (R29). -/
  frontier : Int := 0
  /-- Whole cycles whose passage has been raised (R27). -/
  wraps : Int := 0
  /-- The last counts in one direction, newest first: stamp and exact total position (R43). -/
  counts : List (Nat × Int) := []
  /-- Exact total position at the last count, and its stamp. -/
  exact : Int := 0
  lastCount : Nat := 0
  /-- The segment that was in force when STOP_TIMEOUT stopped the domain: the events it resolved still fire (R48). -/
  tail : Option Traj := none
  enc : Enc := {}
  ramp : Ramp := {}
  req : Option PresetReq := none
  tracker : Tracker := {}
  /-- LATTICE source: the last Carillon update, whether updates are current, and root-change holdover (R41). -/
  lastUpd : Nat := 0
  current : Bool := false
  holdover : Bool := false
  /-- The total position up to which crossings are accounted for: since the enable or homing, and per mark since
  it was armed or last crossed (R28, R33, R54). -/
  refBase : Int := 0
  refs : List (Nat × Int) := []
  /-- Per mark, the total position up to which crossings are committed ahead of the position (R44). -/
  aheads : List (Nat × Int) := []
  committed : List Firing := []
  /-- Per mark: its firings and their LATE, oldest first (R446). -/
  fired : List (Nat × List (Nat × Bool)) := []
  peals : List PealWait := []
  snaps : List (Nat × Snap) := []
deriving DecidableEq, Repr

/-! ### Event counters -/

/-- A capture waiting to be written as a dump record (R333, R335). -/
structure Capture where
  time : Nat
  ltime : Option Nat
  late : Bool
  trig : Nat
  skipped : Nat
  seq : Nat
  /-- Event number, OVF, ASSIGNED and count of each entry. -/
  entries : List (Nat × Bool × Bool × Nat)
  /-- DCFG, DRANGE, the base and the length of the ring, and DWR as they stood at the capture. -/
  cfg : Word := 0
  range : Word := 0
  base : Nat := 0
  ring : Nat := 0
  dwr : Nat := 0
  /-- Words already written into the deep memory. -/
  wrote : Nat := 0
  /-- The channel has been enabled again since: DWR and SEQ are the new run's. -/
  stale : Bool := false
deriving DecidableEq, Repr

/-- A dump channel (R333–R337). -/
structure Dump where
  cap : Option Capture := none
  /-- Triggers skipped since the previous record. -/
  skips : Nat := 0
  seq : Nat := 0
  nextAt : Nat := 0
  fullRaised : Bool := false
deriving DecidableEq, Repr

/-- A sampling preset's remaining count, and the counter cycle in which it fell to 0 (R338). -/
structure Preset where
  rem : Int := 0
  hitAt : Option Nat := none
deriving DecidableEq, Repr

/-- The counter unit. -/
structure Counters where
  counts : List (Nat × Nat) := []
  /-- Event numbers whose OVF is set, rising. -/
  ovf : List (Nat × Bool) := []
  /-- Raisings on their way to their counters: instant and event number, oldest first (R327). -/
  raisings : List (Nat × Nat) := []
  /-- Each reader's high-word shadow (R329). -/
  shadows : List (Nat × Nat) := []
  presets : List (Nat × Preset) := []
  dumps : List (Nat × Dump) := []
  /-- The counter cycle up to which the words of the records have been written. -/
  dumpAt : Nat := 0
  /-- Sampling interrupts on their way: due instant and sequencer (R168, R338). -/
  samples : List (Nat × Nat) := []
deriving DecidableEq, Repr

/-! ### Lattice -/

/-- One Slaeg port beyond its registers (R265–R268, R283). -/
structure Port where
  /-- When training last began. -/
  since : Nat := 0
  lseqTx : Nat := 0
  lseqRx : Nat := 0
  /-- Flits sent and not yet acknowledged, oldest first, each with its resends so far. -/
  retry : List (Flit × Nat) := []
  /-- Flits that wait for room in the retry window, in the order in which they leave (R267, R270). -/
  outq : List Flit := []
  /-- Departure stamp of the SYNC awaiting its ECHO. -/
  syncOut : Option Nat := none
  lastSync : Nat := 0
  exchanges : Nat := 0
  /-- A copy of the present beat came in here: its far end is no tree child (R284). -/
  beatIn : Bool := false
  /-- The last 64 one-way delays, newest first, in 1/1250 of a time step. -/
  delays : List Int := []
deriving DecidableEq, Repr

/-- What the device knows of another device (R279). -/
structure Census where
  info : CensusInfo
  seen : Nat
  /-- Since when it has been listed as eligible, if it is (R284). -/
  since : Nat
  /-- Neighbours that sent a link notice for their link to it. -/
  notices : List (BitVec 16) := []
deriving DecidableEq, Repr

/-- The latest SEGMENT of a global domain (R286). -/
structure GSeg where
  pos : Nat
  cyc : Nat
  vel : Int
  acc : Int
  modulus : Nat
  ltime : Nat
  publisher : BitVec 16
  arrived : Nat
deriving DecidableEq, Repr

/-- A Peal accepted while no tree stands (R290): its descriptor, and what it will carry. -/
structure HeldPeal where
  desc  : Nat
  gdom  : Nat
  total : Int
  mark  : Nat
  mask  : BitVec 16
  addr  : BitVec 16
deriving DecidableEq, Repr

/-- A stream channel beyond its registers (R278). -/
structure Stream where
  /-- Pushes still sure of a credit: of the 16 receive credits, those not known to be in use. -/
  credits : Nat := 16
  rxNext : Nat := 0
  /-- Units received ahead of their turn. -/
  buf : List (Nat × List Word) := []
  gapSince : Option Nat := none
  /-- Units delivered in order and not yet taken by the region. -/
  ready : List (List Word) := []
deriving DecidableEq, Repr

/-- A REQUEST of a remote read (R276): the read it belongs to, its TAG, window offset and length, when it was sent, and its
bytes once they are there. -/
structure Remote where
  read : Nat
  tag : Nat
  off : Nat
  len : Nat
  since : Nat
  got : Option (List Byte) := none
deriving DecidableEq, Repr

/-- The router, the Carillon unit and the Gong. -/
structure Lattice where
  ports : List (Nat × Port) := []
  /-- Lattice time less device time, in time steps (R282). -/
  ltOff : Int := 0
  beatSeen : Bool := false
  lastBeat : Nat := 0
  /-- Since when CARILLON has been enabled or electing. -/
  electSince : Nat := 0
  lostRoot : Option Nat := none
  /-- The root that the latest ROOT_LOST named. -/
  lastLost : Option Nat := none
  /-- The lattice instant of the root's next BEAT. -/
  beatFrom : Nat := 0
  census : List (Nat × Census) := []
  lastCensus : Nat := 0
  /-- When a census flit with each HOPS last came in (R279). -/
  diam : List (Nat × Nat) := []
  gdoms : List (Nat × GSeg) := []
  segSent : List (Nat × Nat) := []
  pealSeq : Nat := 0
  pealSeen : List (Nat × Nat) := []
  held : List HeldPeal := []
  streams : List (Nat × Stream) := []
  /-- Remote reads under way, oldest first, the TAGs and reads used so far, and the window offset of each TAG. -/
  remotes : List Remote := []
  remoteTag : Nat := 0
  remoteReads : Nat := 0
  remoteOffs : List (Nat × Nat) := []
  gongSeq : Nat := 0
  /-- The last 64 Gong identities, newest first (R293). -/
  gongs : List (BitVec 32) := []
  /-- The identities of the last 64 CLEAR flits forwarded or issued. -/
  clears : List (BitVec 32) := []
  cleared : Bool := false
  /-- The external level on ABORT_N is low. -/
  abortLow : Bool := false
  abortFall : Option Nat := none
deriving DecidableEq, Repr

/-- The PCI Express endpoint beyond the PCIE page (R303–R310). -/
structure Endpoint where
  busMaster : Bool := false
  d3hot : Bool := false
  perst : Bool := false
  /-- The bases that the host gave BAR0, BAR2 and BAR4 (R305). -/
  bar0 : BitVec 64 := 0
  bar2 : BitVec 64 := 0
  bar4 : BitVec 64 := 0
  /-- The MSI-X function mask, and the masked and pending vectors. -/
  funcMask : Bool := false
  masked : List (Nat × Bool) := []
  pend : List (Nat × Bool) := []
  /-- The conditions C_v that are 1. -/
  conds : List (Nat × Bool) := []
  /-- Words of the MSI-X table other than the mask bits, by byte offset in the table. -/
  table : List (Nat × Word) := []
deriving DecidableEq, Repr

/-! ### Pin channels -/

/-- What an edge does to a pin's drive (Tables 3.3, 3.4; R72, R181). -/
inductive EdgeAct where
  /-- Output enable on, level unchanged. -/
  | on
  /-- Output enable on with a level (SBC at D1). -/
  | onLevel (b : Bool)
  /-- Output enable off. -/
  | off
  /-- Level. -/
  | level (b : Bool)
  /-- The next bit of the serial TX FIFO (R72). -/
  | bit
  /-- Output enable and level together (fabric drive). -/
  | both (oe b : Bool)
  /-- No drive: the C1 (`close` false) or the C2 of compare `id` (R60, R70). -/
  | strobe (id : Nat) (close : Bool)
  /-- No drive: the C1 of receive burst `id` (R72). -/
  | burst (id : Nat)
deriving DecidableEq, Repr

/-- When an edge is due: at an instant, or at a total position of a domain (in fine units), moved by a number of
units of time (R60, R86). -/
inductive When where
  | time (t : Nat)
  | pos (d : Nat) (total : Int) (shift : Int)
deriving DecidableEq, Repr

/-- An edge not yet committed, and the owner code it belongs to; for a drive of the fabric, the instant of its commit
(R181). -/
structure Edge where
  due : When
  act : EdgeAct
  own : Nat
  at_ : Option Nat := none
deriving DecidableEq, Repr

/-- A span in which EDGE_WINDOW records transitions, of compare `id`; a close of none is the end of the vector (R76). -/
structure Win where
  id    : Nat
  open_ : When
  close : Option When := none
deriving DecidableEq, Repr

/-- What a pin's receive path has to do, in order (R72): a burst of `n` samples, `per` apart, whose C1 is not committed yet;
one sample; a push of a partly filled word. The samples are the owner's of code `own`. -/
inductive RxItem where
  | wait (id n per own : Nat)
  | sample (t own : Nat)
  | flush
deriving DecidableEq, Repr

/-- A committed edge in the edge queue (R60, R62). -/
structure QEdge where
  due  : Nat
  act  : EdgeAct
  own  : Nat
  posUnit : Bool := false
deriving DecidableEq, Repr

/-- A judgement under way (R70, R145), or a level capture of code 0xA: the sequencer and vector it belongs to, its
strobe or the open and close of its window. -/
structure Judge where
  id   : Nat := 0
  code : Nat
  seq  : Nat
  vec  : Nat
  open_ : When
  /-- Judged as a window from `open_` to `close`. -/
  window : Bool := false
  close : Option When := none
  /-- The close is the end of the vector, not known yet (R70). -/
  toEnd : Bool := false
  /-- The window of a Keep, which runs on to the next compare's C1, and that compare once it is accepted. -/
  keep : Bool := false
  closeOf : Option Nat := none
deriving DecidableEq, Repr

/-- A pending function switch (R104, R108): the new owner code or the new MODE, the mark it waits for, and its
boundary once known. -/
structure Switch where
  owner : Option Nat
  mode  : Nat := 0
  mark  : Option (Nat × Nat) := none
  /-- When it was accepted: only firings after that instant count (R446). -/
  since : Nat := 0
  bound : Option Nat := none
deriving DecidableEq, Repr

/-- One pin channel beyond its registers. -/
structure Pin where
  edges : List Edge := []
  queue : List QEdge := []
  /-- The owner's drive: output enable and the level last placed, or formed inside a break (R69, R110). -/
  oe  : Bool := false
  lvl : Bool := false
  /-- The last transition placed, and how many stand in its pin cycle (R61). -/
  lastAt : Option Nat := none
  cycN : Nat := 0
  /-- The last data value of a drive code since the group's enable (Drive last). -/
  lastData : Bool := false
  /-- The code that acts on the pin: under Keep, the code kept. -/
  code : Nat := 7
  judges : List Judge := []
  wins : List Win := []
  /-- Counts the compares and receive bursts accepted. -/
  ids : Nat := 0
  /-- The voltage at the ball in µV (R74). -/
  uv : Nat := 0
  /-- The comparators, and whether the pad stands above VCCIO/2. -/
  cmph : Bool := false
  cmpl : Bool := false
  /-- CMPH and CMPL from the instant on at which a new hysteresis takes effect (Table 3.14). -/
  cmpNext : Option (Nat × Bool × Bool) := none
  mid  : Bool := false
  /-- The owner's input over time, newest first: instant, CMPH, CMPL. -/
  hist : List (Nat × Bool × Bool) := []
  /-- The boundary after which the new owner's input stays frozen, and its value (R109). -/
  frozen : Option (Nat × Bool × Bool) := none
  /-- What each owner that lost the pin reads: owner code, since when, CMPH, CMPL (R112, R144). -/
  seen : List (Nat × Nat × Bool × Bool) := []
  /-- Snare records not yet in the ring, oldest first (R78). -/
  fifo : List (List Word) := []
  /-- The pin cycle of the last selected transition, how many it held, and a GLITCH owed (R76). -/
  snareCyc : Nat := 0
  snareN : Nat := 0
  glitch : Bool := false
  tx : List (BitVec 64) := []
  rx : List (BitVec 64) := []
  /-- Bits of the oldest TX word already sent, and the last bit sent. -/
  txBit : Nat := 0
  lastTx : Bool := false
  rxBits : List Bool := []
  lastBits : Nat := 0
  /-- The receive path, oldest first (R72). -/
  rxPend : List RxItem := []
  switch : Option Switch := none
  /-- Page-clock cycle and rank of the last switch request or CANCEL taken for the pin (R106). -/
  swLast : Option (Nat × Nat) := none
  /-- The pad as it stands until the pin-cycle boundary at which another row of Table 4.6 governs it: that instant, SOURCE,
  output enable and level (R113). -/
  lag : Option (Nat × Nat × Bool × Bool) := none
  /-- End of the break interval under way, and the level HOLD keeps. -/
  brk : Option Nat := none
  hold : Bool := false
  /-- End of the break interval that follows the last rank-4 or rank-5 park cause (R114). -/
  after : Option Nat := none
  analog : Bool := false
  /-- Comparator outputs are undefined in this span (R75). -/
  undefFrom : Nat := 0
  undefTo : Nat := 0
  /-- Since when the comparators disagree with the level driven, and the pad's last change of output enable or level, with what
  it then became (R119). -/
  disagree : Option Nat := none
  moved : Option (Nat × Bool × Bool) := none
deriving DecidableEq, Repr

/-- A reflex cell: ACTIVE, its present output, and output changes on their way to the pin (R81–R83). -/
structure Reflex where
  active : Bool := false
  out : Bool := false
  /-- Changes under way, oldest first: the instant of the look-up, and the output. -/
  path : List (Nat × Bool) := []
  /-- The output that has reached the target pin. -/
  pad : Bool := false
  /-- Until when each SNARE_EDGE input pin pulses, oldest first. -/
  pulses : List (Nat × Nat) := []
  /-- Instants at which the cell is looked up again because its table or an input's hysteresis changes there (R81). -/
  looks : List Nat := []
deriving DecidableEq, Repr

/-- A pin group beyond its registers. -/
structure Group where
  /-- Record count of the Snare (Table 3.6). -/
  seq : Nat := 0
  /-- The pin that the round robin offers a ring write next. -/
  next : Nat := 0
  full : Bool := false
  stalled : Bool := false
  /-- VCCIO in mV as it stands at the balls. -/
  mv : Nat := 0
  /-- Since when VCCIO has stayed in band, and whether its pads wait to return (R93). -/
  inBand : Option Nat := none
  padsOff : Bool := false
  serTxLo : Word := 0
  rfx : List (Nat × Reflex) := []
deriving DecidableEq, Repr

/-- One ADC: the conversion under way ends at `busy`; its FIFO, oldest first (R88). -/
structure Adc where
  busy : Option Nat := none
  /-- Starts by CAPT on their way: the starts of their vectors, oldest first (R158). -/
  capts : List Nat := []
  fifo : List (BitVec 16) := []
deriving DecidableEq, Repr

/-- An analogue block beyond its registers. -/
structure Ana where
  adc0 : Adc := {}
  adc1 : Adc := {}
deriving DecidableEq, Repr

/-! ### Roll sequencers -/

/-- A command of the vector FIFO (R140). -/
structure VCmd where
  addr  : Nat
  /-- Vectors still to issue. -/
  left  : Nat
  rep   : Bool
  tset  : Nat
  caddr : Nat
  /-- Converters that its first vector starts (R158). -/
  capt  : Nat := 0
  /-- A MATCH: `left` is its LIMIT, and copies issue under `Busy.matching` (R149). -/
  mat : Bool := false
deriving DecidableEq, Repr

/-- The result of an issued judged vector, until its last judged pin has delivered (R145). -/
structure VRes where
  id    : Nat
  num   : Nat
  epoch : Nat
  caddr : Nat
  tset  : Nat
  vaddr : Nat
  start : Nat
  /-- Boundary position when position-clocked. -/
  pos   : Nat := 0
  /-- Judged pins that have not delivered. -/
  left  : Nat
  fails : List Nat := []
  /-- The copy of a MATCH, counted from 1, and the MATCH it belongs to. -/
  copy  : Option Nat := none
  mat   : Nat := 0
deriving DecidableEq, Repr

/-- What the instruction unit is in the middle of: an instruction that has begun and not retired. -/
inductive Busy where
  | idle
  /-- HALT waits for the vectors already enqueued. -/
  | halt
  /-- WAITT since an instant, for a number of cycles. -/
  | waitT (since n : Nat)
  /-- WAITP since an instant: domain, mark, RESYNC, and the timeout in cycles if any. -/
  | waitP (since d m : Nat) (resync : Bool) (tmo : Option Nat)
  /-- WAITE since an instant: kind, sequencer, line, and the timeout in cycles if any. -/
  | waitE (since kind q line : Nat) (tmo : Option Nat)
  /-- MATCH: address, limit, copies issued, judged, and whether the results wait. -/
  | matching (addr limit issued judged : Nat)
  /-- A LOG, given by its instruction word, that waits for its claim or a free descriptor. -/
  | log (w : Nat)
  /-- A vector command that a STEP executes until its vectors have issued. -/
  | vectors
deriving DecidableEq, Repr

/-- A Roll sequencer beyond its registers. -/
structure Seq where
  fifo  : List VCmd := []
  tset  : Nat := 0
  capt  : Nat := 0
  /-- The time grid: its origin and the next index (R141). -/
  t0    : Nat := 0
  k     : Nat := 0
  lastS : Option Nat := none
  /-- The new origin that a RESYNC set, until the vectors before it have issued (R151). -/
  regrid : Option Nat := none
  /-- FIFO commands that keep the old grid. -/
  regLeft : Nat := 0
  /-- The position grid: boundary 0 once known, and the total position beyond which it is sought (R142). -/
  b0    : Option Int := none
  bref  : Int := 0
  /-- Vectors issue. -/
  issuing : Bool := false
  /-- Results under way, in issue order (R145). -/
  res   : List VRes := []
  /-- Counts the GOs: results of vectors issued before the last one stay out of the run (R145). -/
  epoch : Nat := 0
  /-- The VSTART values in force since the last GO (R169). -/
  vstart : Nat := 0
  /-- The last sequencer cycle in which the fabric or the host set F bits: the cycle, the bits that the fabric set, and whether
  the host wrote them (R132). -/
  flagCyc : Option (Nat × Nat × Bool) := none
  /-- Counts the vectors ever issued, and the MATCHes ever ended. -/
  vid   : Nat := 0
  mats  : Nat := 0
  busy  : Busy := .idle
  /-- The instruction being executed came from a STEP. -/
  step  : Bool := false
  stepAt : Nat := 0
  /-- A GO that waits for a mark: domain, mark and the instant of its acceptance. -/
  armed : Option (Nat × Nat × Nat) := none
  /-- A group of the span refused a vector (R167). -/
  spanFault : Bool := false
  /-- The number of the last vector issued since the last GO, and its codes, 8 words per span group. -/
  lastNum : Option Nat := none
  lastCodes : List Word := []
  /-- The ledger claim of LOG: its slot, whether it waits, whether it was refused since the last GO (R162). -/
  logClaim : Option Nat := none
  logQueued : Bool := false
  logRefused : Bool := false
  /-- LOG records already placed in the sector of LOG_PTR. -/
  logRec : Nat := 0
  /-- The last record filled the area exactly: no word of it is left. -/
  logEnd : Bool := false
  /-- SER space: per pin, the TX low half held and the RX high half latched (Table 5.8). -/
  serLo : List (Nat × Word) := []
  serHi : List (Nat × Word) := []
  /-- Record counts of the fail log (R148). -/
  flogSeq : Nat := 0
  /-- Program RAM words of which one half has been written while the sequencer runs, and the other not yet (R442): the word and
  the half written. -/
  torn : List (Nat × Bool) := []
  /-- Program RAM words written lately, oldest first: the word, the instant before which fetches see the content given, and that
  content, none where only half of an instruction stood there (R131, R442). -/
  fresh : List (Nat × Nat × Option Nat) := []
  /-- The last EVENT pulse of each line (R159). -/
  pulses : List (Nat × Nat) := []
  /-- The address of the instruction that retired last, and when. -/
  retired : Nat := 0
  retiredAt : Option Nat := none
  /-- The target, as an instruction of the bank, of a taken transfer that missed (R155). -/
  miss : Option Nat := none
deriving DecidableEq, Repr

/-- The execute-in-place path of a record bank: lines in the prefetch buffer and targets in the branch target
cache, most recently used first (R155), and the instructions of lines held whose word read uncorrectable. -/
structure Xip where
  lines : List Nat := []
  btc   : List Nat := []
  bad   : List Nat := []
deriving DecidableEq, Repr

/-! ### Power, reset and start -/

/-- Where the device stands between reset and shutdown (R394–R400). -/
inductive Phase where
  /-- In reset, waiting for T0. -/
  | reset
  /-- The start runs. -/
  | starting
  | user
  | drain
  | test
  | done
  /-- Held for a fault of Table 14.3. -/
  | fault
deriving DecidableEq, Repr

/-- What the steward holds beyond the STEWARD and POWER pages. -/
structure Power where
  phase : Phase := .reset
  ready : Bool := false
  /-- FAULT_N is pulled low. -/
  faultN : Bool := false
  /-- The endpoint serves memory requests (R307). -/
  serving : Bool := false
  vaux : Bool := true
  /-- Rails VSTORE, VCORE, VLANE09, VLANE12 and VANA are valid: bits 1 to 5. -/
  rails : Nat := 0x3E
  refclk : Bool := true
  resetN : Bool := true
  /-- Since when RESET_N has been low. -/
  resetLow : Option Nat := none
  straps : Nat := 0
  /-- The earliest T0 of a DEV_RESET or LIFECYCLE reset. -/
  startAt : Nat := 0
  t0 : Nat := 0
  /-- The start waits for REFCLK. -/
  clockWait : Bool := false
  shutAt : Nat := 0
  hot : Nat := 0
  /-- The fault code the device is held in reset for, 0 if none (Table 14.3). -/
  hold : Nat := 0
  /-- The SMBus address, 0x5A or as ARP assigned it (R325). -/
  smbAddr : Nat := 0x5A
  /-- ARP has resolved the address. -/
  smbAr : Bool := false
  /-- The last reading of the hottest fabric-die sensor, in 1/16 °C. -/
  top : Int := 0
  /-- Fabric-die sensors 0–15. -/
  sensors : List (Nat × BitVec 16) := []
deriving DecidableEq, Repr

/-! ### Fabric -/

/-- A register-port access that its region awaits (R188), and whether it was outside the port's reach when it was taken
(R187, R330). -/
structure PortAcc where
  write   : Bool
  counter : Bool
  addr    : Nat
  data    : Word
  taken   : Nat
  deny    : Bool := false
deriving DecidableEq, Repr

/-- A request that a port holds while its target is under self-test (R179): the pin port's drive, push and pop, the preset
request, the sequencer port's three, a register access, and an access at port A of a deep memory. -/
inductive PortReq where
  | drive (i : Nat) (oe lvl : Bool)
  | push (i : Nat) (w : BitVec 64)
  | pop (i : Nat)
  | preset (d k : Nat)
  | flags (q : Nat) (mask : BitVec 4)
  | strobe (q : Nat)
  | vec (q g entry w : Nat) (v : Word)
  | access (x : PortAcc)
  | deep (k : Nat) (x : MemAccess)
  | proto (p : Nat) (push : Bool) (v : Word)
  | lane (k : Nat) (w : BitVec 72)
  | stream (ch : Nat) (ws : List Word)
deriving DecidableEq, Repr

/-- A request held for a target: its port and page, the end of its window, and the request. -/
structure Hold where
  port : Nat
  page : Nat
  until_ : Nat
  req  : PortReq
deriving DecidableEq, Repr

/-- An arithmetic slice (R172): its accumulator and OVF, and the operands on their way to it, newest first. -/
structure Slice where
  acc  : BitVec 64 := 0
  ovf  : Bool := false
  pipe : List (BitVec 27 × BitVec 27) := []
deriving DecidableEq, Repr

/-- The logic of a region: IMAGE_ID and VERSION of the frame it holds, the flip-flops that differ from their initial value (0
where it holds no frame), its slices, and how many edges each region clock network's source has given (R171 to R173). -/
structure Logic where
  frame  : Option (Word × Word) := none
  ffs    : List (Nat × Bool) := []
  slices : List (Nat × Slice) := []
  edges  : List (Nat × Nat) := []
deriving DecidableEq, Repr

/-- A region beyond its registers. -/
structure Region where
  logic : Logic := {}
  /-- When each port last took a request (R175): 0 pin, 1 PDU, 2 sequencer, 3 register, 4 store, 5 deep memory, 6 protocol,
  7 streams, 8 + k user lane k. -/
  took : List (Nat × Nat) := []
  /-- The positions that the taps have sampled and not yet presented, by tap, oldest first (R184). -/
  taps : List (Nat × List (Nat × Nat × Bool)) := []
  /-- Register-port accesses taken and not yet completed, oldest first (R188). -/
  accs : List PortAcc := []
  /-- Mark notices on their way: the instant from which each may pulse, notice number, LATE (R185). -/
  notices : List (Nat × Nat × Bool) := []
  /-- Requests held, in the order in which they came (R179). -/
  holds : List Hold := []
  /-- Since when the port clock has stood still (R174). -/
  parkedAt : Option Nat := none
  /-- Store completion records waiting at the store port, oldest first (R216). -/
  recs : List (List Word) := []
  /-- DEEP_OWN of the loaded frame (Table 8.3). -/
  deep : Nat := 0
  /-- Per memory block: IMAGE_ID and VERSION of the frame that last initialised it; none: the volatile wipe (R193). -/
  base : List (Nat × (Word × Word)) := []
deriving DecidableEq, Repr

/-! ### The maintenance ledger and self-test -/

/-- A claim of the ledger (R355): its number, Table 12.6 activity, agent code, resource words and power in mW. -/
structure Claim where
  number   : Nat
  activity : Nat
  agent    : Nat
  res      : List Word
  mw       : Nat
  queued   : Bool
deriving DecidableEq, Repr

/-- The ledger: its claims in order of arrival, how often each entry has been used (its generation, R359), and the REROOT claim,
which takes no entry (R355). -/
structure Ledger where
  claims : List Claim := []
  gens   : List (Nat × Nat) := []
  reroot : Bool := false
deriving DecidableEq, Repr

/-- A unit's test (Table 12.1): its claim, if it has one, UNIT_RESULT.WHEN, when it began, STATE before it, whether an
ABORT waits for the next pattern, and after step 4 the instant and the result. -/
structure Test where
  claim : Option Nat := none
  /-- Power of a shutdown test that found no free entry in the ledger (R348, Table 12.4). -/
  mw    : Nat := 0
  why   : Nat
  prev  : Nat := 0
  since : Option Nat := none
  abort : Bool := false
  ended : Option (Nat × Nat) := none
deriving DecidableEq, Repr

/-- A committed self-test record (R349): RESULT, the flags of UNIT_RESULT, patterns and MISR. -/
structure TestRec where
  result : Nat
  mem    : Bool
  logic  : Bool
  pats   : Nat
  misr   : Nat
deriving DecidableEq, Repr

/-- The steward's self-test: tests under way, the schedule still to run (R348), the record of each unit in the
region banks' metadata (R349), and BIST_CFG as committed (R363). -/
structure Bist where
  tests : List (Nat × Test) := []
  /-- The shutdown self-test began. -/
  shut  : Option Nat := none
  /-- The RETEST of this start began. -/
  retest : Option Nat := none
  todo  : List Nat := []
  recs  : List (Nat × TestRec) := []
  misr  : List (Nat × Nat) := []
  /-- Every unit was tested by the last shutdown self-test. -/
  done  : Bool := false
  policy : Bool := false
deriving DecidableEq, Repr

/-! ### The store die -/

/-- A programmed flash word: its 64 data cells and 8 check cells, and the data cells whose content is undefined (R204, R221,
R232). In a flag word byte b is the 8 cells of logical bit b, and there are no check cells (R205). -/
structure FlashWord where
  data  : BitVec 64
  check : BitVec 8 := 0xFF
  open_ : BitVec 64 := 0
deriving DecidableEq, Repr

/-- STATE of a sector (Table 7.11). -/
inductive SectorState where
  | normal | programming | erasing | suspended | incomplete
deriving DecidableEq, Repr

/-- A sector: state, cycle count (R224), erase steps so far, whether it stands on the recovery list with its cause
(Table 7.21), whether unlisted words are undefined instead of erased. -/
structure Sector where
  state  : SectorState := .normal
  cycles : Nat := 0
  steps  : Nat := 0
  listed : Bool := false
  cause  : Nat := 0
  undef  : Bool := false
deriving DecidableEq, Repr

/-- A bank: protection bits, password digest (none: all ones), mismatches since reset (R235 to R237), and
spare sectors in use (R223). -/
structure Bank where
  prot   : Nat := 0
  spares : Nat := 0
  digest : Option (BitVec 256) := none
  fails  : Nat := 0
deriving DecidableEq, Repr

/-- Who submitted a descriptor. -/
inductive Submitter where
  | steward
  | host
  | region (r : Nat)
  | seq (q : Nat)
deriving DecidableEq, Repr

/-- A descriptor: D0 to D7, and for LOG its header and data words, its record number in its sector and whether the
program of the commit flag is what remains (R161, R225). -/
structure Desc where
  src  : Submitter
  ws   : List Word
  log  : List (BitVec 64) := []
  recno : Nat := 0
  flag : Bool := false
deriving DecidableEq, Repr

/-- What a completion record says (Table 7.9). -/
structure Done where
  status   : Nat
  pulses   : Option Nat := none
  remapped : Bool := false
  rejected : Bool := false
  uncorr   : Nat := 0
  corr     : Nat := 0
  done     : Nat := 0
  first    : Nat := 0
deriving DecidableEq, Repr

/-- A dispatched descriptor: since when, what it programs, whether its buffer or password is still being fetched
from host memory, its METADATA claim, and what it will report once PWRFAIL_N has stopped it. -/
structure Job where
  desc  : Desc
  since : Nat
  data  : List (BitVec 64) := []
  fetch : Bool := false
  claim : Option Nat := none
  stopped : Option Done := none
  /-- A check of Table 7.8 that failed at dispatch, while the words to program are still being fetched: status and FIRST. -/
  verdict : Option (Nat × Nat) := none
  /-- The descriptor has ended; its record waits for that of an earlier descriptor of its queue and bank, or for a place in the
  completion FIFO (R208, R209). -/
  ended : Option Done := none
  /-- PULSE_LIMITS at dispatch (R239). -/
  limits : Word := 0x180C
deriving DecidableEq, Repr

/-- A descriptor queue of the store: descriptors held in submission order, dispatched ones, and completion records
with the region they are for. -/
structure DQueue where
  held    : List Desc := []
  running : List Job := []
  comps   : List (Nat × List Word) := []
deriving DecidableEq, Repr

/-- A slot record of a region bank (R248): commit flag in this bank, commit sequence, anchor; in the anchor the
header block, the image commit flag and the revocation flag. -/
structure SlotRec where
  flag    : Bool := false
  seq     : Nat := 0
  anchor  : Nat := 0
  image   : Bool := false
  header  : List Word := []
  revoked : Bool := false
deriving DecidableEq, Repr

/-- A command of the IMAGE page under way: COMMIT with its header once read, REVOKE or SET_BOOT waiting for its
claim. -/
structure ImgCmd where
  op     : Nat
  slot   : Nat
  region : Nat := 0
  since  : Nat
  fetch  : Bool := false
  /-- The read of the header block has been issued. -/
  asked  : Bool := false
  header : List Word := []
  claim  : Option Nat := none
  /-- The regions that CMD_MASK named when the command was written. -/
  mask   : List Nat := []
deriving DecidableEq, Repr

/-- A swap request beyond its registers: when arming began, its claim, and the frames that its regions ran before S
(region, valid, slot). -/
structure Swap where
  since : Nat := 0
  claim : Option Nat := none
  /-- Starts on their way: trigger instant and LATE, in order of arrival. -/
  trigs : List (Nat × Bool) := []
  /-- The swap instant S. -/
  at_   : Nat := 0
  old   : List (Nat × Bool × Nat) := []
  /-- Re-verification of the new image is owed after a revert. -/
  verify : Bool := false
deriving DecidableEq, Repr

/-- The load at start (R252 to R254): each region's candidate slots, regions still to load, regions on their second
try, regions whose frame failed and whose image awaits re-verification, and the boot slots and revocations (by region and
slot) whose writes wait for PWRFAIL_N (R398). -/
structure Load where
  lists  : List (Nat × List Nat) := []
  queue  : List Nat := []
  /-- When the load under way was asked for, the start of its wave 0 once known, whether it loads the whole grid, and its waves
  so far (R24). -/
  since  : Option Nat := none
  first  : Option Nat := none
  full   : Bool := false
  waves  : Nat := 0
  retry  : List Nat := []
  failed : List Nat := []
  boots   : List (Nat × Nat) := []
  revokes : List (Nat × Nat) := []
deriving DecidableEq, Repr

/-- The store controller and everything flash holds. -/
structure Store where
  words   : List (Nat × FlashWord) := []
  sectors : List (Nat × Sector) := []
  banks   : List (Nat × Bank) := []
  queues  : List (Nat × DQueue) := []
  /-- The store is stopped by PWRFAIL_N, until 100 µs after its rise (R231, R232). -/
  pfStop  : Bool := false
  /-- When PWRFAIL_N fell, and when it rose while the supplies held. -/
  pfFall  : Option Nat := none
  pfRise  : Option Nat := none
  /-- Of HOST, FABRIC and SEQUENCER, the queue that dispatched last (R209). -/
  lastQ   : Nat := 3
  /-- The page-clock cycle and region of the last descriptor that the FABRIC queue took, and the regions turned away, each with
  the cycle (R177). -/
  portLast : Option (Nat × Nat) := none
  portWait : List (Nat × Nat) := []
  /-- Tables of metadata whose last copy stands in the second sector of its pair, by 1024·bank + first sector (R207). -/
  metaSide : List (Nat × Bool) := []
  /-- Slot records by 4·bank + slot, and each region's boot slot. -/
  slots   : List (Nat × SlotRec) := []
  boots   : List (Nat × Nat) := []
  cmd     : Option ImgCmd := none
  swaps   : List (Nat × Swap) := []
  /-- The clock section in force: header words 0x040 to 0x07C (Table 8.2). -/
  clocks  : List Word := []
  load    : Load := {}
deriving DecidableEq, Repr

/-! ### Life-cycle, security and the TAP -/

/-- An intent bit and a commit bit of the life-cycle OTP: programmed cells of each, 0 to 8 (R366). -/
structure Pair where
  intent : Nat := 0
  commit : Nat := 0
deriving DecidableEq, Repr

/-- A digest in OTP: the value begun, and its commit bit (R381). -/
structure Digest where
  value  : Option (BitVec 256) := none
  commit : Bool := false
deriving DecidableEq, Repr

/-- A customer key slot in OTP. -/
structure KeySlot where
  value  : Option (BitVec 32 × List Byte) := none
  commit : Bool := false
  revoked : Bool := false
deriving DecidableEq, Repr

/-- A life-cycle command under way (Table 13.3): whether it advances, the unlocks it asks for, and the OTP bits left
to program: 2·pair for an intent, 2·pair + 1 for a commit. -/
structure LcCmd where
  advance : Bool
  unlock  : Nat
  left    : List Nat
  since   : Nat
deriving DecidableEq, Repr

/-- A SECURITY command under way: OP, target, staged value, and logical bits left to program, the commit bit last. -/
structure SecCmd where
  op     : Nat
  target : Nat
  left   : Nat
deriving DecidableEq, Repr

/-- The life-cycle OTP and what the steward holds of it. Pairs 0 to 4 are the steps, 5 to 20 the token steps;
digests 0 to 15 are UD0 to UD15, 16 to 20 TD1 to TD5. -/
structure Life where
  pairs   : List (Nat × Pair) := [(0, ⟨8, 8⟩), (1, ⟨8, 8⟩)]
  digests : List (Nat × Digest) :=
    [(16, ⟨some (Config.factoryDigest 1), true⟩), (17, ⟨some (Config.factoryDigest 2), true⟩)]
  keys    : List (Nat × KeySlot) := []
  sealed  : Bool := false
  cmd     : Option LcCmd := none
  sec     : Option SecCmd := none
  /-- The unlock latch on VAUX: bit 0 MEMTEST, bit 1 DEBUG; loaded for the next start. -/
  latch   : Nat := 0
  /-- The store is held by a life-cycle transition. -/
  held    : Bool := false
  /-- A bit did not verify in 8 steps: the next start holds the device (R366). -/
  fault   : Bool := false
  /-- LC_HIST.CAUSE of the next start. -/
  cause   : Nat := 0
deriving DecidableEq, Repr

/-- The TAP: instruction, data of the last LC_ACCESS read, boundary cells. -/
structure Jtag where
  ir   : Nat := 1
  data : Nat := 0
  cells : List (Bool × Bool) := []
deriving DecidableEq, Repr

/-! ### Protocol blocks and user lanes -/

/-- An entry of a protocol FIFO (R319): its six header words and data. In the TX FIFO also whether it waits for its
position, the total position of its domain at the push, and whether its transmission is known to have begun. -/
structure Entry where
  h       : List Word
  data    : List Byte := []
  held    : Bool := false
  ref     : Int := 0
  started : Bool := false
  /-- When it was pushed, and the start of its latest attempt. -/
  pushed  : Nat := 0
  began   : Option Nat := none
deriving DecidableEq, Repr

/-- A protocol block beyond its registers: its FIFOs, oldest first, the data words of the TX entry being built and
those of the popped RX entry not yet read, and the words that its region has pushed and has still to pop (R320). -/
structure Proto where
  tx : List Entry := []
  rx : List Entry := []
  txData : List Word := []
  rxData : List Word := []
  build  : List Word := []
  unload : List Word := []
  /-- The span in which a received PAUSE lets no Ethernet frame start (R316). -/
  pause  : Nat × Nat := (0, 0)
  /-- The last calibration pulse of a SENT receiver, in ns (Table 10.15). -/
  cal    : Option Nat := none
deriving DecidableEq, Repr

/-- A user lane beyond its registers: its FIFOs, oldest first, a received word with the instant at which its port presents it, 0
while it has none; when the port last presented a word (R314); the scrambler, the descrambler and the PRBS generator, newest bit
lowest (R313, R315). -/
structure Lane where
  tx : List (BitVec 72) := []
  rx : List (Nat × BitVec 72) := []
  last : Nat := 0
  scr : Nat := 0
  desc : Nat := 0
  prbs : Nat := 0
deriving DecidableEq, Repr

/-- Who gets the data of a read through port B: nobody still waits for it, the host, the requester of a DEEP_ACCESS, or
register G[n] of sequencer q. -/
inductive Sink where
  | none
  | host
  | word
  | gpr (q n : Nat)
deriving DecidableEq, Repr

/-- An access of a deep memory port: the instant at which the port samples it, its word, whether it writes. -/
structure DeepAcc where
  at_   : Nat
  word  : Nat
  write : Bool
  sink  : Sink := .none
deriving DecidableEq, Repr

/-! ### The machine -/

/-- The state of the device, and the queue of the commands that wait for it. -/
structure State where
  /-- The present instant. -/
  now : Nat := 0
  /-- Commands not yet taken, first in, first out. -/
  pending : List Instr := []
  /-- What has left the device, newest first. -/
  out : List Output := []
  /-- The value the last read returned, and the response of the last access. -/
  rdata : Nat := 0
  resp : Resp := .ok
  /-- The model's own counter of free values drawn (Config). -/
  free : Nat := 0
  /-- Writes that took effect in the cycle under way, by target: the end of that cycle, and the writer's place in the order of
  the cycle (R139, R177, R439). -/
  taken : List (Nat × Nat × Nat) := []
  /-- Words that a write has replaced and that stay in force until an instant, by register offset, or 2^33 + key for a
  timing-set word (R66, R81, Table 3.14). -/
  lagged : List (Nat × Nat × Word) := []
  /-- Pages whose disable has been accepted: STATE reads ON until the instant given (R438). -/
  offs : List (Nat × Nat) := []
  /-- Every register that differs from its reset value, by BAR0 byte offset. -/
  regs : List (Nat × Word) := []
  /-- Pages whose consistency check runs, with STATE as it was before (R437). -/
  checks : List (Nat × Nat) := []
  /-- The BAR2 memories (vector, deep, result and program memory), by BAR2 byte offset. -/
  mem : List Host.Cell := []
  doms : List (Nat × Dom) := []
  ctr : Counters := {}
  lat : Lattice := {}
  ep : Endpoint := {}
  pins : List (Nat × Pin) := []
  groups : List (Nat × Group) := []
  anas : List (Nat × Ana) := []
  /-- Timing-set words, by ((64·group + pin)·32 + set)·8 + word (R63). -/
  tsets : List (Nat × Word) := []
  /-- Trim registers written since the reset, by BAR0 byte offset; the others show their factory values (R85). -/
  trims : List (Nat × Word) := []
  seqs : List (Nat × Seq) := []
  xips : List (Nat × Xip) := []
  pwr : Power := {}
  /-- The instant READY last rose: device time counts from here (R55). -/
  resetEnd : Nat := 0
  regions : List (Nat × Region) := []
  /-- The last access of each port of a deep memory, by 2·deep, or 2·deep + 1 for port B (R195). -/
  deepLast : List (Nat × DeepAcc) := []
  /-- Deep memory words left undefined by a collision, by 65,536·deep + word (R196). -/
  undef : List (Nat × Bool) := []
  /-- Memory block words written since their block was initialised: (24·region + block)·1024 + word, 32 data bits
  and 4 ninth bits above them (R189). -/
  blocks : List (Nat × Nat) := []
  ledger : Ledger := {}
  bist : Bist := {}
  store : Store := {}
  life : Life := {}
  jtag : Jtag := {}
  protos : List (Nat × Proto) := []
  lanes : List (Nat × Lane) := []
deriving DecidableEq, Repr

/-- The machine right after reset: every field at the value the spec states for reset, every register that the
spec gives none at the value the assumption log names. -/
def State.reset : State := {}

end Sys2Proof.Machine
end

