-- ==== Sys2Proof/Machine/Ops.lean ====
section
/-! DEFINITION. Machine/Ops.lean: the named operations over the state that every command is written with: keyed
tables, registers and their fields, memory bytes and words, per-unit records, refusals, free values, and `run`, the
one shape every command's meaning has. -/
namespace Sys2Proof.Machine

/-! ### Tables kept by rising key -/

/-- The entry of key `a`, or `d` where none is listed. -/
def tabGet {α : Type} (d : α) : List (Nat × α) → Nat → α
  | [], _ => d
  | (k, v) :: r, a => if a = k then v else tabGet d r a

/-- `m` with entry `a` set to `v`, in its place by rising key. -/
def tabPut {α : Type} : List (Nat × α) → Nat → α → List (Nat × α)
  | [], a, v => [(a, v)]
  | (k, w) :: r, a, v =>
    if a < k then (a, v) :: (k, w) :: r else if a = k then (a, v) :: r else (k, w) :: tabPut r a v

/-- `m` without entry `a`. -/
def tabDel {α : Type} (m : List (Nat × α)) (a : Nat) : List (Nat × α) := m.filter (fun e => e.1 != a)

/-- `m` with entry `a` set to `v` in canonical form: the value an unlisted key reads as is not listed. -/
def tabSet {α : Type} [DecidableEq α] (d : α) (m : List (Nat × α)) (a : Nat) (v : α) : List (Nat × α) :=
  if v = d then tabDel m a else tabPut m a v

/-- Keys strictly rising. -/
def keysRise {α : Type} : List (Nat × α) → Bool
  | [] => true
  | [_] => true
  | (a, _) :: (b, w) :: r => a < b && keysRise ((b, w) :: r)

/-! ### Memory (R441) -/

/-- What a byte of a BAR2 window reads before anything is written to it: 0 (R442, R379). (DEDUCED: assumption 12) -/
def Memory.default : Byte := 0

/-- The canonical form of memory: addresses strictly rising, and no byte listed at the value an unlisted address
reads as. -/
def Memory.wf (m : List Host.Cell) : Bool := keysRise m && m.all (fun c => c.2 != Memory.default)

/-- One byte. -/
def memByte (m : List Host.Cell) (a : Nat) : Byte := tabGet Memory.default m a

/-- One byte written. -/
def memPut (m : List Host.Cell) (a : Nat) (b : Byte) : List Host.Cell := tabSet Memory.default m a b

/-- Consecutive bytes written. -/
def memPuts (m : List Host.Cell) : Nat → List Byte → List Host.Cell
  | _, [] => m
  | a, b :: bs => memPuts (memPut m a b) (a + 1) bs

/-- Every byte from `a` to `a + n - 1` back to the value an unlisted address reads as. -/
def memWipe (m : List Host.Cell) (a n : Nat) : List Host.Cell := m.filter (fun c => !(a ≤ c.1 && c.1 < a + n))

namespace State

/-- The byte at BAR2 offset `a`. -/
def byte (s : State) (a : Nat) : Byte := memByte s.mem a

/-- The word at BAR2 offset `a`, little-endian. -/
def memWord (s : State) (a : Nat) : Word :=
  bytesWord [s.byte a, s.byte (a + 1), s.byte (a + 2), s.byte (a + 3)]

/-- The state with consecutive bytes written from BAR2 offset `a`. -/
def putBytes (s : State) (a : Nat) (bs : List Byte) : State := { s with mem := memPuts s.mem a bs }

/-- The state with the word at `a` written. -/
def putWord (s : State) (a : Nat) (w : Word) : State := s.putBytes a (wordBytes w)

/-! ### Registers -/

/-- The register at BAR0 offset `k`. -/
def rd (s : State) (k : Nat) : Word := tabGet (regReset k) s.regs k

/-- The register at BAR0 offset `k` set to `v`. -/
def wr (s : State) (k : Nat) (v : Word) : State := { s with regs := tabSet (regReset k) s.regs k v }

/-- Field [hi:lo] of a register. -/
def rf (s : State) (k hi lo : Nat) : Nat := fld (s.rd k) hi lo

/-- Bit `n` of a register. -/
def rb (s : State) (k n : Nat) : Bool := bit (s.rd k) n

/-- Field [hi:lo] of a register set. -/
def wf (s : State) (k hi lo v : Nat) : State := s.wr k (setFld (s.rd k) hi lo v)

/-- Bit `n` of a register set. -/
def wb (s : State) (k n : Nat) (b : Bool) : State := s.wr k (setBit (s.rd k) n b)

/-! ### Writes that act at a later boundary (R447) -/

/-- The word in force at instant `t` for the place `k`, which now holds `w`. -/
def inForce (s : State) (k : Nat) (w : Word) (t : Nat) : Word :=
  match s.lagged.find? (·.1 = k) with
  | some e => if t < e.2.1 then e.2.2 else w
  | none => w

/-- The word `w` of the place `k` stays in force until instant `t`. -/
def keepUntil (s : State) (k t : Nat) (w : Word) : State :=
  { s with lagged := (k, t, w) :: s.lagged.filter (·.1 != k) }

/-- The register at BAR0 offset `k` as it is in force at instant `t`. -/
def rdAt (s : State) (k t : Nat) : Word := s.inForce k (s.rd k) t

/-- The register at BAR0 offset `k` set to `v`, in force from instant `t`. -/
def wrFrom (s : State) (k t : Nat) (v : Word) : State := (s.keepUntil k t (s.rdAt k s.now)).wr k v

/-! ### The header (Tables 16.2 to 16.4) -/

/-- STATUS.STATE of page `p`. -/
def unitState (s : State) (p : Nat) : Nat := s.rf (reg p oStatus) 3 0

/-- STATE set. -/
def setUnitState (s : State) (p v : Nat) : State := s.wf (reg p oStatus) 3 0 v

/-- STATE reads ON (2). A unit in CHECKING counts as not ON for Table 1.5 (R438). -/
def isOn (s : State) (p : Nat) : Bool := s.unitState p = 2

/-- STATE reads SELFTEST (4). -/
def inSelftest (s : State) (p : Nat) : Bool := s.unitState p = 4

/-- STATE reads OFF, REFUSED, SAFE or UNTESTED, in which "EN = 0" registers take writes (R438). -/
def enZero (s : State) (p : Nat) : Bool :=
  s.unitState p = 0 || s.unitState p = 3 || s.unitState p = 5 || s.unitState p = 6

/-- REFUSE takes a refusal's reason (R432). -/
def refuse (s : State) (p : Nat) (r : Reason) : State := s.wf (reg p oStatus) 15 8 r.code

/-- LOCK.LOCKED is set. -/
def locked (s : State) (p : Nat) : Bool := s.rb (reg p oLock) 0

/-- USER_READ of a page (R330). -/
def userRead (s : State) (p : Nat) : Bool := s.rb (reg p oCtrl) 2

/-- OWNER lets an agent write the page's basic area (R433). -/
def ownerAllows (s : State) (p : Nat) (a : Agent) : Bool :=
  let o := s.rf (reg p oOwner) 7 0
  privileged a || o = 0 ||
    (match a with
     | .region _ => o = 0x01
     | .seq q => o = 0x10 + q
     | _ => false)

/-! ### Writes that reach one target in one cycle (R139, R177, R439) -/

/-- A write to target `key` that comes earlier in the order of the cycle than one already taken in it. -/
def outranked (s : State) (key rank : Nat) : Bool :=
  s.taken.any fun e => e.1 = key && decide (s.now < e.2.1) && decide (rank < e.2.2)

/-- A write to target `key` is taken, in a clock of period `per`. -/
def take (s : State) (key per rank : Nat) : State :=
  { s with taken := tabPut (s.taken.filter fun e => decide (s.now < e.2.1)) key (nextAfter per s.now, rank) }

/-- The target of a write to a BAR2 memory byte offset; registers are targets by their BAR0 offset. -/
def memKey (a : Nat) : Nat := 2 ^ 32 + a

/-! ### Outputs, answers and free values -/

/-- Something leaves the device. (DESIGN CHOICE: assumption 2) -/
def emit (s : State) (o : Output) : State := { s with out := o :: s.out }

/-- A read returns `n`. (DESIGN CHOICE: assumption 2) -/
def ret (s : State) (n : Nat) : State := { s with rdata := n }

/-- An access gets response `r`. (DESIGN CHOICE: assumption 2) -/
def answer (s : State) (r : Resp) : State := { s with resp := r }

/-- A free value was drawn. -/
def drew (s : State) : State := { s with free := s.free + 1 }

/-- `n` free values were drawn. (DESIGN CHOICE: assumption 3) -/
def drewN (s : State) (n : Nat) : State := { s with free := s.free + n }

/-- The free bits that the next draw gives, as a number. (DESIGN CHOICE: assumption 3) -/
def freeNat (s : State) : Nat := (Config.freeWord s.free).toNat

/-- The free number that the next draw gives. -/
def freeInt (s : State) : Int := Config.freeInt s.free

/-- The free outcome that the next draw gives. -/
def freeBool (s : State) : Bool := Config.freeBool s.free

/-! ### Per-unit records -/

/-- Position domain `d`. -/
def dom (s : State) (d : Nat) : Dom := tabGet {} s.doms d
/-- Position domain `d` replaced. -/
def setDom (s : State) (d : Nat) (x : Dom) : State := { s with doms := tabPut s.doms d x }
/-- Slaeg port `n`. -/
def port (s : State) (n : Nat) : Port := tabGet {} s.lat.ports n
/-- Slaeg port `n` replaced. -/
def setPort (s : State) (n : Nat) (x : Port) : State :=
  { s with lat := { s.lat with ports := tabPut s.lat.ports n x } }
/-- Pin channel `i` = 64·group + n. -/
def pin (s : State) (i : Nat) : Pin := tabGet {} s.pins i
/-- Pin channel `i` = 64·group + n, replaced. -/
def setPin (s : State) (i : Nat) (x : Pin) : State := { s with pins := tabPut s.pins i x }
/-- Pin group `i`. -/
def grp (s : State) (i : Nat) : Group := tabGet {} s.groups i
/-- Pin group `i`, replaced. -/
def setGrp (s : State) (i : Nat) (x : Group) : State := { s with groups := tabPut s.groups i x }
/-- Analogue block `i`. -/
def ana (s : State) (i : Nat) : Ana := tabGet {} s.anas i
/-- Analogue block `i`, replaced. -/
def setAna (s : State) (i : Nat) (x : Ana) : State := { s with anas := tabPut s.anas i x }
/-- Roll sequencer `i`. -/
def sq (s : State) (i : Nat) : Seq := tabGet {} s.seqs i
/-- Roll sequencer `i`, replaced. -/
def setSq (s : State) (i : Nat) (x : Seq) : State := { s with seqs := tabPut s.seqs i x }
/-- Execute-in-place path of RECORD`i`. -/
def xip (s : State) (i : Nat) : Xip := tabGet {} s.xips i
/-- Execute-in-place path of RECORD`i`, replaced. -/
def setXip (s : State) (i : Nat) (x : Xip) : State := { s with xips := tabPut s.xips i x }
--UNITS
/-- Device time: 19.53125 ps steps since the end of reset (R55). -/
def devTime (s : State) : Nat := (s.now - s.resetEnd) / timeStep

end State

/-! ### The shape of a command -/

/-- The state in which a command taken at instant `t` has its effect: the clock never goes back. -/
def State.upTo (s : State) (t : Nat) : State := { s with now := max s.now t }

/-- What stands after the effect `u` of a command taken in `s`: the clock and the queue as the command found them. -/
def State.settle (s u : State) : State := { u with now := s.now, pending := s.pending }

/-- Every command: the clock moves to the instant `t` at which the command is taken, never back, and the effect
`f` follows. The queue of waiting commands is `step`'s, not the command's: an effect leaves it as it is.
(DESIGN CHOICE: assumption 1) -/
def run (t : Nat) (f : State → State) (s : State) : Host.Outcome State Fault Refusal :=
  .next ((s.upTo t).settle (f (s.upTo t)))

/-- An effect that takes place only under its condition; otherwise nothing happens. (DESIGN CHOICE: assumption 8) -/
def when (c : Bool) (f : State → State) (s : State) : State := if c then f s else s

/-- Effects for each element in order. -/
def forEach {α : Type} (l : List α) (f : α → State → State) (s : State) : State :=
  l.foldl (fun s a => f a s) s

end Sys2Proof.Machine
end

