-- ==== Sys2Proof/Machine/Flags.lean ====
section
/-! DEFINITION. Machine/Flags.lean: the event flags of the pages, the interrupt condition of each MSI-X vector and
the raising of an event, which every unit shares (R310, R327, R435). -/
namespace Sys2Proof.Machine
namespace State

/-- The MSI-X vector of page `p`: VMAP[p] (R310). -/
def vmap (s : State) (p : Nat) : Nat := s.rf (reg pPcie (0x400 + p / 4 * 4)) (8 * (p % 4) + 7) (8 * (p % 4))

/-- EVENT bits of a page that its EVENT_MASK lets through, given the EVENT word. (PRESUMED: assumption 6) -/
def unmasked (s : State) (p : Nat) (ev : Word) : Nat := (ev &&& ~~~(s.rd (reg p oMask))).toNat % 65536

/-- The condition C_v (R310): on some page mapped to `v`, an EVENT bit stands whose mask bit is 0. -/
def cond (s : State) (v : Nat) : Bool :=
  s.regs.any fun e => e.1 % 4096 = oEvent && s.vmap (e.1 / 4096) = v && s.unmasked (e.1 / 4096) e.2 != 0

/-- No message of vector `v` may leave: the vector or the function is masked (R310), or the function is in D3hot (R308).
(DEDUCED: assumption 121) -/
def msixShut (s : State) (v : Nat) : Bool := s.ep.d3hot || s.ep.funcMask || tabGet true s.ep.masked v

/-- The message of vector `v` is due: it is sent, or its pending bit sets (R310). -/
def msixDue (s : State) (v : Nat) : State :=
  if s.msixShut v then
    { s with ep := { s.ep with pend := tabPut s.ep.pend v true } }
  else s.emit (.msix v)

/-- The condition of vector `v` is judged again; `wrote` says that EVENT or EVENT_MASK of one of its pages was
written (R310). -/
def judge (s : State) (v : Nat) (wrote : Bool) : State :=
  let old := tabGet false s.ep.conds v
  let new := s.cond v
  let s1 := { s with ep := { s.ep with conds := tabSet false s.ep.conds v new } }
  if new && (!old || wrote) then s1.msixDue v else s1

/-- An unmasking: a pending message is sent if the condition still holds, and the pending bit clears (R310). -/
def msixRelease (s : State) (v : Nat) : State :=
  if tabGet false s.ep.pend v && !s.msixShut v then
    let s1 := { s with ep := { s.ep with pend := tabSet false s.ep.pend v false } }
    if s1.cond v then s1.emit (.msix v) else s1
  else s

/-- Page `p` raises event `b`: its EVENT bit sets whatever EN and EVENT_MASK hold (R435), the raising starts for
its counter (R327), and the interrupt condition is judged. A block under self-test raises nothing (Table 12.1).
(DEDUCED: assumption 19) -/
def raise (s : State) (p b : Nat) : State :=
  if s.inSelftest p then s else
  let s1 := s.wb (reg p oEvent) b true
  let s2 := { s1 with ctr := { s1.ctr with raisings := s1.ctr.raisings ++ [(s1.now, 16 * p + b)] } }
  s2.judge (s2.vmap p) false

/-- A raising whose instant `t` has passed joins the raisings in their order. -/
def raisingAt (t n : Nat) (l : List (Nat × Nat)) : List (Nat × Nat) :=
  (l.takeWhile fun e => decide (e.1 ≤ t)) ++ (t, n) :: (l.dropWhile fun e => decide (e.1 ≤ t))

/-- Page `p` raised event `b` at an instant `t` that has passed: its counter sees it there. -/
def raiseAt (s : State) (t p b : Nat) : State :=
  if s.inSelftest p then s else
  let s1 := s.wb (reg p oEvent) b true
  let s2 := { s1 with ctr := { s1.ctr with raisings := raisingAt t (16 * p + b) s1.ctr.raisings } }
  s2.judge (s2.vmap p) false

/-- A raising of event `b` of page `p` at instant `t` of the present pin cycle is taken back: EVENT shows `was` again, its
counter does not see it, and the message it made due is not sent. -/
def unraise (s : State) (p b : Nat) (was : Bool) (t : Nat) : State :=
  let v := s.vmap p
  let s1 := s.wb (reg p oEvent) b was
  let s2 := { s1 with ctr := { s1.ctr with raisings := s1.ctr.raisings.erase (t, 16 * p + b) } }
  if tabGet false s2.ep.conds v && !s2.cond v then
    { s2 with
      ep := { s2.ep with conds := tabSet false s2.ep.conds v false, pend := tabSet false s2.ep.pend v false }
      out := s2.out.erase (.msix v) }
  else s2

/-- Raise an event if `c`. -/
def raiseIf (s : State) (c : Bool) (p b : Nat) : State := if c then s.raise p b else s

/-- The event bits of page `p` raised in the present page-clock cycle: a W1C leaves these set (R435). -/
def raisedNow (s : State) (p : Nat) : Nat :=
  ((s.ctr.raisings.filter fun e => e.2 / 16 = p && e.1 / pageCycle = s.now / pageCycle).map
    fun e => 2 ^ (e.2 % 16)).eraseDups.sum

/-- A refusal that a page shows in STATUS.REFUSE and that its requester receives as REFUSED.
(DEDUCED: assumption 18) -/
def refuseAns (s : State) (p : Nat) (r : Reason) : State := (s.refuse p r).answer .refused

end State

/-! ### Who may write (R433, R153, R187, R400) -/

/-- The groups of sequencer `q`'s span (R128). -/
def State.spanGroups (s : State) (q : Nat) : List Nat :=
  (List.range (s.rf (reg (pSeq q) 0x040) 1 0 + 1)).map (q + ·)

/-- Table 16.1: whether an agent's path reaches the basic area of page `p` for a write. -/
def State.reachesWrite (s : State) (a : Agent) (p : Nat) : Bool :=
  match a with
  | .host | .lattice | .steward | .jtag => true
  | .region r =>
    match blockOf p with
    | some .domain | some .ulane | some .can | some .lin | some .sent | some .eth | some .pingroup
    | some .analog => true
    | some .region => p = pReg r
    | _ => false
  | .seq q =>
    match blockRow p with
    | some (.domain, _) => true
    | some (.pingroup, b) => (s.spanGroups q).contains (p - b)
    | some (.analog, b) => (s.spanGroups q).contains (p - b)
    | _ => false

/-- After an orderly shutdown only IDENT, STEWARD, POWER and PCIE act (R400). -/
def State.closed (s : State) (p : Nat) : Bool :=
  s.pwr.phase = .done && !(p = 0 || p = pStw || p = pPower || p = pPcie)

/-- Host accesses, local or remote, are answered only while the endpoint serves memory requests (R307). -/
def State.serves (s : State) (a : Agent) : Bool :=
  match a with
  | .host | .lattice => s.pwr.serving
  | _ => true

/-- A write to the basic area of page `p` by agent `a`, whose effect is `f`: it takes effect if the device serves
the agent, the page is not under self-test (R346) or closed, the agent's path reaches it, and OWNER lets it
(R433). OWNER is checked before every other rule of the page. -/
def gateW (a : Agent) (p : Nat) (f : State → State) (s : State) : State :=
  if !s.serves a then s.answer .ur
  else if s.closed p then s.answer .ok
  else if s.inSelftest p then s.answer .selftest
  else if !s.reachesWrite a p then s.answer .denied
  else if !s.ownerAllows p a then s.refuseAns p .owner
  else f (s.answer .ok)

/-- The place of an agent's write among the writes of one page-clock cycle to a register of which the last one prevails:
what it orders, and its rank there: the local host, then the lattice (R439); regions in ascending order (R177).
(DESIGN CHOICE: assumption 7) -/
def orderPlace (a : Agent) (p off : Nat) : Option (Nat × Nat) :=
  if !plainReg p off then none
  else match a with
    | .host => some (reg p off, 0)
    | .lattice => some (reg p off, 1)
    | .region r => some (2 ^ 31 + reg p off, 1 + r)
    | _ => none

/-- A write `f` to a register at its place: one that a later agent's write has overtaken leaves nothing. -/
def ordered (a : Agent) (p off : Nat) (f : State → State) (s : State) : State :=
  match orderPlace a p off with
  | some (key, n) =>
    if s.outranked key n then s
    else if n = 0 then f s
    else (f s).take key pageCycle n
  | none => f s

/-- The same for a register at `off`, of which the last write in a page-clock cycle prevails. -/
def gateO (a : Agent) (p off : Nat) (f : State → State) (s : State) : State := gateW a p (ordered a p off f) s

/-- An agent's write to the basic area of a page takes effect. -/
def granted (a : Agent) (p : Nat) (s : State) : Bool :=
  s.serves a && !s.closed p && !s.inSelftest p && s.reachesWrite a p && s.ownerAllows p a

/-- A privileged write: the others have no effect (Table 16.2). -/
def gateP (a : Agent) (p : Nat) (f : State → State) (s : State) : State :=
  if privileged a then gateW a p f s else s.answer .denied

/-- A read of page `p` whose effect is `f`: before the device serves it is answered Unsupported Request (R307), and
while the page is under self-test or closed it returns 0, without effect (R346, R400). -/
def gateR (p : Nat) (f : State → State) (s : State) : State :=
  if !s.pwr.serving then (s.ret 0).answer .ur
  else if s.closed p || s.inSelftest p then s.ret 0 else f s

end Sys2Proof.Machine
end

