-- ==== Sys2Proof/Machine/Domains.lean ====
section
/-! DEFINITION. Machine/Domains.lean: the position domain unit (02_position_domains.md): trajectories, sources,
velocity estimate, commits, jumps, snapshots, and the commands of the PDU other than the firing of marks. -/
namespace Sys2Proof.Machine

/-! ### Units -/

/-- Fine units per 1/4096 pos. -/
def posUnit : Int := 512000000000000000000000
/-- Fine units per unit of time at a velocity of 0.001 pos/s. -/
def velUnit : Int := 2048000000000
/-- Rates above 10^12 are refused (R35). -/
def maxRate : Nat := 1000000000000

/-- At instant `t` a ramp has reached the velocity `g` at which it ends (R36). -/
def capped (j : Traj) (g : Int) (t : Nat) : Bool :=
  let v := j.w + 2000 * j.acc * ((t : Int) - j.t0)
  if 0 < j.acc then decide (g ≤ v) else if j.acc < 0 then decide (v ≤ g) else true

/-- The exact total position at instant `t` of a ramp that has ended: the ramp up to its end, then the target velocity
(R36). -/
def rampEndPos (j : Traj) (target : Int) (t : Nat) : Int :=
  let τ : Int := (t : Int) - j.t0
  j.p0 + ((target * target - j.w * j.w) + target * (4000 * j.acc * τ - 2 * (target - j.w))) / (4000 * j.acc)

/-- What is left at instant `t` of the difference that a trajectory removes by slewing. -/
def slewLeft (j : Traj) (t : Nat) : Int :=
  let r := j.slew * (t - j.t0 : Nat)
  if j.off < 0 then min 0 (j.off + r) else max 0 (j.off - r)

/-- The total position on a trajectory at instant `t`. (DEDUCED: assumption 26) -/
def trajAt (j : Traj) (t : Nat) : Int :=
  let τ : Int := (t : Int) - j.t0
  (match j.cap with
   | some g => if capped j g t then rampEndPos j g t else j.p0 + (j.w * τ + 1000 * j.acc * τ * τ) / j.den
   | none => j.p0 + (j.w * τ + 1000 * j.acc * τ * τ) / j.den) + slewLeft j t

/-- The velocity on a trajectory at instant `t`, per unit of time, times `den`. -/
def trajVel (j : Traj) (t : Nat) : Int :=
  let v := j.w + 2000 * j.acc * ((t : Int) - j.t0)
  let d := slewLeft j t
  (match j.cap with
   | some g => if capped j g t then g else v
   | none => v) + (if d = 0 then 0 else if d < 0 then j.slew else -j.slew) * j.den

/-- A trajectory at rest. -/
def restAt (t : Nat) (p : Int) : Traj := { t0 := t, p0 := p }

/-- The first instant in (lo, lo + 2^n] at which the trajectory has reached `q`, given that it has at the end. -/
def firstReach (j : Traj) (q : Int) : Nat → Nat → Nat
  | 0, lo => lo + 1
  | n + 1, lo => if q ≤ trajAt j (lo + 2 ^ n) then firstReach j q n lo else firstReach j q n (lo + 2 ^ n)

/-- `x` held within ±`b`. -/
def clampInt (x b : Int) : Int := if x < -b then -b else if b < x then b else x

/-- The trajectory that resolves events: while a domain stopped by STOP_TIMEOUT stands, the segment of before (R48). -/
def Dom.evTraj (x : Dom) : Traj := x.tail.getD x.traj

/-- Where a mark's crossings are accounted for once the position is `p`: `r` before, and `a` where they are committed
ahead (R28, R44). The position moves it towards `a` and never beyond. -/
def settleRef (r a p : Int) : Int := if r ≤ a then max r (min a p) else min r (max a p)

/-- The first level of `pm` modulo `mf` above `r`, and the last at or below it. -/
def levelAbove (pm mf r : Int) : Int := pm + mf * ((r - pm) / mf + 1)
def levelBelow (pm mf r : Int) : Int := pm + mf * ((r - pm) / mf)

namespace State

def dreg (d off : Nat) : Nat := reg (pDom d) off

/-- SRC.TYPE (Table 2.1). -/
def srcType (s : State) (d : Nat) : Nat := s.rf (dreg d 0x040) 3 0
def srcInput (s : State) (d : Nat) : Nat := s.rf (dreg d 0x040) 7 4
def srcGdom (s : State) (d : Nat) : Nat := s.rf (dreg d 0x040) 15 8
def srcRegion (s : State) (d : Nat) : Nat := s.rf (dreg d 0x040) 22 16
/-- CONFIG.BIDIR (R29). -/
def bidir (s : State) (d : Nat) : Bool := s.rb (dreg d 0x044) 0

/-- A position held in a LO and HI pair, whole·4096 + fraction (Table 2.10). -/
def posPair (s : State) (lo hi : Nat) : Nat := (s.rd lo).toNat + 4294967296 * s.rf hi 19 0

/-- A global domain is published: its latest SEGMENT is no older than the 20 µs of R286 and the 17.2 µs of a delivery
across 32 hops (Table 9.6). -/
def gdomCurrent (s : State) (g : Nat) : Bool :=
  s.lat.gdoms.any fun e => e.1 = g && s.now ≤ e.2.arrived + us 372 / 10

/-- The modulus M in whole pos (R26); a LATTICE domain takes the global modulus (R41). -/
def modulus (s : State) (d : Nat) : Nat :=
  if s.srcType d = 4 then
    match s.lat.gdoms.find? (·.1 = s.srcGdom d) with
    | some (_, g) => if g.modulus = 0 then 2 ^ 40 else g.modulus
    | none => 2 ^ 40
  else
    let m := s.posPair (dreg d 0x048) (dreg d 0x04C) / 4096
    if m = 0 then 2 ^ 40 else m

/-- The modulus in 1/4096 pos. -/
def mod4096 (s : State) (d : Nat) : Nat := s.modulus d * 4096

/-- The modulus in fine units. -/
def modFine (s : State) (d : Nat) : Int := s.mod4096 d * posUnit

/-- The trajectory of a domain and its STOPPED as they were in force at instant `t`. -/
def motionAt (s : State) (d t : Nat) : Traj × Bool :=
  (((s.dom d).past.filter fun e => decide (t < e.1)).getLast?.map (·.2)).getD ((s.dom d).traj, (s.dom d).stopped)

/-- The domain runs at instant `t`: it is ON, or its disable acts later (R49). -/
def domOn (s : State) (d t : Nat) : Bool := s.isOn (pDom d) || decide (t < (s.dom d).offAt)

/-- Total position of a domain at instant `t`, in fine units. -/
def totalAt (s : State) (d t : Nat) : Int :=
  if s.domOn d t then trajAt (s.motionAt d t).1 t
  else (((s.dom d).cyc * s.mod4096 d + (s.dom d).pos : Nat) : Int) * posUnit

/-- The position at instant `t`, whole·4096 + fraction, in 0 to M·4096 − 1 (R26). -/
def posAt (s : State) (d t : Nat) : Nat :=
  if s.domOn d t then ((s.totalAt d t / posUnit) % (s.mod4096 d : Int)).toNat else (s.dom d).pos

/-- The cycle counter at instant `t`, modulo 2^32 (R27). -/
def cycAt (s : State) (d t : Nat) : Nat :=
  if s.domOn d t then ((s.totalAt d t / s.modFine d) % (4294967296 : Int)).toNat else (s.dom d).cyc

/-- VEL: the velocity in 0.001 pos/s, rounded towards zero (R43). -/
def velNow (s : State) (d : Nat) : Int :=
  let x := s.dom d
  if !s.domOn d s.now || x.stopped then 0
  else Int.tdiv (trajVel x.traj s.now) (velUnit * x.traj.den)

/-- DSTAT (Table 2.11). STOPPED reads 1 while EN = 0. -/
def dstat (s : State) (d : Nat) : Word :=
  let x := if s.domOn d s.now then s.dom d else { reverse := (s.dom d).reverse }
  word (b2n x.stopped + 2 * b2n x.reverse + 4 * b2n (x.tracker.locked || x.current)
    + 8 * b2n (x.tracker.holdEnd.isSome || x.holdover) + 16 * b2n x.ramp.ramping
    + 32 * b2n (decide (3 ≤ x.counts.length)) + 64 * b2n x.enc.homed)

/-- DSTAT.STOPPED (R48). -/
def domStopped (s : State) (d : Nat) : Bool := (s.dom d).stopped || !s.domOn d s.now

/-- DSTAT.STOPPED as it read at an instant (R80). -/
def domStoppedAt (s : State) (d t : Nat) : Bool := (s.motionAt d t).2 || !s.domOn d t

/-- The instant up to which the trajectory in force resolves, looking `ahead` beyond the present: events beyond its
limit wait for a later segment (R44). (DEDUCED: assumption 36) -/
def horizon (s : State) (d ahead : Nat) : Nat :=
  match (s.dom d).evTraj.lim with
  | none => s.now + ahead
  | some l => min (s.now + ahead) l

/-- ENCODER and FABRIC sources, whose position is known at their counts only. -/
def countSource (s : State) (d : Nat) : Bool := s.srcType d = 1 || s.srcType d = 5

/-- The total position by which crossings committed ahead are known to have happened: that of the count whose segment is in
force for a source of counts, else the present one. -/
def passedPos (s : State) (d : Nat) : Int := if s.countSource d then (s.dom d).evTraj.p0 else s.totalAt d s.now

/-- The forward frontier at the present instant (R29), no farther than the segment in force resolves. -/
def frontierNow (s : State) (d : Nat) : Int :=
  max (s.dom d).frontier
    (if s.domOn d s.now then max (s.passedPos d) (trajAt (s.dom d).evTraj (s.horizon d 0)) else s.totalAt d s.now)

/-- The instant at which a trajectory reaches `q`, if it does so by instant `h`. -/
def reachBy (j : Traj) (q : Int) (h : Nat) : Option Nat :=
  if q ≤ trajAt j j.t0 then some j.t0
  else if j.t0 < h && q ≤ trajAt j h then some (firstReach j q ((h - j.t0).log2 + 1) j.t0)
  else none

/-- The resolved instant of an edge, if it lies at most `ahead` beyond the present (R44, R60, R86). -/
def resolve (s : State) (w : When) (ahead : Nat) : Option Nat :=
  match w with
  | .time t => if t ≤ s.now + ahead then some t else none
  | .pos d q shift =>
    if s.domOn d s.now then
      match reachBy (s.dom d).evTraj q (s.horizon d (ahead + (-shift).toNat)) with
      | some t => let r := ((t : Int) + shift).toNat; if r ≤ s.now + ahead then some r else none
      | none => none
    else none

/-- The total position beyond which a mark's next crossing counts. -/
def markRef (s : State) (d m : Nat) : Int := tabGet (s.dom d).refBase (s.dom d).refs m

/-- The total position up to which a mark's crossings are committed ahead. -/
def markAhead (s : State) (d m : Nat) : Int := tabGet (s.markRef d m) (s.dom d).aheads m

/-- A mark's crossings are accounted for up to `r`, and committed ahead up to `a`. -/
def setMarkRefs (s : State) (d m : Nat) (r a : Int) : State :=
  s.setDom d { s.dom d with refs := tabPut (s.dom d).refs m r, aheads := tabPut (s.dom d).aheads m a }

/-- Crossings committed ahead that have happened are accounted for. Applied before the trajectory changes. -/
def settleRefs (s : State) (d : Nat) : State :=
  s.setDom d { s.dom d with
    refs := (s.dom d).refs.map fun e => (e.1, settleRef e.2 (s.markAhead d e.1) (s.passedPos d)) }

/-- The motion of the domain up to the present is remembered (R80). -/
def remember (s : State) (d : Nat) : State :=
  s.setDom d { s.dom d with past := (s.now, (s.dom d).traj, (s.dom d).stopped) :: (s.dom d).past }

/-- An instant that follows domain `d` no longer moves once its position is passed, or where it lies at most `ahead` beyond
the present. -/
def settled (s : State) (d ahead : Nat) (w : When) : When :=
  match w with
  | .pos d' q shift =>
    if d' != d then w
    else match s.resolve w ahead with
      | some t => .time t
      | none =>
        match (if s.domOn d s.now then reachBy (s.dom d).evTraj q (s.horizon d 0) else none) with
        | some t => .time ((t : Int) + shift).toNat
        | none => w
  | .time _ => w

/-- Instants that follow the domain and are settled no longer move: those of judgements and capture windows from 10 ns ahead
(R44), those of edges once their position is passed (R86). Applied before the domain's trajectory changes. -/
def keepDue (s : State) (d : Nat) : State :=
  let s := (s.settleRefs d).remember d
  let fix := s.settled d (ns 10)
  let pin (x : Pin) : Pin := { x with
    edges := x.edges.map fun e => { e with due := s.settled d 0 e.due }
    judges := x.judges.map fun j => { j with open_ := fix j.open_, close := j.close.map fix }
    wins := x.wins.map fun w => { w with open_ := fix w.open_, close := w.close.map fix } }
  { s with pins := s.pins.map fun e => (e.1, pin e.2) }

/-- The domain's trajectory replaced, its frontier kept. -/
def setTraj (s : State) (d : Nat) (j : Traj) : State :=
  let s := s.keepDue d
  s.setDom d { s.dom d with frontier := s.frontierNow d, traj := j, tail := none }

/-- STOPPED changes; the events of R48 follow. -/
def setStopped (s : State) (d : Nat) (b : Bool) : State :=
  if (s.dom d).stopped = b then s
  else
    let s1 := s.remember d
    (s1.setDom d { s1.dom d with stopped := b }).raise (pDom d) (if b then 2 else 3)

/-- Until an ENCODER domain that homes is HOMED, its marks and boundaries stay idle (R33). -/
def homedOk (s : State) (d : Nat) : Bool :=
  !(s.srcType d = 1 && 2 ≤ s.rf (dreg d 0x080) 4 3) || (s.dom d).enc.homed

/-! ### Marks: registers and arming (R51, R54) -/

def mreg (d m off : Nat) : Nat := dreg d (0x400 + 16 * m + off)
def markCtrl (s : State) (d m : Nat) : Word := s.rd (mreg d m 8)
def markArg (s : State) (d m : Nat) : Word := s.rd (mreg d m 12)
def markPos (s : State) (d m : Nat) : Nat := s.posPair (mreg d m 0) (mreg d m 4)
def armed (s : State) (d m : Nat) : Bool := bit (s.markCtrl d m) 0

/-- The conditions R51 checks at arming: the position lies below the modulus, whatever TRIGGER holds, MODE is not reserved,
and SNAPSHOT names a slot. (DESIGN CHOICE: assumption 167) -/
def markOk (s : State) (d m : Nat) : Bool :=
  s.markPos d m < s.mod4096 d && fld (s.markCtrl d m) 2 1 < 2 &&
    !(bit (s.markCtrl d m) 12 && fld (s.markArg d m) 29 28 = 0)

/-- An armed mark that fails its conditions is disarmed, and REFUSE shows RANGE (R54). -/
def markJudge (s : State) (d m : Nat) : State :=
  if s.armed d m && !s.markOk d m then (s.wb (mreg d m 8) 0 false).refuse (pDom d) .range else s

/-- Where an arming starts to count crossings: beyond the frontier, or with BIDIR beyond the present position
(R29, R54). -/
def armRef (s : State) (d : Nat) : Int := if s.bidir d then s.totalAt d s.now else s.frontierNow d

/-- A mark waits for its next crossing after the present. While a firing of it is committed, the write applies after that
firing, so the crossing already committed is not placed again (R54). -/
def rearmRef (s : State) (d m : Nat) : State :=
  let a := if (s.dom d).committed.any (·.mark = m) then s.markAhead d m else s.armRef d
  s.setMarkRefs d m (s.armRef d) a

/-! ### Shaft (R35–R37) -/

/-- A preset's rate in 0.001 pos/s. -/
def presetRate (s : State) (d k : Nat) : Nat :=
  (s.rd (dreg d (0x100 + 16 * k))).toNat + 4294967296 * s.rf (dreg d (0x104 + 16 * k)) 7 0

/-- A preset's ramp in pos/s². -/
def presetRamp (s : State) (d k : Nat) : Nat := (s.rd (dreg d (0x108 + 16 * k))).toNat

/-- The trajectory of a ramp from the present rate, and the instant at which its rate is reached (R36). -/
def rampTraj (t : Nat) (p w target : Int) (ramp : Nat) : Traj × Ramp :=
  if ramp = 0 || w = target then
    ({ t0 := t, p0 := p, w := target }, { target := target, ramping := false, owed := true })
  else
    ({ t0 := t, p0 := p, w := w, acc := if w < target then ramp else -(ramp : Int), cap := some target },
      { target := target, ramping := true, owed := true })

/-- The preset applied at the present instant, from trajectory `j` (R36). -/
def applyPreset (s : State) (d k : Nat) (j : Traj) (saved : Option PresetReq) : State :=
  let s := s.keepDue d
  let w := trajVel j s.now
  let r := rampTraj s.now (trajAt j s.now) w (s.presetRate d k * velUnit) (s.presetRamp d k)
  let s1 := s.setDom d { s.dom d with
    frontier := s.frontierNow d, traj := r.1, ramp := r.2, req := saved }
  s1.setStopped d (r.1.w = 0 && r.1.acc = 0)

/-- What the request `r` of the present pin cycle did is taken back: the rate, and the STOPPED, STARTED or RATE_REACHED it
raised (R37). -/
def presetUndo (s : State) (d : Nat) (r : PresetReq) : State :=
  let x := s.dom d
  let s1 := s.setDom d { x with ramp := r.ramp, traj := r.traj, stopped := r.stopped }
  let b := if x.stopped then 2 else 3
  let back (b t : Nat) (s : State) : State := s.unraise (pDom d) b (bit r.event b) t
  let s2 := if x.stopped = r.stopped then s1 else back b r.applied s1
  match r.reached with
  | none => s2
  | some t => back 12 t (if x.stopped = r.stopped then s2 else back b t s2)

/-- A preset request of rank `rank` within its pin cycle; `by_` is the requesting mark's domain (R36, R37). The last
request taken is applied; one that it displaces raises RATE_DROPPED and nothing else. -/
def presetRequest (s : State) (d k rank : Nat) (by_ : Option Nat) : State :=
  if s.srcType d != 2 || !s.isOn (pDom d) then s.raise (pDom (by_.getD d)) 11
  else if maxRate < s.presetRate d k then s.raise (pDom d) 11
  else
    let x := s.dom d
    let c := s.now / pinCycle
    let new : PresetReq := { cycle := c, rank := rank, traj := x.traj, ramp := x.ramp, stopped := x.stopped
                             event := s.rd (reg (pDom d) oEvent), applied := s.now }
    match x.req with
    | some r =>
      if r.cycle = c then
        if r.rank ≤ rank then
          ((s.presetUndo d r).raise (pDom d) 11).applyPreset d k r.traj
            (some { r with rank := rank, applied := s.now, reached := none })
        else s.raise (pDom d) 11
      else s.applyPreset d k x.traj (some new)
    | none => s.applyPreset d k x.traj (some new)

/-- RATE_REACHED: the rate of an applied preset is reached (R36). The trajectory goes on at it. -/
def rateReached (s : State) (d : Nat) : State :=
  let x := s.dom d
  let req := x.req.map fun r => if r.cycle = s.now / pinCycle then { r with reached := some s.now } else r
  if !(s.isOn (pDom d) && x.ramp.owed) then s
  else if !x.ramp.ramping then (s.setDom d { x with ramp := { x.ramp with owed := false }, req := req }).raise (pDom d) 12
  else if capped x.traj x.ramp.target s.now then
    let s1 := s.setDom d { x with ramp := { x.ramp with ramping := false, owed := false }, req := req }
    (s1.raise (pDom d) 12).setStopped d (x.ramp.target = 0)
  else s

/-! ### Counts, estimate and segments (R43, R44) -/

/-- The segment that the counts held publish: none, first-order or full estimate (R43), with the 30 ns margin
beyond the predicted next count (R44). An estimate that opposes the last count stands, and it resolves only what lies
within that margin, nothing where the margin ends before the count. Above 50 Mcount/s, where the timing of events is undefined
(R34), the segments are formed in the same way. (DEDUCED: assumption 27, DESIGN CHOICE: assumption 168) -/
def segOf : List (Nat × Int) → Traj
  | [] => {}
  | [(t, p)] => { t0 := t, p0 := p, lim := some t }
  | (t1, p1) :: (t2, p2) :: rest =>
    let s1 := p1 - p2
    let d1 : Int := (t1 : Int) - t2
    let v : Int × Int :=
      match rest with
      | [] => (s1, d1)
      | (t3, p3) :: _ =>
        let s2 := p2 - p3
        let d2 : Int := (t2 : Int) - t3
        (s1 * d2 * (d1 + d2) + d1 * (s1 * d2 - s2 * d1), d1 * d2 * (d1 + d2))
    if v.2 ≤ 0 || v.1 = 0 then { t0 := t1, p0 := p1, lim := some t1 }
    else { t0 := t1, p0 := p1, w := v.1, den := v.2.toNat
           lim := some (max t1 ((t1 : Int) + s1 * v.2 / v.1 + ns 30).toNat) }

/-! ### Commit of firings (R44, R45) -/

/-- A firing is committed for 10 ns after the present; a LATE one raises the domain's LATE event (R45). -/
def commitFiring (s : State) (d m : Nat) (late : Bool) (span : Option Int) : State :=
  let s1 := s.setDom d { s.dom d with
    committed := (s.dom d).committed ++ [{ mark := m, due := s.now + ns 10, late := late
                                           ctrl := s.markCtrl d m, arg := s.markArg d m, span := span }] }
  s1.raiseIf late (pDom d) 4

/-- A mark in the span of a forward jump to `p` fires at once with LATE, at most once; the crossings that SKIP ignores count
it down (R50, R51). -/
def jumpMark (d : Nat) (p : Int) (m : Nat) (s : State) : State :=
  let x := s.dom d
  let c := s.markCtrl d m
  let mf := s.modFine d
  let pm : Int := s.markPos d m * posUnit
  let up := levelAbove pm mf (max (s.markRef d m) (s.markAhead d m))
  let skip := fld c 31 16
  let n := ((p - up) / mf + 1).toNat
  if !(s.homedOk d && s.armed d m) || (fld c 2 1 = 0 && x.committed.any (·.mark = m)) then s
  else if bit c 3 then
    match x.peals.find? (fun w => w.mark = m && w.total ≤ p) with
    | none => s
    | some w =>
      (s.setDom d { x with peals := x.peals.filter fun w => !(w.mark = m && w.total ≤ p) }).commitFiring d m true
        (some w.total)
  else if p < up then s
  else
    let s1 := s.setMarkRefs d m p p
    if n ≤ skip then s1.wf (mreg d m 8) 31 16 (skip - n)
    else (s1.wf (mreg d m 8) 31 16 0).commitFiring d m true (some (up + skip * mf))

/-- A step change of the total position to `p`: the estimate is reset, and the marks of a forward span fire (R50). -/
def jump (s : State) (d : Nat) (p : Int) : State :=
  let s := s.keepDue d
  let s1 := s.setDom d { s.dom d with
    traj := restAt s.now p, tail := none, segs := [], exact := p, frontier := s.frontierNow d, counts := [] }
  (forEach (List.range 64) (jumpMark d p) s1).raise (pDom d) 14

/-- The index at a step completed with total position `p` (R33). INDEX_MODE IGNORE does nothing at it (Table 2.3).
(DESIGN CHOICE: assumption 169) -/
def indexStep (s : State) (d : Nat) (p : Int) : State :=
  let x := s.dom d
  let mode := s.rf (dreg d 0x080) 4 3
  if !x.enc.idx then s
  else
    let s0 := s.setDom d { x with enc := { x.enc with idx := false } }
    if mode = 0 then s0
    else
      let pos := ((p / posUnit) % (s.mod4096 d : Int)).toNat
      let s1 := ((s0.wr (dreg d 0x090) (word pos)).wr (dreg d 0x094) (word (pos / 4294967296))).raise (pDom d) 6
      let want := s.posPair (dreg d 0x088) (dreg d 0x08C)
      let step : Int := s.rf (dreg d 0x084) 23 0
      if mode = 1 then s1
      else if !x.enc.homed then
        let new : Int := (p / s.modFine d) * s.modFine d + want * posUnit
        let off := new - p
        let s2 := s1.keepDue d
        let y := s2.dom d
        let shift (j : Traj) : Traj := { j with p0 := j.p0 + off }
        s2.setDom d { y with
          enc := { y.enc with homed := true }, exact := new
          counts := y.counts.map (fun c => (c.1, c.2 + off))
          segs := y.segs.map (fun g => (g.1, shift g.2))
          traj := shift y.traj, tail := y.tail.map shift
          frontier := new, refBase := new, refs := [], aheads := [], wraps := new / s.modFine d }
      else if mode = 3 then
        let m : Int := s.mod4096 d
        let raw := ((want : Int) - pos) % m
        let diff := if 2 * raw < m then raw else raw - m
        if diff = 0 then s1
        else if diff ≤ 255 * step && -(255 * step) ≤ diff then s1.jump d (p + diff * posUnit)
        else s1.raise (pDom d) 7
      else s1

/-- A source count: the position moves by `delta` fine units at stamp `t` (R32, R42, R43). REVERSED is raised when its
direction differs from that of the count before, and not at the first count after an enable.
(DESIGN CHOICE: assumption 170) -/
def sourceCount (s : State) (d t : Nat) (delta : Int) : State :=
  let x := s.dom d
  let back : Bool := delta < 0
  let p := x.exact + delta
  let turned := x.lastCount != 0 && x.reverse != back
  let counts := if x.counts.isEmpty || x.reverse != back then [(t, p)] else ((t, p) :: x.counts).take 3
  let s1 := s.setDom d { x with
    exact := p, lastCount := max 1 t, reverse := back, counts := counts
    segs := x.segs ++ [(t + ns 20, segOf counts)] }
  let s2 := (s1.raiseIf turned (pDom d) 5).setStopped d false
  if s.srcType d = 1 then s2.indexStep d p else s2

/-- One line of a position input through its filter: a level is accepted at the sample in which it has been seen
in FILTER + 1 consecutive samples (R31). (DEDUCED: assumption 30) -/
def filterLine (f : Nat) (l : Line) (level : Bool) (stamp : Nat) : Line × Bool :=
  if level = l.level then ({ l with n := 0 }, false)
  else
    let st := if l.n = 0 then stamp else l.stamp
    if f + 1 ≤ l.n + 1 then ({ level := level, n := 0, stamp := st }, true)
    else ({ l with n := l.n + 1, stamp := st }, false)

/-- The counts of one sample (Table 2.2): the direction, if it counts; `none` and an error in the QUAD modes when
A and B both change. `a b` before and `a' b'` after. -/
def quadCount (mode : Nat) (a b a' b' : Bool) : Option Bool × Bool :=
  let both := a != a' && b != b'
  if mode = 3 then (if !a && a' then some b else none, false)
  else if both then (none, true)
  else if mode = 0 then (if !a && a' then some (!b) else none, false)
  else if mode = 1 then (if a != a' then some (a' != b') else none, false)
  else if a != a' then (some (a' != b'), false)
  else if b != b' then (some (a' = b'), false)
  else (none, false)

/-- The nearest step of device time, a tie going to the later one (R58). -/
def roundStep (s : State) (t : Nat) : Nat := (t - s.resetEnd + 10) / timeStep * timeStep + s.resetEnd

/-- One sample of POSIN lines by an ENCODER domain (R31–R33). Stamps are taken to the step of device time.
(DEDUCED: assumption 171) -/
def encoderSample (s : State) (d : Nat) (la lb li : Bool) (ta tb ti : Nat) : State :=
  let x := s.dom d
  let sa := s.roundStep ta
  let sb := s.roundStep tb
  let si := s.roundStep ti
  if !x.enc.sampled then
    s.setDom d { x with enc := { x.enc with
      sampled := true, la := { level := la }, lb := { level := lb }, li := { level := li } } }
  else
    let f := s.rf (dreg d 0x080) 11 8
    let ra := filterLine f x.enc.la la sa
    let rb := filterLine f x.enc.lb lb sb
    let ri := filterLine f x.enc.li li si
    let q := quadCount (s.rf (dreg d 0x080) 1 0) x.enc.la.level x.enc.lb.level ra.1.level rb.1.level
    let idx := x.enc.idx || (ri.2 && ri.1.level)
    let stamp := if ra.2 then ra.1.stamp else rb.1.stamp
    let s1 := s.setDom d { x with enc := { x.enc with la := ra.1, lb := rb.1, li := ri.1, idx := idx } }
    let s2 := s1.raiseIf q.2 (pDom d) 7
    match q.1 with
    | none => s2
    | some fwd =>
      let fwd' := fwd != s.rb (dreg d 0x080) 2
      let y := s2.dom d
      let n := y.enc.accum + (if fwd' then 1 else -1)
      let dec : Int := s.rf (dreg d 0x080) 23 16 + 1
      let step : Int := s.rf (dreg d 0x084) 23 0 * posUnit
      if n = dec || n = -dec then
        (s2.setDom d { y with enc := { y.enc with accum := 0 } }).sourceCount d stamp
          (if 0 < n then step else -step)
      else s2.setDom d { y with enc := { y.enc with accum := n } }

/-! ### Commit of marks (R44, R45, R28) -/

/-- Whether a forward crossing of total position `q` is known too late to be placed: it lies earlier than 10 ns after
the present (R45). -/
def commitLate (s : State) (d : Nat) (q : Int) : Bool :=
  (s.countSource d && decide (q ≤ s.passedPos d)) || q ≤ trajAt (s.dom d).evTraj (s.now + ns 10 - 1)

/-- The same of a backward crossing of `q`. -/
def backLate (s : State) (d : Nat) (q : Int) : Bool :=
  (s.countSource d && decide (s.passedPos d < q)) || trajAt (s.dom d).evTraj (s.now + ns 10 - 1) < q

/-- The highest and the lowest total position that the trajectory in force resolves within 10 ns of the present. A count
resolves its own position, also where its estimate heads the other way. -/
def reachUp (s : State) (d : Nat) : Int :=
  let p := trajAt (s.dom d).evTraj (s.horizon d (ns 10))
  if s.countSource d then max p (s.passedPos d) else p
def reachDown (s : State) (d : Nat) : Int :=
  let p := trajAt (s.dom d).evTraj (s.horizon d (ns 10))
  if s.countSource d then min p (s.passedPos d) else p

/-- EVENT_COMMIT of a mark: the crossing that the trajectory in force places within 10 ns of the present is
committed, or skipped while SKIP counts down (R44, R51). -/
def markCommit (s : State) (d m : Nat) : State :=
  let x := s.dom d
  let p := s.reachUp d
  if !(s.domOn d s.now && s.homedOk d && s.armed d m) then s
  else if fld (s.markCtrl d m) 2 1 = 0 && x.committed.any (·.mark = m) then s
  else if bit (s.markCtrl d m) 3 then
    match x.peals.find? (fun w => w.mark = m && w.total ≤ p) with
    | none => s
    | some w => (s.setDom d { x with peals := x.peals.erase w }).commitFiring d m (s.commitLate d w.total) none
  else
    let mf := s.modFine d
    let pm : Int := s.markPos d m * posUnit
    let ahead := s.markAhead d m
    let ref := settleRef (s.markRef d m) ahead (s.passedPos d)
    let up := levelAbove pm mf (max ref ahead)
    let down := levelBelow pm mf (min ref ahead)
    let skip := fld (s.markCtrl d m) 31 16
    let hit (s : State) (late : Bool) : State :=
      if 0 < skip then s.wf (mreg d m 8) 31 16 (skip - 1) else s.commitFiring d m late none
    if up ≤ p then hit (s.setMarkRefs d m ref up) (s.commitLate d up)
    else if s.bidir d && s.reachDown d < down then
      hit (s.setMarkRefs d m ref (down - 1)) (s.backLate d down)
    else s

/-! ### Wraps (R27) -/

/-- The position passes the modulus: the cycle counter changes, CYCLE is raised forward, WRAP at a counter wrap. -/
def domWrap (s : State) (d : Nat) : State :=
  let x := s.dom d
  let c := s.totalAt d s.now / s.modFine d
  if !s.domOn d s.now then s
  else if x.wraps < c then
    ((s.setDom d { x with wraps := x.wraps + 1 }).raise (pDom d) 0).raiseIf
      ((x.wraps + 1) % 4294967296 = 0) (pDom d) 1
  else if c < x.wraps then
    (s.setDom d { x with wraps := x.wraps - 1 }).raiseIf (x.wraps % 4294967296 = 0) (pDom d) 1
  else s

/-! ### Mains (R38, R39) -/

/-- A domain stands still from the present instant on. -/
def domHalt (s : State) (d : Nat) : State :=
  let s := s.keepDue d
  let p := s.totalAt d s.now
  (s.setDom d { s.dom d with
    frontier := s.frontierNow d, traj := restAt s.now p, tail := none, exact := p, segs := [], counts := [] }).setStopped
      d true

/-- The positions of a mains cycle, in fine units. -/
def mainsCycle (s : State) (d : Nat) : Int := (s.rf (dreg d 0x0C0) 23 0 * 4096 : Nat) * posUnit

/-- MAINS_PHASE in fine units: position 0 stands that far after the zero crossing. -/
def mainsPhase (s : State) (d : Nat) : Int := signed 32 (s.rd (dreg d 0x0C4)).toNat * posUnit

/-- The largest locked phase error at constant frequency (Table 2.4). -/
def mainsBound (s : State) (d : Nat) : Int :=
  let bw := s.rf (dreg d 0x0C8) 1 0
  s.mainsCycle d * (if bw = 0 then 2 else if bw = 1 then 5 else 10) / 10000

/-- What a total position `p` at a zero crossing lacks to the phase, at most half a cycle either way. -/
def mainsLack (s : State) (d : Nat) (p : Int) : Int :=
  let c := max 1 (s.mainsCycle d)
  ((s.dom d).tracker.ref - s.mainsPhase d - p + c / 2) % c - c / 2

/-- The oscillator from a zero crossing on, at total position `p`: MAINS_PPC pos per `period`, in the phase of the crossing
but for an error within Table 2.4, the difference from there slewed away at up to 1 % of the velocity (R38, R39). The
error, and the rate beyond what removes the difference within a cycle, are free. (DESIGN CHOICE: assumption 28) -/
def mainsTraj (s : State) (d period : Nat) (p : Int) : Traj :=
  let v := s.mainsCycle d / (period : Int)
  let b := s.mainsBound d
  let lack := s.mainsLack d p + (s.freeInt % (2 * b + 1) - b)
  let top := v / 100
  let need := min top ((lack.natAbs : Int) / (period : Int) + 1)
  { t0 := s.now, p0 := p + lack, w := v, off := -lack
    slew := need + (Config.freeInt (s.free + 1)) % (top - need + 1) }

/-- The longest time to lock (Table 2.4). -/
def mainsLockMax (s : State) (d : Nat) : Nat :=
  let bw := s.rf (dreg d 0x0C8) 1 0
  ms (if bw = 0 then 4000 else if bw = 1 then 1000 else 400)

/-- The frequency of the cycle that ends now, in mHz, counts no more than 1 Hz/s of change from the one before, as the bounds
of Table 2.4 ask, at 0.2 V or more. -/
def mainsSteady (k : Tracker) (period mhz peak : Nat) : Bool :=
  let was := 1000 * second / max 1 k.period
  200 ≤ peak && 40000 ≤ mhz && mhz ≤ 70000 &&
    (k.period = 0 || (max was mhz - min was mhz) * second ≤ 1000 * period + second)

/-- A positive-going zero crossing at a MAINS domain, the input's amplitude being `peak` mV. Lock takes 8 good cycles and the
amplitude of MAINS_SENSE_CFG. Whether the phase error is good is free, but so that a steady input locks within the time of
Table 2.4. Of a locked tracker one crossing may be missing (R39). At the first lock the position becomes -MAINS_PHASE modulo M,
which is no jump and crosses nothing. (DESIGN CHOICE: assumption 28, DESIGN CHOICE: assumption 172) -/
def mainsCrossing (s : State) (d peak : Nat) : State :=
  let x := s.dom d
  let k := x.tracker
  match k.last with
  | none => s.setDom d { x with tracker := { k with last := some s.now, period := 0, since := s.now } }
  | some t0 =>
    let gap : Bool := k.locked && decide (3 * k.period ≤ 2 * (s.now - t0)) && decide (2 * (s.now - t0) < 5 * k.period)
    let period := max 1 ((s.now - t0) / (if gap then 2 else 1))
    let mhz := 1000 * second / period
    let inBand : Bool := 40000 ≤ mhz && mhz ≤ 70000
    let since := if mainsSteady k period mhz peak then k.since else s.now
    let phaseOk : Bool := s.freeInt % 1000000 ≤ 1000 || since + s.mainsLockMax d ≤ s.now + 9 * period
    let s1 := s.drew
    let good := if inBand && phaseOk then k.good + 1 else 0
    let k1 : Tracker := { k with last := some s.now, period := period, good := good, since := since }
    if k.locked then
      if inBand then
        let s2 := s1.setTraj d (s1.mainsTraj d period (trajAt x.traj s.now))
        ((s2.drewN 2).setDom d { s2.dom d with tracker := k1 }).wr (dreg d 0x0CC) (word mhz)
      else
        let hold := s.now + s.rf (dreg d 0x0C8) 15 8 * k.period
        (s1.setDom d { x with tracker := { k1 with locked := false, good := 0, holdEnd := some hold } }).raise (pDom d) 8
    else if 8 ≤ good && 4 * s.rf (dreg (s.srcInput d) 0x804) 7 0 ≤ peak then
      let base := s1.totalAt d s.now
      let phase := -s.mainsPhase d
      let mf := s.modFine d
      let first := (base / mf) * mf + phase % mf
      let fresh : Bool := !k.stoppedByHoldover && k.holdEnd.isNone
      let k2 := { k1 with locked := true, holdEnd := none, stoppedByHoldover := false
                          ref := if fresh then first - phase else k.ref }
      let s2 := (s1.setDom d { x with tracker := k2 }).keepDue d
      let s3 :=
        if fresh then s2.setDom d { s2.dom d with
          traj := restAt s.now first, exact := first, frontier := first, refBase := first, refs := [], aheads := []
          wraps := first / mf }
        else if k.stoppedByHoldover then s2.jump d (base + (k.ref + phase - base) % max 1 (s.mainsCycle d))
        else s2
      let s4 := s3.setTraj d (s3.mainsTraj d period (s3.totalAt d s.now))
      (((s4.drewN 2).wr (dreg d 0x0CC) (word mhz)).raise (pDom d) 9).setStopped d false
    else s1.setDom d { x with tracker := k1 }

/-- LOCK_LOST: two expected zero crossings are missing (R39), the second from half a cycle after its instant on.
(DEDUCED: assumption 188) -/
def lockLost (s : State) (d : Nat) : State :=
  let x := s.dom d
  if s.isOn (pDom d) && s.srcType d = 3 && x.tracker.locked
      && 2 * x.tracker.last.getD 0 + 5 * x.tracker.period ≤ 2 * s.now then
    (s.setDom d { x with tracker := { x.tracker with
      locked := false, good := 0, last := none
      holdEnd := some (s.now + s.rf (dreg d 0x0C8) 15 8 * x.tracker.period) } }).raise (pDom d) 8
  else s

/-- Holdover ends without lock: HOLDOVER_END, and the domain stops (R39). -/
def holdoverEnd (s : State) (d : Nat) : State :=
  let x := s.dom d
  if s.isOn (pDom d) && s.srcType d = 3 && x.tracker.holdEnd.any (· ≤ s.now) then
    ((s.setDom d { x with tracker := { x.tracker with holdEnd := none, stoppedByHoldover := true } }).raise
      (pDom d) 10).domHalt d
  else s

/-! ### Lattice source (R41) -/

/-- The instant, on this device's clock, of a lattice time. -/
def ltimeInstant (s : State) (lt : Nat) : Nat :=
  (s.resetEnd + ((lt : Int) - s.lat.ltOff) * timeStep).toNat

/-- The trajectory of a SEGMENT. -/
def gsegTraj (s : State) (g : GSeg) : Traj :=
  let m := if g.modulus = 0 then 2 ^ 40 else g.modulus
  { t0 := s.ltimeInstant g.ltime, p0 := ((g.cyc * (m * 4096) + g.pos : Nat) : Int) * posUnit
    w := g.vel * velUnit, acc := g.acc }

/-- A SEGMENT of the global domain that an ON LATTICE domain follows takes the place of a count (R286). A
difference up to 1 pos is removed by slewing at up to 1 % of the velocity, at a rate the spec does not state, until none
is left; a larger one is a jump (R41). The first update after a stop is no exception.
(DESIGN CHOICE: assumption 29) -/
def latticeFeed (s : State) (d : Nat) (g : GSeg) : State :=
  let s := s.keepDue d
  let x := s.dom d
  let j := s.gsegTraj g
  let new := trajAt j s.now
  let old := s.totalAt d s.now
  let y : Dom := { x with lastUpd := s.now, current := true, holdover := false }
  let moving : Bool := g.vel != 0 || g.acc != 0
  if new - old ≤ 4096 * posUnit && old - new ≤ 4096 * posUnit then
    let top := max 1 (((trajVel j s.now).natAbs : Int) / 100)
    let rate := if trajVel j s.now = 0 then 0 else 1 + s.freeInt % top
    ((s.drew.setDom d { y with
      frontier := s.frontierNow d
      traj := { j with t0 := s.now, p0 := new, w := trajVel j s.now, off := old - new, slew := rate } })).setStopped
        d (!moving)
  else
    let s1 := (s.setDom d y).jump d new
    (s1.setDom d { s1.dom d with traj := j }).setStopped d (!moving)

/-- Carillon holdover expires (R41). -/
def latHoldover (s : State) (d : Nat) : State :=
  let x := s.dom d
  if s.isOn (pDom d) && s.srcType d = 4 && (x.current || x.holdover || !x.stopped)
      && x.lastUpd + us (s.rf (dreg d 0x0E0) 15 0) ≤ s.now then
    (s.setDom d { x with current := false, holdover := false }).domHalt d
  else s

/-! ### Enable, disable (R445, R49) -/

/-- The RANGE conditions of a DOMAIN enable that apply to its source (R445). INDEX_POS is used, and so judged, under
LOAD_ONCE and LOAD_EVERY only. (DESIGN CHOICE: assumption 173) -/
def domRange (s : State) (d : Nat) : Bool :=
  let ty := s.srcType d
  let rawMod := s.posPair (dreg d 0x048) (dreg d 0x04C) / 4096
  5 < ty
  || (ty != 4 && rawMod = 1)
  || ((ty = 1 || ty = 5) && s.rd (dreg d 0x068) = 0)
  || (ty = 1 && s.rf (dreg d 0x084) 23 0 = 0)
  || (ty = 1 && 2 ≤ s.rf (dreg d 0x080) 4 3 && s.mod4096 d ≤ s.posPair (dreg d 0x088) (dreg d 0x08C))
  || (ty = 3 && 4 ≤ s.srcInput d)
  || (ty = 3 && (s.rf (dreg d 0x0C0) 23 0 = 0 || s.rf (dreg d 0x0C8) 1 0 = 3))
  || (ty = 4 && s.rf (dreg d 0x0E0) 15 0 < 50)
  || (ty = 5 && 96 ≤ s.srcRegion d)
  || (ty = 2 && maxRate < s.presetRate d 0)
  || (ty != 3 && ty != 4 && s.mod4096 d ≤ (s.dom d).pos)

/-- The dependency of Table 1.5. -/
def domDependency (s : State) (d : Nat) : Bool :=
  (s.srcType d = 4 && !(s.isOn pCar && s.gdomCurrent (s.srcGdom d)))
  || (s.srcType d = 5 && !s.isOn (pReg (s.srcRegion d)))

/-- Another ON FABRIC domain uses the region (R42). -/
def domConflict (s : State) (d : Nat) : Bool :=
  s.srcType d = 5 && (List.range 16).any (fun e =>
    e != d && s.isOn (pDom e) && s.srcType e = 5 && s.srcRegion e = s.srcRegion d)

/-- The consistency check of a DOMAIN page, in the order of Table 16.5. -/
def domCheck (s : State) (d : Nat) : Option Reason :=
  if s.domRange d then some .range
  else if s.domDependency d then some .dependency
  else if s.domConflict d then some .conflict
  else none

/-- The domain starts, its page already ON: from the kept position, from its global domain, or at position 0
(R49). Armed marks are judged (R54). MAINS_FREQ keeps its value until the next lock.
(DESIGN CHOICE: assumption 174) -/
def domStart (s : State) (d : Nat) : State :=
  let x := s.dom d
  let ty := s.srcType d
  let mf := s.modFine d
  let kept : Int := ((x.cyc * s.mod4096 d + x.pos : Nat) : Int) * posUnit
  let base := if ty = 3 then ((x.cyc * s.mod4096 d : Nat) : Int) * posUnit else kept
  let y : Dom := { x with
    traj := restAt s.now base, segs := [], stopped := true, reverse := false, frontier := base, wraps := base / mf
    past := [], offAt := 0
    counts := [], exact := base, lastCount := 0, tail := none, enc := {}, ramp := {}, req := none, tracker := {}
    lastUpd := s.now, current := false, holdover := false, refBase := base, refs := [], aheads := [], peals := [] }
  let s1 := s.setDom d y
  let s2 :=
    if ty = 0 then
      (s1.setDom d { y with traj := { t0 := s.now, p0 := base, w := (maxRate : Int) * velUnit } }).setStopped d false
    else if ty = 2 then s1.applyPreset d 0 y.traj none
    else if ty = 4 then
      match s1.lat.gdoms.find? (·.1 = s1.srcGdom d) with
      | some (_, g) =>
        let j := s1.gsegTraj g
        let p := trajAt j s1.now
        (s1.setDom d { y with
          traj := j, frontier := p, refBase := p, exact := p, wraps := p / mf, current := true }).setStopped d
            (g.vel = 0 && g.acc = 0)
      | none => s1
    else s1
  forEach (List.range 64) (fun m s => s.markJudge d m) s2

/-- The domain stops at the next page-clock cycle after a disable: position and cycle counter are kept as they stand then, and
the rest of R49 counts no more and is cleared by the next enable, the decimation accumulator with it. Committed events still
fire; nothing is raised. (DESIGN CHOICE: assumption 189) -/
def domStop (s : State) (d : Nat) : State :=
  let b := nextAfter pageCycle s.now
  let s := s.keepDue d
  s.setDom d { s.dom d with pos := s.posAt d b, cyc := s.cycAt d b, offAt := b }

/-! ### Snapshots and live reads (R55, R56) -/

/-- A capture of snapshot slot `k` in one pin cycle (R55). -/
def snapTake (s : State) (d k : Nat) (late : Bool) : State :=
  let x := s.dom d
  let o := tabGet ({} : Snap) x.snaps k
  let n : Snap := {
    pos := s.posAt d s.now, cyc := s.cycAt d s.now, vel := s.velNow d, time := s.devTime
    seq := (o.seq + 1) % 65536, valid := true, late := late, overrun := o.overrun || o.unread, unread := true }
  s.setDom d { x with snaps := tabPut x.snaps k n }

/-- SNAPn STAT (Table 2.17). -/
def snapStat (o : Snap) : Word :=
  word (o.seq + 65536 * b2n o.valid + 131072 * b2n o.late + 262144 * b2n o.overrun)

/-- A read of SNAP_STAT: the slot is copied into its read shadow, and OVERRUN clears (R55). -/
def snapRead (s : State) (d k : Nat) : State :=
  let x := s.dom d
  let o := tabGet ({} : Snap) x.snaps k
  let b := 0x200 + 32 * k
  let v := unsigned 64 o.vel
  let s1 := s.setDom d { x with snaps := tabPut x.snaps k { o with overrun := false, unread := false } }
  let s2 := ((s1.wr (dreg d b) (word o.pos)).wr (dreg d (b + 4)) (word (o.pos / 4294967296))).wr
    (dreg d (b + 8)) (word o.cyc)
  let s3 := ((s2.wr (dreg d (b + 12)) (word v)).wr (dreg d (b + 16)) (word (v / 4294967296)))
  let s4 := ((s3.wr (dreg d (b + 20)) (word o.time)).wr (dreg d (b + 24)) (word (o.time / 4294967296)))
  (s4.wr (dreg d (b + 28)) (snapStat o)).ret (snapStat o).toNat

/-- A read of POS_LO latches POS_HI and CYCLE into their shadows (R56). -/
def posRead (s : State) (d : Nat) : State :=
  let p := s.posAt d s.now
  ((s.wr (dreg d 0x054) (word (p / 4294967296))).wr (dreg d 0x058) (word (s.cycAt d s.now))).ret (p % 4294967296)

/-- A read of VEL_LO latches VEL_HI into its shadow (R56). -/
def velRead (s : State) (d : Nat) : State :=
  let v := unsigned 64 (s.velNow d)
  (s.wr (dreg d 0x064) (word (v / 4294967296))).ret (v % 4294967296)

/-- A write of LOAD_CTRL while EN = 0 (R49, R50, Table 2.12). -/
def loadWrite (d : Nat) (v : Word) (s : State) : State :=
  if s.enZero (pDom d) && bit v 0 then
    s.setDom d { s.dom d with
      pos := s.posPair (dreg d 0x070) (dreg d 0x074), cyc := (s.rd (dreg d 0x078)).toNat }
  else s

/-- A write of SHAFT_APPLY by an agent of rank `rank` (Table 2.14). -/
def shaftApplyWrite (d rank : Nat) (v : Word) (s : State) : State :=
  if bit v 3 then s.presetRequest d (fld v 2 0) rank none else s

/-- A write of SNAP_TRIG (Table 2.12). -/
def snapTrigWrite (d : Nat) (v : Word) (s : State) : State := if bit v 0 then s.snapTake d 0 false else s

/-- A write to a register of mark `m` (R54). Writing ARM = 1 clears FIRED and LATE, also where the conditions then disarm
the mark, reloads SKIP, and the mark waits for its next crossing; so it does after a write of POS. The conditions of R51
are judged on the registers as they stand after the write. (DESIGN CHOICE: assumption 175) -/
def markWrite (d m r : Nat) (v : Word) (s : State) : State :=
  if r = 2 then
    let old := s.markCtrl d m
    let keep := if bit v 0 then 0 else fld old 14 13
    let s0 := s.setDom d { s.dom d with
      committed := (s.dom d).committed.map fun f => if f.mark = m then { f with re := bit v 0 } else f }
    let s1 := s0.wr (mreg d m 8) (word (bits (v &&& 0xFFFF1F0F#32).toNat 31 0 + keep * 8192))
    (if bit v 0 then s1.rearmRef d m else s1).markJudge d m
  else
    let mask : Word := if r = 0 then 0xFFFFFFFF else if r = 1 then 0x000FFFFF else 0x3F700F07
    let s1 := s.wr (mreg d m (4 * r)) (v &&& mask)
    (if r < 2 && s1.armed d m then s1.rearmRef d m else s1).markJudge d m

/-- An increment strobe of REGION `r` (R42): one source count of the ON FABRIC domain that names the region. -/
def strobeCount (s : State) (d r : Nat) (inc : Int) : State :=
  if s.isOn (pDom d) && s.srcType d = 5 && s.srcRegion d = r && inc != 0 then
    s.sourceCount d s.now (inc * posUnit)
  else s

/-- A segment is published 20 ns after its stamp and takes the place of the one in force (R44). -/
def segPublish (s : State) (d : Nat) : State :=
  match (s.dom d).segs with
  | [] => s
  | (t, g) :: rest =>
    if t ≤ s.now && s.isOn (pDom d) then
      let s1 := s.setTraj d g
      s1.setDom d { s1.dom d with segs := rest }
    else s

/-- STOP_TIMEOUT × 10 ns without a count: the domain stands at the position of its last count, and the events that the
segment in force resolved still fire (R48). Until then the position goes on by that segment.
(DESIGN CHOICE: assumption 176) -/
def stopTimeout (s : State) (d : Nat) : State :=
  let s := s.keepDue d
  let x := s.dom d
  if s.isOn (pDom d) && (s.srcType d = 1 || s.srcType d = 5) && !x.stopped
      && x.lastCount + ns (10 * (s.rd (dreg d 0x068)).toNat) ≤ s.now then
    (s.setDom d { x with
      frontier := s.frontierNow d, traj := restAt s.now x.exact, tail := some x.traj, segs := []
      counts := [] }).setStopped d true
  else s

end State

/-! ### The commands -/

/-- ENCODER_SAMPLE (R31): every ON ENCODER domain that selects POSIN `i` takes the sample. -/
def execEncoderSample (t i : Nat) (la lb li : Bool) (sa sb si : Nat) : State → Host.Outcome State Fault Refusal :=
  run t (forEach (List.range 16) fun d s =>
    if s.isOn (pDom d) && s.srcType d = 1 && s.srcInput d = i then s.encoderSample d la lb li sa sb si else s)

/-- EVENT_COMMIT (R44). -/
def execEventCommit (t d m : Nat) : State → Host.Outcome State Fault Refusal := run t (·.markCommit d m)
/-- DOMAIN_WRAP (R27). -/
def execDomainWrap (t d : Nat) : State → Host.Outcome State Fault Refusal := run t (·.domWrap d)
/-- STOP_TIMEOUT (R48). -/
def execStopTimeout (t d : Nat) : State → Host.Outcome State Fault Refusal := run t (·.stopTimeout d)
/-- SHAFT_APPLY (R36). -/
def execShaftApply (t : Nat) (a : Agent) (d : Nat) (v : Word) : State → Host.Outcome State Fault Refusal :=
  run t (gateW a (pDom d) (State.shaftApplyWrite d (match a with | .region r => 1 + r | .seq q => 97 + q | _ => 0) v))
/-- RATE_REACHED (R36). -/
def execRateReached (t d : Nat) : State → Host.Outcome State Fault Refusal := run t (·.rateReached d)
/-- MAINS_ZERO_CROSSING (R38): every ON MAINS domain that selects the input takes the crossing. -/
def execMainsZeroCrossing (t : Nat) (c : MainsCycle) : State → Host.Outcome State Fault Refusal :=
  run t (forEach (List.range 16) fun d s =>
    if s.isOn (pDom d) && s.srcType d = 3 && s.srcInput d = c.sense then s.mainsCrossing d c.peak.toNat else s)
/-- LOCK_LOST (R39). -/
def execLockLost (t d : Nat) : State → Host.Outcome State Fault Refusal := run t (·.lockLost d)
/-- HOLDOVER_END (R39). -/
def execHoldoverEnd (t d : Nat) : State → Host.Outcome State Fault Refusal := run t (·.holdoverEnd d)
/-- LAT_HOLDOVER_EXPIRY (R41). -/
def execLatHoldoverExpiry (t d : Nat) : State → Host.Outcome State Fault Refusal := run t (·.latHoldover d)
/-- MARK_WRITE (R54). -/
def execMarkWrite (t : Nat) (a : Agent) (d m r : Nat) (v : Word) : State → Host.Outcome State Fault Refusal :=
  run t (gateO a (pDom d) (0x400 + 16 * m + 4 * r) (State.markWrite d m r v))
/-- SNAP_CAPTURE (R55). -/
def execSnapCapture (t : Nat) (a : Agent) (d : Nat) (v : Word) : State → Host.Outcome State Fault Refusal :=
  run t (gateW a (pDom d) (State.snapTrigWrite d v))
/-- SNAP_STAT_READ (R55). -/
def execSnapStatRead (t d k : Nat) : State → Host.Outcome State Fault Refusal :=
  run t (gateR (pDom d) (·.snapRead d k))
/-- POS_LO_READ (R56). -/
def execPosLoRead (t d : Nat) : State → Host.Outcome State Fault Refusal := run t (gateR (pDom d) (·.posRead d))
/-- VEL_LO_READ (R56). -/
def execVelLoRead (t d : Nat) : State → Host.Outcome State Fault Refusal := run t (gateR (pDom d) (·.velRead d))
/-- LOAD (R49). -/
def execLoad (t : Nat) (a : Agent) (d : Nat) (v : Word) : State → Host.Outcome State Fault Refusal :=
  run t (gateW a (pDom d) (State.loadWrite d v))

end Sys2Proof.Machine
end

