-- ==== Sys2Proof/Machine/Pads.lean ====
section
/-! DEFINITION. Machine/Pads.lean: what a pad obeys (Table 4.6), its readback (Table 4.9), the comparators as each
owner sees them (R74, R109, R112, R144), and the resolution of edges in time or position (R58, R60, R86). -/
namespace Sys2Proof.Machine

/-- The page of an owner code (Table 4.1); none for NONE, FABRIC, HOST and the reserved codes. -/
def ownerPage (c : Nat) : Option Nat :=
  if 0x10 ≤ c && c < 0x40 then some (pSeq (c - 0x10))
  else if 0x40 ≤ c && c < 0x60 then some (0x050 + (c - 0x40))
  else if 0x60 ≤ c && c < 0x80 then some (0x070 + (c - 0x60))
  else if 0x80 ≤ c && c < 0x98 then some (0x090 + (c - 0x80))
  else if 0x98 ≤ c && c < 0xA0 then some (0x0A8 + (c - 0x98))
  else none

/-- The codes of Table 4.1 that are not reserved. -/
def ownerCodeOk (c : Nat) : Bool := c = 0 || c = 1 || c = 0xF0 || (ownerPage c).isSome

/-- The bank voltage that BANK_V selects, in mV (Table 3.10). -/
def bankMv (c : Nat) : Nat :=
  if c = 0 then 1200 else if c = 1 then 1500 else if c = 2 then 1800 else if c = 3 then 2500 else 3300

/-- Drive options by bank voltage (Table 4.8). -/
def drvOk (bank drv : Nat) : Bool := drv != 3 && !(bank = 0 && drv = 2)
def serRateOk (bank rate : Nat) : Bool := rate = 0 || bank < 3

/-- The region that serves a pin (R180). -/
def pinRegion (i : Nat) : Nat := 2 * (i / 64) + (i % 64) / 32

namespace State

def greg (g off : Nat) : Nat := reg (pGrp g) off
def cfgReg (i : Nat) : Nat := greg (i / 64) (0x100 + 4 * (i % 64))
def threshReg (i : Nat) : Nat := greg (i / 64) (0x200 + 4 * (i % 64))
def captReg (i : Nat) : Nat := greg (i / 64) (0x300 + 4 * (i % 64))
def ownReg (i : Nat) : Nat := greg (i / 64) (0x600 + 4 * (i % 64))

/-- PIN_CFG of a pin as it is in force at instant `t`; MODE apart, which a function switch changes (Table 3.14). -/
def cfgAt (s : State) (i t : Nat) : Word := s.rdAt (cfgReg i) t

/-- PIN_CFG of a pin as it is in force. -/
def cfgNow (s : State) (i : Nat) : Word := s.cfgAt i s.now

/-- The pin's owner code (R97). -/
def owner (s : State) (i : Nat) : Nat := s.rf (ownReg i) 31 24
def bankV (s : State) (g : Nat) : Nat := s.rf (greg g 0x040) 6 4
def grpDomain (s : State) (g : Nat) : Nat := s.rf (greg g 0x040) 3 0
/-- PIN_OWN.BREAK in units of time. -/
def breakTime (s : State) (i : Nat) : Nat := s.rf (ownReg i) 19 12 * pinCycle
/-- TRACE_COMP of a pin in units of time, signed (R86). (DEDUCED: assumption 42) -/
def traceComp (s : State) (i : Nat) : Int :=
  signed 12 (s.rd (greg (i / 64) (0x900 + 4 * (i % 64)))).toNat * timeStep

/-- A Gong is in force (R293). -/
def gong (s : State) : Bool := s.rb (reg pRtr 0x064) 0

/-- VCCIO lies within 5 % of the bank voltage (R93). -/
def inBand (s : State) (g mv : Nat) : Bool :=
  let b := bankMv (s.bankV g)
  decide (95 * b ≤ 100 * mv) && decide (100 * mv ≤ 105 * b)

/-- VCCIO_OK as the last measurement left it. -/
def vccioOk (s : State) (g : Nat) : Bool := s.rb (greg g 0x044) 1

/-! ### Precedence (Table 4.6) -/

/-- A region's ports present park values (R178). -/
def regionParked (s : State) (r : Nat) : Bool :=
  !s.isOn (pReg r) || s.rb (reg (pReg r) 0x040) 6 || (tabGet ({} : Region) s.regions r).parkedAt.isSome

/-- The owner is under self-test, or the pin is FABRIC-owned and its serving region parks (Table 4.6 row 5). -/
def ownerParks (s : State) (i : Nat) : Bool :=
  if s.owner i = 1 then s.regionParked (pinRegion i)
  else match ownerPage (s.owner i) with
    | some p => s.inSelftest p
    | none => false

/-- The ACTIVE reflex cell on a pin, if any. -/
def cellOn (s : State) (i : Nat) : Option Nat :=
  (List.range 16).find? fun k =>
    (tabGet ({} : Reflex) (s.grp (i / 64)).rfx k).active && s.rf (greg (i / 64) (0x408 + 16 * k)) 21 16 = i % 64

/-- The row of Table 4.6 that governs a pad. (DEDUCED: assumption 45) -/
def padRank (s : State) (i : Nat) : Nat :=
  let g := i / 64
  let x := s.pin i
  if (s.grp g).mv ≤ 1000 || s.pwr.phase = .done || s.pwr.phase = .reset then 1
  else if s.isOn (pGrp g) && (s.grp g).padsOff then 2
  else if s.inSelftest (pGrp g) && s.rb (reg (pGrp g) oCtrl) 0 then (if s.gong then 4 else 5)
  else if !s.isOn (pGrp g) then 3
  else if s.gong then 4
  else if s.ownerParks i || x.brk.isSome || x.after.isSome then 5
  else if x.analog then 6
  else if (s.cellOn i).isSome then 7
  else 8

/-- Output enable and level of a park state (Table 4.4). -/
def parkOut (s : State) (i : Nat) : Bool × Bool :=
  let k := s.rf (ownReg i) 21 20
  if k = 0 then (false, (s.pin i).hold) else if k = 1 then (false, false)
  else if k = 2 then (true, false) else (true, true)

/-- Output enable and level of a reflex cell's output (R81). -/
def cellOut (s : State) (g k : Nat) : Bool × Bool :=
  let out := (tabGet ({} : Reflex) (s.grp g).rfx k).pad
  let m := s.rf (greg g (0x408 + 16 * k)) 29 28
  if m = 0 then (true, out) else if m = 1 then (out, true) else (out, false)

/-- What the governing row makes of the pad: SOURCE, output enable and level (Table 4.9), a COMPANION apart. -/
def padOwn (s : State) (i : Nat) : Nat × Bool × Bool :=
  let r := s.padRank i
  let src (n : Nat) : Nat := if s.owner i = 0 then 3 else n
  if r ≤ 3 then (3, false, false)
  else if r ≤ 5 then (src 2, s.parkOut i)
  else if r = 6 then (src 0, false, (s.pin i).lvl)
  else match (if r = 7 then s.cellOn i else none) with
    | some k => (src 1, s.cellOut (i / 64) k)
    | none => if s.owner i = 0 then (3, false, false) else (0, (s.pin i).oe, (s.pin i).lvl)

/-- The pin is the direction output of the pin below it (R125). -/
def companion (s : State) (i : Nat) : Bool := i % 2 = 1 && s.rb (ownReg i) 6

/-- A row of Table 4.6 that comes to govern the pin does so only from a later pin-cycle boundary: the pad till then (R113). -/
def padLag (s : State) (i : Nat) : Option (Nat × Bool × Bool) :=
  match (s.pin i).lag with
  | some (t, o) => if s.now < t then some o else none
  | none => none

/-- SOURCE, output enable and level of a pin under Table 4.6; a companion mirrors the output enable as the pin below it
has it (R113, R125). -/
def padRule (s : State) (i : Nat) : Nat × Bool × Bool :=
  let r := s.padRank i
  if s.companion i && !(r ≤ 3 || r = 6) then
    let b := s.padRank (i - 1)
    match s.padLag (i - 1) with
    | some o => ((if o.1 = 2 then 2 else 0), true, o.2.1)
    | none => ((if b = 4 || b = 5 then 2 else 0), true, (s.padOwn (i - 1)).2.1)
  else s.padOwn i

/-- The TAP instructions that take the pins (R122). -/
def irExtest : Nat := 0x03
def irHighz : Nat := 0x04
def irClamp : Nat := 0x05

/-- SOURCE, output enable and level of a pin as it stands: a row of Table 4.6 that comes to govern it does so from the next
pin-cycle boundary (R113). -/
def padNow (s : State) (i : Nat) : Nat × Bool × Bool := (s.padLag i).getD (s.padRule i)

/-- SOURCE, output enable and level of a pin: under EXTEST and CLAMP the boundary cell drives, under HIGHZ the driver is
off; a pin of a bank without VCCIO is never driven (R122). -/
def padOut (s : State) (i : Nat) : Nat × Bool × Bool :=
  let o := s.padNow i
  let live : Bool := 1000 < (s.grp (i / 64)).mv
  if s.jtag.ir = irExtest || s.jtag.ir = irClamp then
    (if live then (o.1, s.jtag.cells.getD i (false, false)) else (o.1, false, false))
  else if s.jtag.ir = irHighz then (o.1, false, o.2.2)
  else o

/-! ### Comparators -/

/-- The comparators run while the pin is in digital mode and the group is ON (R74). -/
def cmpRuns (s : State) (i : Nat) : Bool := s.isOn (pGrp (i / 64)) && s.rf (cfgReg i) 9 8 = 0

/-- The comparators' outputs at instant `t`, from the present on. -/
def cmpHeld (x : Pin) (t : Nat) : Bool × Bool :=
  match x.cmpNext with
  | some (u, v) => if u ≤ t then v else (x.cmph, x.cmpl)
  | none => (x.cmph, x.cmpl)

/-- CMPH and CMPL at instant `t` as the pad gives them: 0 in analogue mode and while the comparators do not run, undefined for
500 ns after a THRESH write (R75). (DESIGN CHOICE: assumption 37) -/
def cmpAt (s : State) (i t : Nat) : Bool × Bool :=
  if !s.cmpRuns i then (false, false)
  else if t < (s.pin i).undefTo then Config.undefCmp i t else cmpHeld (s.pin i) t

/-- CMPH and CMPL as the pad gives them. -/
def cmpNow (s : State) (i : Nat) : Bool × Bool := s.cmpAt i s.now

/-- The threshold of code `c` on pin `i`, in 1/1024 µV, and the accuracy of its switching levels (R74, Table 15.6). -/
def threshUv (s : State) (i c : Nat) : Int := c * (bankMv (s.bankV (i / 64)) * 1000 : Nat)
def threshAcc (s : State) (i : Nat) : Int := ((bankMv (s.bankV (i / 64)) * 5 / 2 + 5000) * 1024 : Nat)

/-- Half the hysteresis of a pin in force at instant `t`, in 1/1024 µV (PIN_CFG.HYST). -/
def hystHalf (s : State) (i t : Nat) : Int :=
  match fld (s.cfgAt i t) 13 12 with
  | 0 => 0 | 1 => 5000 * 1024 | 2 => 12500 * 1024 | _ => 25000 * 1024

/-- A trim of the pin was written by software since the reset: its accuracy is undefined (R85). -/
def trimmed (s : State) (i : Nat) : Bool :=
  s.trims.any fun e => e.1 = greg (i / 64) (0x800 + 4 * (i % 64)) || e.1 = greg (i / 64) (0xA00 + 4 * (i % 64))

/-- Whether the pad at `uv` µV reads as above the threshold of code `c`, where it read `above` at `old` µV: it changes at
half the hysteresis, `h`, beyond the threshold in the direction of travel. None within the accuracy of a switching level, where
the device does not fix it (R74), and after a write of the pin's trims (R85). -/
def cmpSide (s : State) (i : Nat) (h : Int) (c uv old : Nat) (above : Bool) : Option Bool :=
  let u : Int := uv * 1024
  let θ := s.threshUv i c
  let a := s.threshAcc i
  if s.trimmed i then none
  else if above then
    if old ≤ uv && old != uv then some true else if θ - h + a < u then some true else if u < θ - h - a then some false else none
  else
    if uv ≤ old && old != uv then some false else if u < θ + h - a then some false else if θ + h + a < u then some true else none

/-- CMPH and CMPL with the pad gone from `old` to `uv` µV under half the hysteresis `h`, where they read `c`; `hi` and `lo`
where R74 leaves them open. -/
def cmpPair (s : State) (i : Nat) (h : Int) (uv old : Nat) (c : Bool × Bool) (hi lo : Bool) : Bool × Bool :=
  ((s.cmpSide i h (s.rf (threshReg i) 25 16) uv old c.1).getD hi,
    !(s.cmpSide i h (s.rf (threshReg i) 9 0) uv old (!c.2)).getD (!lo))

/-- The pad's ball goes to `uv` µV: CMPH, CMPL and the side of VCCIO/2 it then stands on. `hi` and
`lo` are CMPH and CMPL where R74 leaves them open, and the side is free at exactly VCCIO/2.
(DESIGN CHOICE: assumption 177) -/
def cmpTo (s : State) (i uv : Nat) (hi lo : Bool) : Bool × Bool × Bool :=
  let x := s.pin i
  let half := (s.grp (i / 64)).mv * 1000
  let v := s.cmpPair i (s.hystHalf i s.now) uv x.uv (cmpHeld x s.now) hi lo
  (v.1, v.2, if 2 * uv = half then s.freeBool else decide (half < 2 * uv))

/-- CMPH and CMPL from the boundary on at which a written hysteresis takes effect, if one waits, with the pad at `uv` µV and the
outputs `v` before. -/
def cmpLater (s : State) (i uv : Nat) (v : Bool × Bool) : Option (Nat × Bool × Bool) :=
  match s.lagged.find? (·.1 = cfgReg i) with
  | some e =>
    if e.2.1 ≤ s.now || s.hystHalf i s.now = s.hystHalf i e.2.1 then none
    else some (e.2.1, s.cmpPair i (s.hystHalf i e.2.1) uv uv v (Config.freeBool (s.free + 3)) (Config.freeBool (s.free + 4)))
  | none => none

/-- The owner's input over time with the comparators at `v` from the present on, and then at `next`; it does not see them while
it is frozen. -/
def histOn (s : State) (x : Pin) (v : Bool × Bool) (next : Option (Nat × Bool × Bool)) : List (Nat × Bool × Bool) :=
  if x.frozen.isSome then x.hist
  else next.toList ++ (s.now, v) :: (x.hist.filter fun e => decide (e.1 ≤ s.now))

/-- The comparators of a pin take their outputs afresh from the pad where it stands: at the start of their group, after a
write of THRESH or HYST, and at a return to digital mode. -/
def cmpRefresh (i : Nat) (s : State) : State :=
  let x := s.pin i
  let v := s.cmpTo i x.uv (Config.freeBool (s.free + 1)) (Config.freeBool (s.free + 2))
  let next := s.cmpLater i x.uv (v.1, v.2.1)
  (s.setPin i { x with
    cmph := v.1, cmpl := v.2.1, mid := v.2.2, cmpNext := next
    hist := s.histOn x (v.1, v.2.1) next }).drewN 5

/-- The input that the present owner reads: frozen for two pin cycles after a boundary (Table 4.3). -/
def ownerInput (s : State) (i : Nat) : Bool × Bool :=
  match (s.pin i).frozen with
  | some v => v.2
  | none => s.cmpNow i

/-- What the agent of an owner code reads on a pin: a frozen value once it lost the pin (R112), on a pin in analogue mode too.
(DESIGN CHOICE: assumption 200) -/
def inputOf (s : State) (i code : Nat) : Bool × Bool :=
  if s.owner i = code then s.ownerInput i
  else match (s.pin i).seen.find? (·.1 = code) with
    | some (_, _, v) => v
    | none => s.cmpNow i

/-- The value of a history at instant `t`. -/
def histAt : List (Nat × Bool × Bool) → Nat → Bool × Bool
  | [], _ => (false, false)
  | (a, v) :: r, t => if a ≤ t then v else histAt r t

/-- The input of pin `i` that the agent of an owner code had at instant `t`: the comparators while it owns the pin, else the
value frozen when it lost it, else 0 and 0 (R112, R144). -/
def seenAt (s : State) (code i t : Nat) : Bool × Bool :=
  if s.owner i = code then histAt (s.pin i).hist t
  else match (s.pin i).seen.find? (·.1 = code) with
    | some (_, since, v) => if t < since then histAt (s.pin i).hist t else v
    | none => (false, false)

/-- The spans of a history inside [a, b), latest first: start, end and value. -/
def histSpans : List (Nat × Bool × Bool) → Nat → Nat → List (Nat × Nat × Bool × Bool)
  | [], a, b => if a < b then [(a, b, false, false)] else []
  | (t, v) :: r, a, b =>
    if b ≤ t then histSpans r a b
    else if t ≤ a then [(a, b, v)]
    else (t, b, v) :: histSpans r a t

/-- The spans of the input of an owner code inside [a, b), latest first: the comparators while it owns the pin, the value
frozen from when it lost it (R112). -/
def seenSpans (s : State) (code i a b : Nat) : List (Nat × Nat × Bool × Bool) :=
  if s.owner i = code then histSpans (s.pin i).hist a b
  else match (s.pin i).seen.find? (·.1 = code) with
    | some (_, since, v) =>
      (if max a since < b then [(max a since, b, v)] else []) ++ histSpans (s.pin i).hist a (min b since)
    | none => [(a, b, false, false)]

/-- The longest run in which `bad` holds, given the run under way and the longest so far. -/
def longestRun (bad : Bool × Bool → Bool) : List (Nat × Nat × Bool × Bool) → Nat → Nat → Nat
  | [], run, best => max run best
  | (a, b, v) :: r, run, best =>
    if bad v then longestRun bad r (run + (b - a)) best else longestRun bad r 0 (max run best)

/-- A compare code passes on comparator outputs (Table 3.3). -/
def codePass (code : Nat) (v : Bool × Bool) : Bool :=
  if code = 3 then v.2 else if code = 4 then v.1 else !v.1 && !v.2

/-! ### Readback (R119) -/

/-- The comparators disagree with the level driven. -/
def padDisagrees (s : State) (i : Nat) : Bool :=
  let o := s.padOut i
  let c := s.cmpNow i
  o.2.1 && s.cmpRuns i && (if o.2.2 then !c.1 else !c.2)

/-- The instant since which the pad disagrees is kept up, and that of the pad's last change of output enable or level. -/
def disPin (i : Nat) (s : State) : State :=
  let x := s.pin i
  let o := (s.padOut i).2
  let moved := if (x.moved.map (·.2)).getD (false, false) = o then x.moved else some (s.now, o)
  let dis := if s.padDisagrees i then some (x.disagree.getD s.now) else none
  if moved = x.moved && dis = x.disagree then s else s.setPin i { x with disagree := dis, moved := moved }

/-- It is kept up for a pin and for the companion that mirrors it (R125). -/
def disSync (s : State) (i : Nat) : State :=
  if s.companion (i + 1) then disPin (i + 1) (disPin i s) else disPin i s

/-- The effect `f` changes the row of Table 4.6 that governs a pin, or the drive under that row: a row that stops applying, and
a change under one row, act from the next pin-cycle boundary; a higher row that starts to apply governs at once (R113), unless
`late` says that it too waits for the boundary (R116). -/
def lagBy (late : Bool) (is : List Nat) (f : State → State) (s : State) : State :=
  let t := nextAfter pinCycle s.now
  forEach is (fun i u =>
    if u.padRule i = s.padNow i then u
    else if !late && decide (u.padRank i < s.padRank i) then disSync (u.setPin i { u.pin i with lag := none }) i
    else
      let v := disSync { u.setPin i { u.pin i with lag := some (t, s.padNow i) } with now := t } i
      { v with now := u.now }) (f s)

/-- The rows of Table 4.6 as most causes move them (R113). -/
def lagPins (is : List Nat) (f : State → State) (s : State) : State := lagBy false is f s

/-- The listed pins that the unit of page `p` holds: those of a group, those that a region serves to FABRIC, those of an owner. -/
def pagePins (s : State) (p : Nat) : List Nat :=
  (s.pins.map (·.1)).filter fun i =>
    pGrp (i / 64) = p || (s.owner i = 1 && pReg (pinRegion i) = p) || ownerPage (s.owner i) = some p

/-- CONTENTION (Table 4.9). -/
def contention (s : State) (i : Nat) : Bool :=
  let x := s.pin i
  s.padDisagrees i && decide (x.undefTo ≤ s.now) &&
    (match x.disagree with
     | none => false
     | some t =>
       decide (max t (max (x.lastAt.getD 0) ((x.moved.map (·.1)).getD 0) + 4 * pinCycle) + 4 * pinCycle ≤ s.now))

/-- The PAD field of a pin. -/
def padField (s : State) (i : Nat) : Nat :=
  let c := s.cmpNow i
  8 * b2n (s.contention i) + 4 * b2n (decide (s.padRank i = 6)) + 2 * b2n c.1 + b2n c.2

/-- The DRIVEN field of a pin. -/
def drivenField (s : State) (i : Nat) : Nat :=
  let o := s.padOut i
  4 * o.1 + 2 * b2n o.2.1 + b2n o.2.2

/-- DRIVENk and PADk of a group. -/
def drivenReg (s : State) (g k : Nat) : Word :=
  word ((List.range 8).map fun n => s.drivenField (64 * g + 8 * k + n) * 16 ^ n).sum
def padReg (s : State) (g k : Nat) : Word :=
  word ((List.range 8).map fun n => s.padField (64 * g + 8 * k + n) * 16 ^ n).sum

/-! ### Pulls (R117, R120) -/

/-- What holds a pad whose driver is off: nothing, 50 kΩ to ground or to VCCIO, or the keeper with the level it holds
(Table 4.7). -/
inductive Pull where
  | none | down | up
  | keeper (level : Bool)
deriving DecidableEq, Repr

/-- PIN_OWN.PULL of a pin with the pad on the side `level` of VCCIO/2. -/
def pullOf (k : Nat) (level : Bool) : Pull :=
  if k = 0 then .none else if k = 1 then .down else if k = 2 then .up else .keeper level

/-- The TAP instruction holds the pins (R122). -/
def scanHolds (ir : Nat) : Bool := ir = irExtest || ir = irClamp || ir = irHighz

/-- The pull on a pad: none while the driver is on; 50 kΩ to ground in a bank without VCCIO, whatever PULL says (R120); PULL
while boundary scan holds the pins (R122); 50 kΩ to ground under rank 1 of Table 4.6; under the park state HOLD the keeper
with the level held (Table 4.4); on its analogue bus none; else PULL, before the group's first enable too, the keeper
holding the side of VCCIO/2 on which the pad stands (R117). (DEDUCED: assumption 178) -/
def padPull (s : State) (i : Nat) : Pull :=
  let r := s.padRank i
  let k := s.rf (ownReg i) 11 10
  if (s.padOut i).2.1 then .none
  else if (s.grp (i / 64)).mv ≤ 1000 then .down
  else if scanHolds s.jtag.ir then pullOf k (s.pin i).mid
  else if r = 1 then .down
  else if (r = 4 || r = 5) && s.rf (ownReg i) 21 20 = 0 && !s.companion i then .keeper (s.pin i).hold
  else if r = 6 then .none
  else pullOf k (s.pin i).mid

/-! ### Parks (R113, R114) -/

/-- The logic level at a pad, judged at VCCIO/2 (Table 4.4): the level driven, else as the pad stands. -/
def padLevel (s : State) (i : Nat) : Bool :=
  let o := s.padOut i
  if o.2.1 then o.2.2 else (s.pin i).mid

/-- A park cause starts: under HOLD the keeper holds the level the pad has at that instant. -/
def parkStart (s : State) (i : Nat) : State :=
  if s.padRank i = 4 || s.padRank i = 5 then s
  else s.setPin i { s.pin i with hold := s.padLevel i }

/-- A rank-4 or rank-5 cause other than a break interval has ended: if none is left, the pad stays in its park state
for BREAK pin cycles more, from the boundary `t` on (R114). -/
def parkRestAt (s : State) (t i : Nat) : State :=
  let x := s.pin i
  if s.gong || s.ownerParks i || x.brk.isSome || !s.isOn (pGrp (i / 64)) then s
  else s.setPin i { x with after := some (t + s.breakTime i) }

/-- The break interval begins at the next pin-cycle boundary. -/
def parkRest (s : State) (i : Nat) : State := s.parkRestAt (nextAfter pinCycle s.now) i

/-- The listed pins of a group. -/
def groupPins (s : State) (g : Nat) : List Nat := (s.pins.map (·.1)).filter fun i => i / 64 = g

end State

end Sys2Proof.Machine
end

