-- ==== Sys2Proof/Machine/Blocks.lean ====
section
/-! DEFINITION. Machine/Blocks.lean: what the CAN, LIN, SENT and Ethernet blocks share (10_host_protocol_blocks.md):
pins and quiet, entries and FIFOs, stamps, enable and disable. -/
namespace Sys2Proof.Machine

/-- The protocol pages. -/
def protoPages : List Nat := (List.range 96).map (0x050 + ·)

/-- TX and RX FIFO sizes in entries (Table 10.12). -/
def txSize : Block → Nat | .can => 32 | .lin => 16 | .sent => 16 | _ => 64
def rxSize : Block → Nat | .can => 64 | .lin => 32 | .sent => 64 | _ => 64

/-- Status codes (Table 10.11). -/
def psOk : Nat := 0
def psAborted : Nat := 1
def psBus : Nat := 2
def psNoResp : Nat := 3
def psCheck : Nat := 4
def psFormat : Nat := 5
def psArb : Nat := 6
def psBusOff : Nat := 7

/-- One bit, and one byte, of the CRC-32 of IEEE 802.3. -/
def ethBit (c : Nat) : Nat := if c % 2 = 1 then Nat.xor (c / 2) 0xEDB88320 else c / 2
def ethByte (c : Nat) (b : Byte) : Nat := (List.range 8).foldl (fun c _ => ethBit c) (Nat.xor c b.toNat)

/-- The IEEE 802.3 CRC-32 of an address, by which the multicast filter is indexed (Table 10.15). -/
def ethCrc (bs : List Byte) : Nat := Nat.xor (bs.foldl ethByte 0xFFFFFFFF) 0xFFFFFFFF

/-- The protected identifier of LIN: two parity bits above the identifier. (PRESUMED: assumption 211) -/
def linPid (id : Nat) : Nat :=
  let b (i : Nat) : Bool := nbit id i
  id % 64 + 64 * b2n (b 0 ^^ b 1 ^^ b 2 ^^ b 4) + 128 * b2n (!(b 1 ^^ b 3 ^^ b 4 ^^ b 5))

/-- The checksum of a LIN frame: classic over the data, enhanced over the protected identifier too; identifiers 60 and 61 have the
classic one. (PRESUMED: assumption 211) -/
def linSum (enh : Bool) (id : Nat) (bs : List Byte) : Byte :=
  let first := if enh && id % 64 < 60 then [linPid id] else []
  BitVec.ofNat 8 (255 - (first ++ bs.map (·.toNat)).foldl (fun a b => let c := a + b; if 255 < c then c - 255 else c) 0)

/-- The data nibbles of a SENT entry, the first in the low bits. (DESIGN CHOICE: assumption 217) -/
def sentNibbles (n : Nat) (bs : List Byte) : List Nat := (List.range n).map fun i => bits (bytesNat bs) (4 * i + 3) (4 * i)

/-- The CRC of SENT data nibbles: polynomial x^4 + x^3 + x^2 + 1, start 5; the recommended one takes a last nibble of 0.
(PRESUMED: assumption 211) -/
def sentCrc (legacy : Bool) (ns : List Nat) : Nat :=
  let step (c : Nat) : Nat := [0, 13, 7, 10, 14, 3, 9, 4, 1, 12, 6, 11, 15, 2, 8, 5].getD (c % 16) 0
  let c := ns.foldl (fun c d => Nat.xor (step c) d % 16) 5
  if legacy then c else step c

namespace State

/-- The block of a protocol page. -/
def proto (s : State) (p : Nat) : Proto := tabGet {} s.protos p
def setProto (s : State) (p : Nat) (x : Proto) : State := { s with protos := tabPut s.protos p x }

/-! ### Pins (R317, R318) -/

/-- PIN_A and PIN_B. -/
def pinA (s : State) (p : Nat) : Word := s.rd (reg p 0x044)
def pinB (s : State) (p : Nat) : Word := s.rd (reg p 0x048)
def pinsFrom (w : Word) (off n : Nat) : List Nat :=
  if bit w 31 then (List.range n).map fun i => fld w 11 0 + off + i else []

/-- SENT drives its pin: in transmit mode, and for the request pulse of short PWM code (Table 10.9). -/
def sentDrives (s : State) (p : Nat) : Bool := s.rb (reg p 0x100) 0 || s.rb (reg p 0x100) 2
def sgmii (s : State) (p : Nat) : Bool := s.rb (reg p 0x100) 2

/-- The pins that a protocol block drives (Table 10.9). -/
def protoDriven (s : State) (p : Nat) : List Nat :=
  match blockOf p with
  | some .can => pinsFrom (s.pinA p) 0 1
  | some .lin => pinsFrom (s.pinA p) 0 1
  | some .sent => if s.sentDrives p then pinsFrom (s.pinA p) 0 1 else []
  | some .eth => (if s.sgmii p then [] else pinsFrom (s.pinA p) 0 6) ++ pinsFrom (s.pinB p) 0 2
  | _ => []

/-- The pins on which a block receives (Table 10.9). -/
def protoHeard (s : State) (p : Nat) : List Nat :=
  match blockOf p with
  | some .can => pinsFrom (s.pinB p) 0 1
  | some .lin => pinsFrom (s.pinB p) 0 1
  | some .sent => if s.rb (reg p 0x100) 0 then [] else pinsFrom (s.pinA p) 0 1
  | some .eth => if s.sgmii p then [] else pinsFrom (s.pinA p) 6 6
  | _ => []

/-- The owner code of a protocol page (Table 4.1). -/
def protoCode (p : Nat) : Nat := 0x40 + (p - 0x050)

/-- The condition of quiet (R318). -/
def quietNow (s : State) (p : Nat) : Bool :=
  ((s.protoDriven p).any fun i => s.owner i != protoCode p || (decide (2 ≤ s.padRank i) && decide (s.padRank i ≤ 5))
      || s.rf (cfgReg i) 9 8 = 1)
    || (s.protoHeard p).any fun i => !s.isOn (pGrp (i / 64)) || s.rf (cfgReg i) 9 8 = 1

/-- PSTAT.QUIET. -/
def quiet (s : State) (p : Nat) : Bool := s.rb (reg p 0x04C) 31

/-! ### Entries (R319 to R322) -/

/-- TS_DOMAIN of a block. -/
def tsDom (s : State) (p : Nat) : Nat := s.rf (reg p 0x040) 31 28

/-- H2 to H5 of a stamp at instant `t`, and STOPPED (R322). -/
def stampWords (s : State) (p t : Nat) : List Word × Bool :=
  let d := s.tsDom p
  let pos := s.posAt d t
  ([word pos, word (pos / 2 ^ 32), word (s.cycAt d t), word ((t - s.resetEnd) / timeStep)], s.domStoppedAt d t)

/-- An entry reaches the RX FIFO, or is lost (R320). -/
def rxStore (s : State) (p : Nat) (e : Entry) : State :=
  let x := s.proto p
  let b := (blockOf p).getD .can
  let used := (x.rx.map (·.data.length)).sum
  if rxSize b ≤ x.rx.length || (b = .eth && 32768 < used + e.data.length) then
    let n := s.rf (reg p 0x04C) 23 16
    (s.wf (reg p 0x04C) 23 16 (min 255 (n + 1))).raise p 2
  else (s.setProto p { x with rx := x.rx ++ [e] }).raise p 0

/-- A TX entry ends with a status: TXDONE is returned when CONF asks for it, stamped at the start of the frame. An
entry that never started has no stamp point: its stamp words and STOPPED are free values.
(DESIGN CHOICE: assumption 123) -/
def txEnd (s : State) (p : Nat) (e : Entry) (status : Nat) (start : Option Nat) : State :=
  let h0 := e.h.getD 0 0
  let s1 := s.raise p 1
  if !bit h0 6 then s1
  else
    let fr := Config.freeWord s1.free
    let st := match start with
      | some t => s1.stampWords p t
      | none => ([fr.extractLsb' 0 32, fr.extractLsb' 32 32, fr.extractLsb' 64 32, fr.extractLsb' 96 32],
                 Config.freeBool s1.free)
    let s2 := if start.isNone then s1.drew else s1
    s2.rxStore p { h := word (2 * 2 ^ 28 + status * 256 + 128 * b2n st.2 + fld h0 5 0) :: e.h.getD 1 0 :: st.1 }

/-- The head of the TX FIFO if it may be in transmission: nothing holds it. -/
def txHead (s : State) (p : Nat) : Option Entry := (s.proto p).tx.head?.filter (!·.held)

/-- Whether the head's transmission has begun: known, or not fixed by any command and so a free outcome.
(DESIGN CHOICE: assumption 124) -/
def headBegun (s : State) (p : Nat) : Bool :=
  match s.txHead p with | some e => e.started || s.freeBool | none => false

/-- The start of an entry in transmission: some instant since it was pushed. (DESIGN CHOICE: assumption 124) -/
def startOf (s : State) (e : Entry) : Nat := e.pushed + s.freeNat % (s.now + 1 - e.pushed)

/-- The entry that a block going quiet was sending, if any, ends aborted, with its start's stamp. -/
def quietCut (s : State) (p : Nat) : State :=
  if s.headBegun p then
    match (s.proto p).tx with
    | e :: r => ((s.drewN 2).setProto p { s.proto p with tx := r }).txEnd p e psAborted (some (s.drew.startOf e))
    | [] => s
  else s.drew

/-- The block enters quiet (R318). -/
def enterQuiet (s : State) (p : Nat) : State := ((s.wb (reg p 0x04C) 31 true).raise p 4).quietCut p

/-- Every ON block whose quiet condition has come to hold enters quiet. -/
def quietSync (s : State) : State :=
  forEach (protoPages.filter fun p => s.isOn p) (fun p s =>
    if s.quietNow p && !s.quiet p then s.enterQuiet p else s) s

/-! ### Sending and receiving is possible -/

/-- The block takes part on its bus. -/
def protoLive (s : State) (p : Nat) : Bool := s.isOn p && !s.quiet p

/-- FIFO_PATH is FABRIC. -/
def fabricPath (s : State) (p : Nat) : Bool := s.rb (reg p 0x040) 27
def protoRegion (s : State) (p : Nat) : Nat := s.rf (reg p 0x040) 26 20

/-! ### TX entries (R320, R321) -/

/-- The CAN lengths above 8 bytes. -/
def canFdLen (n : Nat) : Bool := [12, 16, 20, 24, 32, 48, 64].contains n

/-- PFLAGS and LENGTH of a TX entry against Tables 10.10 and 10.12. -/
def txShapeOk (s : State) (p : Nat) (h0 h1 : Word) : Bool :=
  let n := fld h0 27 16
  match blockOf p with
  | some .can =>
    let fd := bit h0 5
    (if fd then (decide (n ≤ 8) || canFdLen n) && s.rb (reg p 0x100) 0 && !bit h0 1 else decide (n ≤ 8) && !bit h0 4 && !bit h0 3)
      && !bit h0 0 && fld h1 31 29 = 0
  | some .lin => decide (n ≤ 8) && fld h0 3 0 = 0 && fld h1 31 6 = 0
  | some .sent => decide (n ≤ 6) && fld h0 2 0 = 0 && fld h1 31 16 = 0
  | some .eth => decide (n ≤ 1518) && fld h0 4 0 = 0
  | _ => false

/-- A push is refused with RANGE. -/
def txBad (s : State) (p : Nat) (h : List Word) : Bool :=
  let h0 := h.getD 0 0
  let pos := (h.getD 2 0).toNat + 2 ^ 32 * (h.getD 3 0).toNat
  fld h0 31 28 != 1 || fld h0 15 8 != 0 || !s.txShapeOk p h0 (h.getD 1 0)
    || (bit h0 7 && decide (s.mod4096 (s.tsDom p) ≤ pos))

/-- Data bytes that an entry of header H0 carries: a SENT entry's nibbles fill one word. -/
def dataLen (p : Nat) (h0 : Word) : Nat :=
  let n := fld h0 27 16
  if blockOf p = some .sent then min n 1 * 4 else n

/-- The data bytes of an entry from its words; a word that was not given is a free value.
(DESIGN CHOICE: assumption 125) -/
def dataOf (s : State) (n : Nat) (ws : List Word) : List Byte :=
  ((List.range ((n + 3) / 4)).flatMap fun i =>
    wordBytes (ws.getD i ((Config.freeWord (s.free + i)).extractLsb' 0 32))).take n

/-- A frame shorter than an Ethernet frame is padded to 60 bytes, with bytes that the spec does not give (R320).
(DESIGN CHOICE: assumption 125) -/
def padded (s : State) (p : Nat) (bs : List Byte) : List Byte :=
  if blockOf p = some .eth then
    bs ++ (List.range (60 - bs.length)).map fun i => (Config.freeWord (s.free + 380 + i)).extractLsb' 0 8
  else bs

/-- An entry is pushed: TX_OVF, RANGE, or it joins the TX FIFO. The answer says whether the push was refused. -/
def txPushEntry (s : State) (p : Nat) (h : List Word) (ws : List Word) : Bool × State :=
  let x := s.proto p
  let b := (blockOf p).getD .can
  let n := dataLen p (h.getD 0 0)
  let used := (x.tx.map (·.data.length)).sum
  if txSize b ≤ x.tx.length || (b = .eth && decide (16384 < used + n)) then (false, s.raise p 3)
  else if s.txBad p h then (true, s.refuse p .range)
  else
    let e : Entry := { h := h, data := s.padded p (s.dataOf n ws), held := bit (h.getD 0 0) 7, ref := s.armRef (s.tsDom p)
                       pushed := s.now }
    (false, (s.drewN 440).setProto p { x with tx := x.tx ++ [e] })

/-- TX_CTRL.ABORT: every queued entry not yet started leaves the FIFO (R320). -/
def txAbortAll (s : State) (p : Nat) : State :=
  let x := s.proto p
  let begun := s.headBegun p
  let keep := if begun then (x.tx.take 1).map fun e => { e with started := true } else []
  let gone := if begun then x.tx.drop 1 else x.tx
  forEach gone (fun e s => if bit (e.h.getD 0 0) 6 then s.txEnd p e psAborted none else s)
    (s.drew.setProto p { x with tx := keep })

/-- PSTAT (Table 10.14). -/
def pstatVal (s : State) (p : Nat) : Word :=
  (s.rd (reg p 0x04C)) ||| word ((s.proto p).rx.length * 256 + (s.proto p).tx.length)

/-! ### Enable and disable -/

/-- A field of the page lies outside its stated range (R317, R324). -/
def protoRange (s : State) (p : Nat) : Bool :=
  let bad (w : Word) (n : Nat) : Bool := bit w 31 && decide (3072 < fld w 11 0 + n)
  let a := s.pinA p
  let b := s.pinB p
  bad a 1 || bad b 1 || (s.fabricPath p && decide (96 ≤ s.protoRegion p)) ||
  (match blockOf p with
   | some .lin => let n := s.rf (reg p 0x104) 14 0; decide (n < 1000) || decide (20000 < n)
   | some .sent =>
     let n := s.rf (reg p 0x104) 16 0
     let k := s.rf (reg p 0x100) 6 4
     decide (n < 3000) || decide (90000 < n) || k = 0 || k = 7 || s.rf (reg p 0x100) 9 8 = 3
   | some .eth =>
     s.rf (reg p 0x100) 1 0 = 3 || (!s.sgmii p && bit a 31 && fld a 11 0 % 16 != 0) || (bit b 31 && fld b 11 0 % 2 != 0)
   | _ => false)

/-- The checks of a protocol block's enable (R317, R320, R322, Table 16.5). -/
def protoCheck (s : State) (p : Nat) : Option Reason :=
  let rgmii : Bool := blockOf p = some .eth && !s.sgmii p && bit (s.pinA p) 31
  if s.protoRange p then some .range
  else if !s.isOn (pDom (s.tsDom p)) || (s.fabricPath p && !s.isOn (pReg (s.protoRegion p)))
      || (rgmii && !([2, 3, 4].contains (s.bankV (fld (s.pinA p) 11 0 / 64))))
      || (blockOf p = some .eth && s.sgmii p && !s.isOn (pUlane (8 + (p - 0x0A8)))) then some .dependency
  else if (s.protoDriven p).any fun i => s.owner i != protoCode p then some .owner
  else none

/-- The idle drive of a block: CAN and LIN recessive 1; the others' idle level is not stated and is a free value. SENT
drives nothing while it waits in receive mode. (DESIGN CHOICE: assumption 126) -/
def protoIdle (s : State) (p : Nat) : Bool × Bool :=
  match blockOf p with
  | some .can => (true, true)
  | some .lin => (true, true)
  | some .sent => (s.rb (reg p 0x100) 0, s.freeBool)
  | _ => (true, s.freeBool)

/-- The pins that a block owns and drives take a drive state, at the next pin-cycle boundary (R317). -/
def protoDrive (s : State) (p : Nat) (f : State → Bool × Bool) : State :=
  let is := (s.protoDriven p).filter fun i => s.owner i = protoCode p
  lagPins is (forEach is fun i s =>
    let o := f s
    s.drew.setPin i { s.pin i with oe := o.1, lvl := o.2 }) s

/-- A block goes ON: a CAN block is error-active with clear counters; a quiet condition that holds counts at once. -/
def protoStart (s : State) (p : Nat) : State :=
  let s1 := if blockOf p = some .can then s.wr (reg p 0x10C) 0 else s
  let s2 := s1.setProto p { s1.proto p with pause := (0, 0), cal := none }
  ((s2.wb (reg p 0x04C) 31 false).protoDrive p fun s => s.protoIdle p).quietSync

/-- A block goes OFF: it no longer drives its pins (R98). -/
def protoStop (s : State) (p : Nat) : State :=
  (s.wb (reg p 0x04C) 31 false).protoDrive p fun _ => (false, false)

end State
end Sys2Proof.Machine
end

