-- ==== Sys2Proof/Machine/Bus.lean ====
section
/-! DEFINITION. Machine/Bus.lean: the BAR2 windows (Table 16.8), the deep memories' port B (R194 to R197), and the
device's own accesses to host memory (R308, R309). -/
namespace Sys2Proof.Machine

/-! ### BAR2 windows (R441) -/

/-- Vector memory of group `g`. -/
def vecBase (g : Nat) : Nat := g * 0x80000
/-- Deep memory `k`. -/
def deepBase (k : Nat) : Nat := 0x02000000 + k * 0x80000
/-- Result memory of group `g`. -/
def resBase (g : Nat) : Nat := 0x03000000 + g * 0x20000
/-- Program RAM of sequencer `q`. -/
def progBase (q : Nat) : Nat := 0x03800000 + q * 0x10000

/-- The region whose page holds the status of deep memory `k` (R194). -/
def deepHost (k : Nat) : Nat := if k % 2 = 0 then 12 * (k / 2) else 12 * (k / 2) + 11

/-- The deep memory at the west or the east end of a row (R194). -/
def deepNo (row : Nat) (east : Bool) : Nat := 2 * row + east.toNat

namespace State

/-- Consecutive words written from BAR2 offset `a`. -/
def putWords (s : State) (a : Nat) : List Word → State
  | [] => s
  | w :: ws => (s.putWord a w).putWords (a + 4) ws

/-- A deep memory word of 64 bits. -/
def deepGet (s : State) (k w : Nat) : Nat :=
  bytesNat ((List.range 8).map fun i => s.byte (deepBase k + 8 * w + i))

/-- A write of the enabled bytes of a deep memory word. A write that covers all its bytes restores an undefined word
(R196). -/
def deepPut (s : State) (k w : Nat) (v : Nat) (be : Nat) : State :=
  let s1 := forEach (List.range 8)
    (fun i s => if nbit be i then { s with mem := memPut s.mem (deepBase k + 8 * w + i) (BitVec.ofNat 8 (bits v (8 * i + 7) (8 * i))) } else s) s
  if be % 256 = 255 then { s1 with undef := tabSet false s1.undef (65536 * k + w) false } else s1

/-- The word is undefined (R196). -/
def deepUndef (s : State) (k w : Nat) : Bool := tabGet false s.undef (65536 * k + w)

/-- A parity error on port A (`b` false) or port B of deep memory `k` (R197). -/
def deepParity (s : State) (k w : Nat) (b : Bool) : State :=
  let p := pReg (deepHost k)
  ((s.wb (reg p 0x300) (if b then 2 else 1) true).wr (reg p 0x308) (word (w + 65536 * b2n b))).raise p 6

/-- A collision asserted on port B (R197). -/
def deepCollideB (s : State) (k w : Nat) : State :=
  let p := pReg (deepHost k)
  ((s.wb (reg p 0x300) 0 true).wr (reg p 0x304) (word w)).raise p 5

/-- A read through port A or B: the word, or undefined data with or without a parity error (R196).
(DESIGN CHOICE: assumption 72) -/
def deepRead (s : State) (k w : Nat) (b : Bool) : Nat × State :=
  if s.deepUndef k w then
    let v := s.freeNat % 2 ^ 64
    let err := s.freeBool
    (v, if err then s.drew.deepParity k w b else s.drew)
  else (s.deepGet k w, s)

/-- The entry of `deepLast` of port A (`b` false) or B. -/
def deepKey (k : Nat) (b : Bool) : Nat := 2 * k + b2n b

/-- The last access of the other port, if an access to word `w` through port `b` now collides with it: an array window runs for
1.25 ns, and two reads never collide (R195). -/
def deepClash (s : State) (k w : Nat) (b write : Bool) : Option DeepAcc :=
  (s.deepLast.find? fun e => e.1 = deepKey k (!b)).bind fun e =>
    if e.2.word = w && decide (s.now < e.2.at_ + pinCycle) && (write || e.2.write) then some e.2 else none

/-- An access is sampled. -/
def deepMark (s : State) (k w : Nat) (b write : Bool) (sink : Sink) : State :=
  { s with deepLast := tabPut s.deepLast (deepKey k b) { at_ := s.now, word := w, write := write, sink := sink } }

/-- The newest response of port A of deep memory `k` for word `w` changes. -/
def deepNewest (k w : Nat) (f : Nat → Bool → Nat × Bool) : List Output → List Output
  | [] => []
  | .deepA r k' w' due data c :: os =>
    if k' = k && w' = w then .deepA r k' w' due (f data c).1 (f data c).2 :: os
    else .deepA r k' w' due data c :: deepNewest k w f os
  | o :: os => o :: deepNewest k w f os

/-- The response of the last access of port A of deep memory `k`, which was to word `w`, changes before it comes. -/
def deepOut (s : State) (k w : Nat) (f : Nat → Bool → Nat × Bool) : State := { s with out := deepNewest k w f s.out }

/-- COLLIDE on a port (R197): on port A with the access's response. -/
def deepCollide (s : State) (k w : Nat) (b : Bool) : State :=
  if b then s.deepCollideB k w else s.deepOut k w fun d _ => (d, true)

/-- Of an access through port `b` now and the access `x` of the other port, COLLIDE is asserted on the later port, which is port
B where they coincide (R195). -/
def deepLater (s : State) (k w : Nat) (b : Bool) (x : DeepAcc) : State :=
  s.deepCollide k w (b || decide (x.at_ = s.now))

/-- The data of the read `x` of port `b` turns out undefined, with or without a parity error (R196).
(DESIGN CHOICE: assumption 72) -/
def deepSpoil (s : State) (k w : Nat) (b : Bool) (x : DeepAcc) : State :=
  let v := s.freeNat
  let s1 := (if s.freeBool then s.deepParity k w b else s).drew
  if !b then s1.deepOut k w fun _ c => (v % 2 ^ 64, c)
  else match x.sink with
    | .none => s1
    | .host => s1.ret (v % 2 ^ 32)
    | .word => s1.ret (v % 2 ^ 64)
    | .gpr q n => (s1.wr (reg (pSeq q) (0x100 + 4 * n)) (word v)).wb (reg (pSeq q) 0x064) 12 (word v = 0)

/-- A write through port A or B (R195, R196). -/
def deepWr (s : State) (k w v be : Nat) (b : Bool) : State :=
  let s1 := s.deepMark k w b true .none
  match s.deepClash k w b true with
  | none => s1.deepPut k w v be
  | some x =>
    if x.write then
      (({ s1 with undef := tabPut s1.undef (65536 * k + w) true }).deepCollide k w false).deepCollide k w true
    else ((s1.deepPut k w v be).deepSpoil k w (!b) x).deepLater k w b x

/-- A read through port A or B for `sink` (R195, R196). -/
def deepRd (s : State) (k w : Nat) (b : Bool) (sink : Sink) : Nat × State :=
  let s1 := s.deepMark k w b false sink
  match s.deepClash k w b false with
  | none => s1.deepRead k w b
  | some x =>
    let s2 := if s1.freeBool then s1.drew.deepParity k w b else s1.drew
    (s1.freeNat % 2 ^ 64, s2.deepLater k w b x)

/-- The responses of port A to region `r` that have not come yet never come (R201). -/
def deepDiscard (r : Nat) (s : State) : State :=
  { s with out := s.out.filter fun o =>
      match o with
      | .deepA r' _ _ due _ _ => !(r' = r && decide (s.now < due))
      | _ => true }

/-- The unit of a deep memory is under self-test, or held SAFE or UNTESTED (R346, R352, R442). -/
def deepHeld (s : State) (k : Nat) : Bool :=
  let st := s.unitState (pReg (deepHost k))
  st = 4 || st = 5 || st = 6

/-! ### Host memory -/

/-- DMA_ERR takes the source and the kind of a failed access, and the event is raised (R309). -/
def dmaErr (s : State) (source kind : Nat) : State :=
  (s.wr (reg pPcie 0x044) (word (0x80000000 + source * 0x10000000 + kind * 0x1000000))).raise pPcie 5

/-- The function may master the bus. -/
def busReady (s : State) : Bool := s.ep.busMaster && !s.ep.d3hot

/-- Posted writes into host memory. -/
def hostPut (s : State) (addr : Nat) (bs : List Byte) : State := s.emit (.hostWrite addr bs)

end State

end Sys2Proof.Machine
end

