-- ==== Sys2Proof/Machine/Pins.lean ====
section
/-! DEFINITION. Machine/Pins.lean: pin channels (03_pin_channels.md): the edge queue and its slots, timing sets, serial
bursts, the Snare and its ring, reflex cells and the supply of a bank. -/
namespace Sys2Proof.Machine
namespace State

/-! ### Result memory (R78, R148) -/

/-- Byte offset `o` lies in the Snare ring of ON group `g`. -/
def inSnareRing (s : State) (g o : Nat) : Bool :=
  let b := s.rf (greg g 0x050) 16 5 * 32
  s.isOn (pGrp g) && decide (b ≤ o) && decide (o < b + s.rf (greg g 0x054) 7 0 * 1024)

/-- Byte offset `o` lies in the fail-log ring of ON sequencer `g`. -/
def inFailRing (s : State) (g o : Nat) : Bool :=
  let b := s.rf (reg (pSeq g) 0x080) 16 6 * 64
  s.isOn (pSeq g) && s.rb (reg (pSeq g) 0x040) 15 && decide (b ≤ o)
    && decide (o < b + s.rf (reg (pSeq g) 0x084) 7 0 * 1024)

/-- Words written by the device into the result memory of group `g`, which prevail over a host write of the same cycle (R442).
Where the two rings overlap the content is undefined (R78). (DESIGN CHOICE: assumption 39) -/
def resPut (s : State) (g : Nat) : Nat → List Word → State
  | _, [] => s
  | o, w :: ws =>
    (if s.inSnareRing g o && s.inFailRing g o then (s.putWord (resBase g + o) (word s.freeNat)).drew
     else s.putWord (resBase g + o) w).take (memKey (resBase g + o)) seqCycle 1 |>.resPut g (o + 4) ws

/-! ### Timing sets (R63 to R66) -/

/-- The key of a timing-set word from TS_ADDR [13:0], in group `g`. -/
def tsKey (g pin set w : Nat) : Nat := ((64 * g + pin) * 32 + set) * 8 + w

/-- The place of a timing-set word among those that a write replaces only later. -/
def tsPlace (k : Nat) : Nat := 2 ^ 33 + k

/-- A timing-set word as a vector accepted now uses it (R66). -/
def tsWord (s : State) (i set w : Nat) : Word :=
  let k := tsKey (i / 64) (i % 64) set w
  s.inForce (tsPlace k) (tabGet 0 s.tsets k) s.now

/-- A word of Table 3.2 holds no reserved value. -/
def tsOk (w : Nat) (v : Word) : Bool := if w = 6 then fld v 5 4 < 2 && fld v 2 0 < 4 else true

/-- TS_ADDR after an access. -/
def tsNext (s : State) (g : Nat) : State :=
  if s.rb (greg g 0x048) 31 then s.wf (greg g 0x048) 13 0 (s.rf (greg g 0x048) 13 0 + 1) else s

/-- The timing-set word of key `k` is written: vectors accepted from the next pin cycle on use it (R66). -/
def tsPut (v : Word) (k : Nat) (s : State) : State :=
  let u := s.keepUntil (tsPlace k) (nextAfter pinCycle s.now) (s.inForce (tsPlace k) (tabGet 0 s.tsets k) s.now)
  { u with tsets := tabSet 0 s.tsets k v }

/-- A write of TS_DATA. -/
def tsWrite (g : Nat) (v : Word) (s : State) : State :=
  let pin := s.rf (greg g 0x048) 13 8
  let set := s.rf (greg g 0x048) 7 3
  let w := s.rf (greg g 0x048) 2 0
  let v' := if w = 6 then v &&& 0xFF37 else v &&& 0xCFFFFFFF
  let pins := if s.rb (greg g 0x048) 30 then List.range 64 else [pin]
  (if w = 7 then s
   else if !tsOk w v then s.refuseAns (pGrp g) .range
   else forEach (pins.map fun n => tsKey g n set w) (tsPut v') s).tsNext g

/-- A read of TS_DATA. -/
def tsRead (g : Nat) (s : State) : State :=
  let k := tsKey g (s.rf (greg g 0x048) 13 8) (s.rf (greg g 0x048) 7 3) (s.rf (greg g 0x048) 2 0)
  (s.ret (tabGet 0 s.tsets k).toNat).tsNext g

/-! ### Slots (R61) -/

/-- The instant at which a pin places a transition wanted at `t`, and the transitions its pin cycle then holds. -/
def slotAt (x : Pin) (t : Nat) : Nat × Nat :=
  match x.lastAt with
  | none => (t, 1)
  | some l =>
    let u := max t (l + edgeSlot)
    if u / pinCycle = l / pinCycle then
      (if x.cycN < 2 then (u, x.cycN + 1) else (nextAfter pinCycle l, 1))
    else (u, 1)

/-- A transition wanted at `t` is placed; DEFERRED when it moves, LATE too when it is in position units. -/
def placeAt (s : State) (i t : Nat) (posUnit : Bool) : State :=
  let x := s.pin i
  let u := slotAt x t
  let s1 := s.setPin i { x with lastAt := some u.1, cycN := u.2 }
  let p := pGrp (i / 64)
  (s1.raiseIf (decide (t < u.1)) p 0).raiseIf (decide (t < u.1) && posUnit) p 1

/-- The owner's drive state after an edge. -/
def actOn (a : EdgeAct) (oe lvl : Bool) : Bool × Bool :=
  match a with
  | .on => (true, lvl)
  | .onLevel b => (true, b)
  | .off => (false, lvl)
  | .level b => (oe, b)
  | .bit | .strobe .. | .burst _ => (oe, lvl)
  | .both o b => (o, b)

/-- An edge takes effect on the owner's drive: placed in a slot while the owner drives the pad, otherwise consumed
(R69, R82, R110). -/
def applyEdge (s : State) (i t : Nat) (a : EdgeAct) (posUnit : Bool) : State :=
  let x := s.pin i
  let n := actOn a x.oe x.lvl
  if n = (x.oe, x.lvl) then s
  else
    let s1 := if s.padRank i = 8 then s.placeAt i t posUnit else s
    (s1.setPin i { s1.pin i with oe := n.1, lvl := n.2 }).disSync i

/-! ### Serial bursts (R72, R73) -/

/-- The next bit of the TX FIFO. -/
def txNext (s : State) (i : Nat) : Bool × State :=
  let x := s.pin i
  match x.tx with
  | [] => (x.lastTx, s.raise (pGrp (i / 64)) 11)
  | w :: r =>
    let b := w.getLsbD x.txBit
    let y := if x.txBit = 63 then { x with tx := r, txBit := 0 } else { x with txBit := x.txBit + 1 }
    (b, s.setPin i { y with lastTx := b })

/-- A word pushed into the TX FIFO; an access that finds it full is answered OK. (DESIGN CHOICE: assumption 201) -/
def txPush (s : State) (i : Nat) (w : BitVec 64) : State :=
  let x := s.pin i
  if 16 ≤ x.tx.length then s.raise (pGrp (i / 64)) 12 else s.setPin i { x with tx := x.tx ++ [w] }

/-- Received bits pushed at instant `t` as a word, the first in bit 0. -/
def rxPush (s : State) (i t : Nat) (bs : List Bool) : State :=
  let x := s.pin i
  let y := { x with rxBits := [], lastBits := bs.length % 64 }
  let w := BitVec.ofNat 64 (bs.foldr (fun b n => 2 * n + b2n b) 0)
  if 16 ≤ x.rx.length then (s.setPin i y).raiseAt t (pGrp (i / 64)) 12
  else s.setPin i { y with rx := x.rx ++ [w] }

/-- The receive path up to the present: samples whose instants have come are taken, as the owner they are for sees the pin
(R112). A burst whose C1 is not committed holds up what follows. -/
def rxTake (s : State) (i : Nat) : List RxItem → State
  | [] => s.setPin i { s.pin i with rxPend := [] }
  | .wait id n per own :: r => s.setPin i { s.pin i with rxPend := .wait id n per own :: r }
  | .flush :: r =>
    let bs := (s.pin i).rxBits
    (if bs.isEmpty then s else s.rxPush i s.now bs).rxTake i r
  | .sample t own :: r =>
    if s.now < t then s.setPin i { s.pin i with rxPend := .sample t own :: r }
    else
      let x := s.pin i
      let und : Bool := s.owner i = own && decide (x.undefFrom ≤ t) && decide (t < x.undefTo)
      let b := if und then s.freeBool else (s.seenAt own i t).1
      let s0 := if und then s.drew else s
      let bs := x.rxBits ++ [b]
      (if bs.length = 64 then s0.rxPush i t bs else s0.setPin i { x with rxBits := bs }).rxTake i r

/-- Every sample due is taken. -/
def rxSync (s : State) (i : Nat) : State := s.rxTake i (s.pin i).rxPend

/-- The oldest received word; 0 from an empty FIFO. -/
def rxPop (s : State) (i : Nat) : Nat × State :=
  let s1 := s.rxSync i
  let x := s1.pin i
  match x.rx with
  | [] => (0, s1)
  | w :: r => (w.toNat, s1.setPin i { x with rx := r })

/-- SER_STAT of the selected pin. -/
def serStat (s : State) (g : Nat) : Word :=
  let x := s.pin (64 * g + s.rf (greg g 0x070) 5 0)
  word (x.lastBits * 65536 + x.rx.length * 256 + x.tx.length)

/-- A read of SER_STAT, once every sample due is taken. -/
def serStatRead (g : Nat) (s : State) : State :=
  let u := s.rxSync (64 * g + s.rf (greg g 0x070) 5 0)
  u.ret (u.serStat g).toNat

/-- Every sample due on a listed pin of group `g` is taken: what EVENT then shows includes their overruns (R73). -/
def rxGroup (g : Nat) (s : State) : State :=
  forEach ((s.groupPins g).filter fun i => !(s.pin i).rxPend.isEmpty) (fun i s => s.rxSync i) s

/-- Every sample due on any listed pin is taken, before a counter is looked at. -/
def rxAll (s : State) : State :=
  forEach ((s.pins.map (·.1)).filter fun i => !(s.pin i).rxPend.isEmpty) (fun i s => s.rxSync i) s

/-- EVENT of page `p` brought up to the present: the receive paths of a pin group. (DESIGN CHOICE: assumption 203) -/
def eventSync (p : Nat) (s : State) : State :=
  match blockRow p with
  | some (.pingroup, b) => s.rxGroup (p - b)
  | _ => s

/-! ### Commit and placement (R60, R62) -/

/-- GROUP_STAT.STALLED follows the queues; QFULL is raised once for each stall. -/
def stallSync (s : State) (g : Nat) : State :=
  let b := (s.groupPins g).any fun i => 16 ≤ (s.pin i).queue.length
  let old := (s.grp g).stalled
  let s1 := (s.setGrp g { s.grp g with stalled := b }).wb (greg g 0x044) 2 b
  s1.raiseIf (b && !old) (pGrp g) 2

/-- The instant of an edge that is to be committed: one due within 10 ns, or a drive of the fabric, however far ahead, whose
commit has come (R60). -/
def edgeDue (s : State) (e : Edge) : Option Nat :=
  match e.at_, e.due with
  | some c, .time t => if c ≤ s.now then some t else none
  | some c, .pos .. => if c ≤ s.now then s.resolve e.due (ns 20) else none
  | none, _ => s.resolve e.due (ns 10)

/-- An edge with instant `t` has its place in the order of commits: that of its commit, 10 ns on. -/
def Edge.turn (e : Edge) (t : Nat) : Nat := match e.at_ with | some c => c + ns 10 | none => t

/-- The edge whose commit comes first, with its instant, among those to be committed. -/
def firstDue (s : State) : List Edge → Option (Edge × Nat)
  | [] => none
  | e :: r =>
    match s.edgeDue e, s.firstDue r with
    | none, x => x
    | some t, none => some (e, t)
    | some t, some (f, u) => if Edge.turn e t ≤ Edge.turn f u then some (e, t) else some (f, u)

/-- A committed compare edge at instant `due` fixes the instants of its judgement and capture window, and of the window that
ends at it (R60, R70). -/
def fixStrobe (id : Nat) (close : Bool) (due : Nat) (x : Pin) : Pin :=
  { x with
    judges := x.judges.map fun j =>
      let j1 := if j.id = id then (if close then { j with close := some (.time due) } else { j with open_ := .time due }) else j
      if !close && j1.closeOf = some id then { j1 with close := some (.time due) } else j1
    wins := x.wins.map fun w =>
      if w.id = id then (if close then { w with close := some (.time due) } else { w with open_ := .time due }) else w }

/-- The committed C1 of a receive burst at instant `due` gives its samples their instants (R72). -/
def fixBurst (id due : Nat) (x : Pin) : Pin :=
  { x with rxPend := x.rxPend.flatMap fun e =>
      match e with
      | .wait k n per own =>
        if k = id then (List.range n).map fun k => .sample (due + k * per) own else [.wait k n per own]
      | _ => [e] }

/-- What an edge's commit for instant `due` fixes at its pin besides the queue. -/
def fixEdge (a : EdgeAct) (due : Nat) (x : Pin) : Pin :=
  match a with
  | .strobe id close => fixStrobe id close due x
  | .burst id => fixBurst id due x
  | _ => x

/-- A compare edge, which is committed whoever owns the pin: its judgement is its sequencer's (R112). -/
def edgeCompares : EdgeAct → Bool
  | .strobe .. | .burst _ => true
  | _ => false

/-- The bits of a send whose first is at instant `t` follow it in time, wherever a later segment would put its position (R72). -/
def fixBits (e : Edge) (t : Nat) (f : Edge) : Edge :=
  match e.act, f.act, e.due, f.due with
  | .bit, .bit, .pos d q sh, .pos d' q' sh' =>
    if d = d' && q = q' then { f with due := .time ((t : Int) + (sh' - sh)).toNat } else f
  | _, _, _, _ => f

/-- EDGE_COMMIT: the next edge enters the queue 10 ns before its instant, or at the present + 10 ns, carrying LATE
(R60); one in position units raises its domain's LATE too (R45). A drive edge of an agent that no longer owns the pin is
never committed (R97). A queue that is full takes it too. (DEDUCED: assumption 35, DESIGN CHOICE: assumption 192) -/
def edgeCommit (s : State) (i : Nat) : State :=
  let x := s.pin i
  let g := i / 64
  match s.firstDue x.edges with
  | none => s
  | some (e, t) =>
    let s0 := s.setPin i { x with edges := (x.edges.erase e).map (fixBits e t) }
    if !edgeCompares e.act && (s.owner i != e.own || s.rf (cfgReg i) 9 8 = 1) then s0
    else
      let late : Bool := e.at_.isNone && decide (t < s.now + ns 10)
      let due := if e.at_.isSome then t else s.roundStep (max t (s.now + ns 10))
      let b := if e.act = .bit then s0.txNext i else (false, s0)
      let act := if e.act = .bit then EdgeAct.level b.1 else e.act
      let posUnit := match e.due with | .pos .. => true | .time _ => false
      let q : QEdge := { due := due, act := act, own := e.own, posUnit := posUnit }
      let s1 := b.2
      let s2 := s1.setPin i (fixEdge e.act due { s1.pin i with queue := (s1.pin i).queue ++ [q] })
      ((s2.raiseIf late (pGrp g) 1).raiseIf (late && posUnit) (pDom (s.grpDomain g)) 4).stallSync g

/-- Pins that their owner drives no more: their edges that drive are dropped, those of compares and receive bursts stay
(R98, R165); the groups' stalls follow their queues. -/
def undrive (is : List Nat) (s : State) : State :=
  let s1 := forEach is (fun i s =>
    let x := s.pin i
    (s.setPin i { x with
      oe := false, edges := x.edges.filter (edgeCompares ·.act), queue := x.queue.filter (edgeCompares ·.act) }).disSync i) s
  forEach ((is.map (· / 64)).eraseDups) (fun g s => s.stallSync g) s1

/-- The boundary of a pin's pending switch where it is known: set, or that of the committed firing it waits for (R105). -/
def switchAt (s : State) (x : Pin) : Option Nat :=
  match x.switch with
  | none => none
  | some w =>
    match w.bound, w.mark with
    | some b, _ => some b
    | none, some (d, m) =>
      ((s.dom d).committed.find? fun f => f.mark = m && decide (w.since < f.due)).map fun f =>
        max (x.brk.getD 0) (atOrAfter pinCycle f.due)
    | none, none => none

/-- A committed drive edge stands at or after the last 312.5 ps before the boundary of the pin's pending switch: the switch will
discard it (R110). -/
def beyondSwitch (s : State) (x : Pin) (q : QEdge) : Bool :=
  !edgeCompares q.act && (s.switchAt x).any fun b => decide (b ≤ q.due + edgeSlot)

/-- EDGE_PLACE: the oldest committed edge leaves the queue at the start of its pin cycle (R62). -/
def edgePlace (s : State) (i : Nat) : State :=
  let x := s.pin i
  match x.queue with
  | [] => s
  | q :: r =>
    if q.due / pinCycle * pinCycle ≤ s.now && !s.beyondSwitch x q then
      ((s.setPin i { x with queue := r }).applyEdge i q.due q.act q.posUnit).stallSync (i / 64)
    else s

/-! ### Snare (R76 to R80) -/

/-- The number and code of the last vector that the owning sequencer issued into the group (Table 3.6). -/
def vectorOf (s : State) (i : Nat) : Nat × Nat :=
  let o := s.owner i
  if 0x10 ≤ o && o < 0x40 then
    let q := o - 0x10
    let x := s.sq q
    match x.lastNum with
    | none => (0, 7)
    | some n =>
      if q ≤ i / 64 && (i / 64 - q) * 8 < x.lastCodes.length then
        (n, fld (x.lastCodes.getD ((i / 64 - q) * 8 + i % 64 / 8) 0x77777777) (4 * (i % 8) + 3) (4 * (i % 8)))
      else (0, 7)
  else (0, 7)

/-- CAPT_COUNT counts a record made (R79). -/
def captUp (s : State) (i : Nat) : State :=
  let n := s.rf (captReg i) 30 0
  if s.rb (captReg i) 31 then s
  else if n + 1 ≥ 2147483647 then (s.wr (captReg i) 0xFFFFFFFF).raise (pGrp (i / 64)) 8
  else s.wr (captReg i) (word (n + 1))

/-- A Snare record of pin `i`, stamped at instant `t` (Table 3.6); `und`: within the 500 ns of R75 its stamps and
flags are undefined. After a write of the pin's trims its stamps are undefined (R85).
(DESIGN CHOICE: assumption 37) -/
def snareRec (s : State) (i typ : Nat) (f1 f0 : Bool) (t : Nat) (und : Bool) : State :=
  let g := i / 64
  let x := s.pin i
  let d := s.grpDomain g
  let st := ((s.roundStep t : Int) - s.traceComp i).toNat
  let pos := s.posAt d st
  let dt := (st - s.resetEnd) / timeStep
  let seq := (s.grp g).seq
  let v := s.vectorOf i
  let flags := if und then s.freeNat % 16 else 8 * b2n x.glitch + 4 * b2n (s.domStoppedAt d st) + 2 * b2n f1 + b2n f0
  let w0 := word (typ * 2 ^ 28 + (i % 64) * 2 ^ 20 + flags * 65536 + seq)
  let fr := Config.freeWord (s.free + 1)
  let loose : Bool := und || s.trimmed i
  let stamps := if loose then
      [fr.extractLsb' 0 32, fr.extractLsb' 32 20 |>.zeroExtend 32, fr.extractLsb' 64 32, fr.extractLsb' 96 32,
       word ((Config.freeWord (s.free + 2)).toNat)]
    else [word pos, word (pos / 2 ^ 32), word (s.cycAt d st), word dt, word (dt / 2 ^ 32)]
  let rec_ := w0 :: stamps ++ [word v.1, word (v.2 * 16 + d)]
  let s0 := if loose then s.drew.drew.drew else s
  let s1 := (s0.setGrp g { s0.grp g with seq := (seq + 1) % 65536 }).captUp i
  if 8 ≤ x.fifo.length then (s1.setPin i { x with glitch := false }).raise (pGrp g) 7
  else s1.setPin i { x with glitch := false, fifo := x.fifo ++ [rec_] }

/-- A span has opened and not closed by the present instant. -/
def spanOpen (s : State) (w : Win) : Bool :=
  (s.resolve w.open_ 0).isSome &&
    (match w.close with | none => true | some c => (s.resolve c 0).isNone)

/-- A transition of a selected comparator at the present instant. Under EDGE_ALL it is recorded whatever the vector, Mask
included (Table 3.5). (DESIGN CHOICE: assumption 179) -/
def snareEdge (i : Nat) (cmpl rose : Bool) (s : State) : State :=
  let x := s.pin i
  let c := s.now / pinCycle
  let n := if x.snareCyc = c then x.snareN else 0
  let mode := fld (s.cfgNow i) 18 16
  let records : Bool := mode = 3 || (mode = 2 && x.wins.any s.spanOpen)
  let s1 := s.setPin i { x with snareCyc := c, snareN := n + 1 }
  let und : Bool := s.now < x.undefTo
  if !records then s1
  else if 2 ≤ n then (s1.setPin i { s1.pin i with glitch := true }).raise (pGrp (i / 64)) 9
  else if und && !s1.freeBool then s1.drew
  else (if und then s1.drew else s1).snareRec i 2 cmpl rose s.now und

/-- RING_WRITE: one record goes to the ring, the pins taken in turn (R78). -/
def ringWrite (s : State) (g : Nat) : State :=
  let x := s.grp g
  let turn := (List.range 64).map fun k => 64 * g + (x.next + k) % 64
  match turn.find? (fun i => !(s.pin i).fifo.isEmpty) with
  | none => s
  | some i =>
    let y := s.pin i
    let size := s.rf (greg g 0x054) 7 0 * 1024
    let wr := s.rf (greg g 0x058) 16 0
    let rd := s.rf (greg g 0x05C) 16 0
    let next := if size ≤ wr + 32 then 0 else wr + 32
    let full : Bool := next = rd
    if size = 0 || !s.isOn (pGrp g) then s
    else if full && !s.rb (greg g 0x060) 0 then
      (s.setGrp g { x with full := true }).raiseIf (!x.full) (pGrp g) 5
    else
      let s0 := if full then
          (s.wr (greg g 0x05C) (word (if size ≤ rd + 32 then 0 else rd + 32))).raise (pGrp g) 6
        else s
      let s1 := (s0.setPin i { y with fifo := y.fifo.tail }).setGrp g { x with next := (i + 1) % 64, full := false }
      (s1.resPut g (s.rf (greg g 0x050) 16 5 * 32 + wr) (y.fifo.headD [])).wr (greg g 0x058) (word next)

/-- A write of RING_RD (Table 3.12). -/
def ringRdWrite (g : Nat) (v : Word) (s : State) : State :=
  let o := fld v 16 0
  if o % 32 != 0 || s.rf (greg g 0x054) 7 0 * 1024 ≤ o then s.refuseAns (pGrp g) .range
  else (s.wr (greg g 0x05C) (word o)).setGrp g { s.grp g with full := false }

/-! ### Reflex cells (R81 to R83) -/

def rfx (s : State) (g k : Nat) : Reflex := tabGet {} (s.grp g).rfx k
def setRfx (s : State) (g k : Nat) (x : Reflex) : State :=
  s.setGrp g { s.grp g with rfx := tabPut (s.grp g).rfx k x }
def rfxEn (s : State) (g k : Nat) : Bool := s.rb (greg g (0x40C + 16 * k)) 0

/-- Input `n` of a cell at instant `t`, with the pads as they stand. -/
def rfxIn (s : State) (g k n t : Nat) : Bool :=
  let f := s.rf (greg g (0x400 + 16 * k)) (8 * n + 7) (8 * n)
  let i := 64 * g + f % 64
  let kind := f / 64
  if kind = 0 then false else if kind = 1 then (s.cmpAt i t).1 else if kind = 2 then (s.cmpAt i t).2
  else (s.rfx g k).pulses.any (fun e => e.1 = i && t < e.2)

/-- The cell's table look-up at instant `t`. -/
def rfxLook (s : State) (g k t : Nat) : Bool :=
  bit (s.rdAt (greg g (0x404 + 16 * k)) t)
    (b2n (s.rfxIn g k 0 t) + 2 * b2n (s.rfxIn g k 1 t) + 4 * b2n (s.rfxIn g k 2 t) + 8 * b2n (s.rfxIn g k 3 t))

/-- The cell is looked up again at instant `t`; a change starts towards the pin. -/
def rfxAt (g k t : Nat) (s : State) : State :=
  if s.rfxEn g k && !s.inSelftest (pGrp g) then
    let x := s.rfx g k
    let o := s.rfxLook g k t
    if o = x.out then s else s.setRfx g k { x with out := o, path := x.path ++ [(t, o)] }
  else s

/-- The instants passed at which the cell is looked up again: the ends of SNARE_EDGE pulses, and its table's and inputs'
changes (R81). -/
def rfxInstants (x : Reflex) (now : Nat) : List Nat :=
  (((x.pulses.map (·.2)) ++ x.looks).filter (· ≤ now)).foldl (fun m t => tabPut m t ()) [] |>.map (·.1)

/-- The cell is looked up at each instant passed at which its look-up may have changed. -/
def rfxEnds (g k : Nat) (s : State) : State :=
  let s1 := forEach (rfxInstants (s.rfx g k) s.now) (fun t s => rfxAt g k t s) s
  s1.setRfx g k { s1.rfx g k with
    pulses := (s1.rfx g k).pulses.filter (s.now < ·.2), looks := (s1.rfx g k).looks.filter (s.now < ·) }

/-- The enabled cells of a group are looked up again at instant `t`. -/
def rfxLater (g t : Nat) (s : State) : State :=
  forEach ((List.range 16).filter fun k => s.rfxEn g k) (fun k s =>
    s.setRfx g k { s.rfx g k with looks := (s.rfx g k).looks ++ [t] }) s

/-- The cell is looked up again at the present. -/
def rfxSync (g k : Nat) (s : State) : State := rfxAt g k s.now (rfxEnds g k s)

/-- The target pin of a cell. -/
def rfxPin (s : State) (g k : Nat) : Nat := 64 * g + s.rf (greg g (0x408 + 16 * k)) 21 16

/-- ACTIVE of a cell changes; from 1 to 0 REFLEX_BLOCKED is raised, and the pad takes the owner's drive state at the next
pin-cycle boundary (R82). What the pad then does takes a slot (R61). -/
def rfxActive (s : State) (g k : Nat) (b : Bool) : State :=
  let x := s.rfx g k
  let i := s.rfxPin g k
  let set := fun (s : State) => (s.setRfx g k { x with active := b }).wb (greg g (0x40C + 16 * k)) 1 b
  let falls : Bool := x.active && !b
  let s1 := if falls then lagPins [i] set s else set s
  let moves : Bool := 6 < s.padRank i && 6 < s1.padRank i && (s1.padRule i).2 != (s.padNow i).2
  let s2 := if moves then s1.placeAt i (if falls then nextAfter pinCycle s.now else s.roundStep s.now) false else s1
  s2.raiseIf falls (pGrp g) 10

/-- No cell of a group is ACTIVE any more. -/
def rfxDrop (s : State) (g : Nat) : State :=
  forEach (List.range 16) (fun k s => if (s.rfx g k).active then s.rfxActive g k false else s) s

/-- ACTIVE follows the owner code of the target pin (R82). -/
def rfxOwnSync (g k : Nat) (s : State) : State :=
  let i := 64 * g + s.rf (greg g (0x408 + 16 * k)) 21 16
  let want := s.rfxEn g k && s.isOn (pGrp g) && s.owner i = s.rf (greg g (0x40C + 16 * k)) 15 8
  if want = (s.rfx g k).active then s
  else if want && (s.pin i).brk.isSome then s
  else s.rfxActive g k want

/-- A write of RFXk.CTRL (R82). -/
def reflexCtrl (g k : Nat) (v : Word) (s : State) : State :=
  let r := greg g (0x40C + 16 * k)
  let out := s.rd (greg g (0x408 + 16 * k))
  let old := s.rfxEn g k
  let s0 := s.wf r 15 8 (fld v 15 8)
  if !bit v 0 then rfxOwnSync g k ((s0.wb r 0 false).setRfx g k { s0.rfx g k with out := false, path := [] })
  else if old then rfxOwnSync g k s0
  else if 1664 < fld out 10 0 || fld out 29 28 = 3 then s0.refuseAns (pGrp g) .range
  else if !s.isOn (pGrp g) then s0.refuseAns (pGrp g) .dependency
  else if (List.range 16).any (fun j => j != k && s.rfxEn g j && s.rf (greg g (0x408 + 16 * j)) 21 16 = fld out 21 16)
    then s0.refuseAns (pGrp g) .conflict
  else
    let s1 := s0.wb r 0 true
    let o := s1.rfxLook g k s.now
    rfxOwnSync g k (s1.setRfx g k { s1.rfx g k with out := o, pad := o, path := [] })

/-- A write of RFXk.TABLE takes effect at the next pin-cycle boundary, at which the cell is looked up again (R81). -/
def reflexTable (g k : Nat) (v : Word) (s : State) : State :=
  let t := nextAfter pinCycle s.now
  let u := (rfxSync g k s).wrFrom (greg g (0x404 + 16 * k)) t (v &&& 0xFFFF)
  u.setRfx g k { u.rfx g k with looks := (u.rfx g k).looks ++ [t] }

/-- The instant on the grid of R61 at which an output change looked up at `t` reaches the ball, if it does so now: within
4.9 ns and 7.5 ns + DELAY of the look-up (R83). -/
def rfxInstant (s : State) (t delay : Nat) : Nat :=
  let hi := t + 7680 + delay
  let u := s.roundStep (min s.now hi)
  if hi < u then u - timeStep else if u < t + 5018 + delay then u + timeStep else u

/-- REFLEX_OUTPUT: an output change reaches the target ball no earlier than 4.9 ns + DELAY after its look-up and at most
7.5 ns + DELAY after it, under R61 (R81, R83). (DEDUCED: assumption 43) -/
def reflexOutput (s : State) (g k : Nat) : State :=
  let s1 := rfxSync g k s
  let x := s1.rfx g k
  match x.path with
  | [] => s1
  | (t, o) :: r =>
    let delay := s.rf (greg g (0x408 + 16 * k)) 10 0 * timeStep
    if t + 5018 + delay ≤ s.now then
      let i := s.rfxPin g k
      let s2 := s1.setRfx g k { x with path := r, pad := o }
      ((if s2.padOut i = s1.padOut i then s2
        else s2.placeAt i (s.rfxInstant t delay) false).disSync i)
    else s1

/-! ### Pad crossings (R74, R80) -/

/-- The pad is to park at the coming pin-cycle boundary with its driver off till then: HOLD will keep the level it has there. -/
def parksSoon (s : State) (i : Nat) : Bool :=
  (s.padLag i).isSome && (s.padRank i = 4 || s.padRank i = 5) && !(s.padOut i).2.1

/-- PAD_CROSSING: the ball of a pin goes to `uv` µV. The comparators follow their switching levels (and are `ch` and `cl` where
these leave them open), the keeper the side of
VCCIO/2, and the Snare and the reflex cells see the transitions. -/
def padCrossing (s : State) (i uv : Nat) (ch cl : Bool) : State :=
  let v := s.cmpTo i uv ch cl
  let g := i / 64
  let s0 := forEach (List.range 16) (fun k s => if s.rfxEn g k then rfxEnds g k s else s) (s.drew.rxSync i)
  let x := s0.pin i
  let mid := v.2.2
  let hold := if s.parksSoon i then mid else x.hold
  if !s0.cmpRuns i then s0.setPin i { x with uv := uv, mid := mid, hold := hold }
  else
    let hi := v.1
    let lo := v.2.1
    let next := s.cmpLater i uv (hi, lo)
    let old := s.histOn x (hi, lo) next
    let hist := if x.frozen.isSome || !(x.judges.isEmpty && x.rxPend.isEmpty) then old else old.take (2 + next.toList.length)
    let s1 := s0.setPin i { x with uv := uv, cmph := hi, cmpl := lo, cmpNext := next, mid := mid, hold := hold, hist := hist }
    let src := fld (s.cfgNow i) 15 14
    let was := cmpHeld x s.now
    let eh : Bool := src != 1 && hi != was.1
    let el : Bool := src != 0 && lo != was.2
    let s2 := if eh then snareEdge i false hi s1 else s1
    let s3 := if el then snareEdge i true lo s2 else s2
    let s4 := forEach (List.range 16) (fun k s =>
      if s.rfxEn g k then
        let y := s.rfx g k
        rfxSync g k (if eh || el then s.setRfx g k { y with pulses := y.pulses ++ [(i, s.now + pinCycle)] } else s)
      else s) s3
    s4.disSync i

/-! ### Pin registers -/

/-- A write of CAPT_COUNT (R79). -/
def captWrite (i : Nat) (v : Word) (s : State) : State := s.wr (captReg i) (v &&& 0x7FFFFFFF)

/-- A write of THRESH (R75). -/
def threshWrite (i : Nat) (v : Word) (s : State) : State :=
  if s.isOn (pGrp (i / 64)) && fld v 25 16 < fld v 9 0 then s.refuseAns (pGrp (i / 64)) .inconsistent
  else
    let x := s.pin i
    (cmpRefresh i ((s.wr (threshReg i) (v &&& 0x03FF03FF)).setPin i { x with
      undefFrom := if s.now ≤ x.undefTo then x.undefFrom else s.now, undefTo := s.now + ns 500 })).disSync i

/-- A write of SER_TX_HI pushes the word (Table 3.13). -/
def serTxHi (g : Nat) (v : Word) (s : State) : State :=
  s.txPush (64 * g + s.rf (greg g 0x070) 5 0) (v ++ (s.grp g).serTxLo)

/-- A write of SER_TX_LO is held until SER_TX_HI is written. -/
def serTxLoWrite (g : Nat) (v : Word) (s : State) : State := s.setGrp g { s.grp g with serTxLo := v }

/-- A read of SER_RX_LO pops a word and latches its high half. -/
def serRxLo (g : Nat) (s : State) : State :=
  let r := s.rxPop (64 * g + s.rf (greg g 0x070) 5 0)
  (r.2.wr (greg g 0x080) (word (r.1 / 2 ^ 32))).ret (r.1 % 2 ^ 32)

/-! ### The bank supply (R93, R120) -/

/-- VCCIO_OK follows the last measurement and BANK_V (R93). -/
def vccioSync (s : State) (g : Nat) : State := s.wb (greg g 0x044) 1 (s.inBand g (s.rf (greg g 0x064) 15 0))

/-- VCCIO_MEAS_UPDATE: a measurement of VCCIO. -/
def vccioMeas (s : State) (g mv : Nat) : State :=
  let x := s.grp g
  let ok := s.inBand g mv
  let on := s.isOn (pGrp g)
  let lost : Bool := on && s.inBand g (s.rf (greg g 0x064) 15 0) && !ok
  let y := { x with
    inBand := if ok then (if x.inBand.isSome then x.inBand else some s.now) else none
    padsOff := on && (x.padsOff || !ok) }
  let s0 := if lost then forEach (s.groupPins g) (fun i s => s.parkStart i) s else s
  ((((lagBy true (s.groupPins g) (·.setGrp g y) s0).wr (greg g 0x064) (word mv)).wb (greg g 0x044) 1 ok)).raiseIf lost
    (pGrp g) 13

/-- VCCIO_RETURN: VCCIO has stayed in band for 100 µs, and the pads return with a break interval (Table 4.10): each enters
its park state, HOLD keeping the level the pad then has. -/
def vccioReturn (s : State) (g : Nat) : State :=
  let x := s.grp g
  if x.padsOff && x.inBand.any (fun t => t + us 100 ≤ s.now) then
    let s0 := forEach (s.groupPins g) (fun i s => s.parkStart i) s
    let back := fun (s : State) => forEach (s.groupPins g) (fun i s => s.parkRest i) (s.setGrp g { x with padsOff := false })
    lagPins (s.groupPins g) back s0
  else s

/-- VCCIO_CHANGE: the supply at the balls of a bank. Out of reset, POWER.VCCIO shows whether it stands above 1.0 V (R120). -/
def vccioChange (s : State) (g mv : Nat) : State :=
  let r := reg pPower (0x044 + 4 * (g / 32))
  let up : Bool := 1000 < mv
  let s1 := lagPins (s.groupPins g) (·.setGrp g { s.grp g with mv := mv }) s
  if s.pwr.phase = .reset || s.pwr.phase = .fault then s1
  else (s1.wb r (g % 32) up).raiseIf (s.rb r (g % 32) != up) pPower 2

/-! ### Enable of a group (R93, R118) -/

/-- A timing set of the group holds an enabled position-unit edge. -/
def posEdges (s : State) (g : Nat) : Bool :=
  s.tsets.any fun e => e.1 / 16384 = g && e.1 % 8 < 6 && bit e.2 31 && bit e.2 30

/-- The checks of a PINGROUP enable, in the order of Table 16.5. -/
def grpCheck (s : State) (g : Nat) : Option Reason :=
  let kib := s.rf (greg g 0x054) 7 0
  let pins := (List.range 64).map (64 * g + ·)
  if kib = 0 || 128 < kib || 131072 < s.rf (greg g 0x050) 16 5 * 32 + kib * 1024 then some .range
  else if pins.any (fun i => s.rf (threshReg i) 25 16 < s.rf (threshReg i) 9 0
      || !drvOk (s.bankV g) (s.rf (ownReg i) 9 8) || !serRateOk (s.bankV g) (s.rf (cfgReg i) 10 10)) then
    some .inconsistent
  else if !s.inBand g (s.rf (greg g 0x064) 15 0) || (s.posEdges g && !s.isOn (pDom (s.grpDomain g))) then
    some .dependency
  else none

/-- A group starts: no edge, judgement or frozen input of an earlier time is left (R67, R144), its comparators take their
outputs from the pads, and under a Gong or a test of their owner the pads enter their park state, HOLD keeping the level
they have (R116). -/
def grpStart (s : State) (g : Nat) : State :=
  let s1 := forEach ((List.range 64).map (64 * g + ·)) (fun i s =>
    let s1 := cmpRefresh i s
    let x := s1.pin i
    s1.setPin i { x with
      edges := [], queue := [], lastData := false, code := 7, judges := [], wins := [], seen := [], frozen := none
      hist := [(s.now, x.cmph, x.cmpl)], cycN := 0, hold := x.mid, rxPend := [], disagree := none }) s
  let s2 := (s1.setGrp g { s1.grp g with padsOff := false, stalled := false, full := false }).wb (greg g 0x044) 2 false
  let s3 := forEach (List.range 16) (fun k s => rfxOwnSync g k s) s2
  forEach (s3.groupPins g) (fun i s => s.disSync i) s3

/-- A group goes OFF (Table 4.10): its pads take their off state, its registers are kept. -/
def grpStop (s : State) (g : Nat) : State :=
  let s1 := forEach (s.groupPins g) (fun i s =>
    s.setPin i { s.pin i with
      edges := [], queue := [], judges := [], wins := [], rxPend := [], after := none, brk := none, disagree := none }) s
  let s2 := s1.rfxDrop g
  (s2.setGrp g { s2.grp g with stalled := false }).wb (greg g 0x044) 2 false

end State

/-! ### The commands -/

/-- TS_DATA_WRITE (R64). -/
def execTsDataWrite (t : Nat) (a : Agent) (g : Nat) (v : Word) : State → Host.Outcome State Fault Refusal :=
  run t (gateW a (pGrp g) (State.tsWrite g v))
/-- TS_DATA_READ (Table 3.11). -/
def execTsDataRead (t g : Nat) : State → Host.Outcome State Fault Refusal := run t (gateR (pGrp g) (State.tsRead g))
/-- EDGE_COMMIT (R60). -/
def execEdgeCommit (t i : Nat) : State → Host.Outcome State Fault Refusal := run t (·.edgeCommit i)
/-- EDGE_PLACE (R61). -/
def execEdgePlace (t i : Nat) : State → Host.Outcome State Fault Refusal := run t (·.edgePlace i)
/-- PAD_CROSSING (R74). -/
def execPadCrossing (t i : Nat) (uv : BitVec 22) (hi lo : Bool) : State → Host.Outcome State Fault Refusal :=
  run t (·.padCrossing i uv.toNat hi lo)
/-- RING_WRITE (R78). -/
def execRingWrite (t g : Nat) : State → Host.Outcome State Fault Refusal := run t (·.ringWrite g)
/-- RING_RD_WRITE (Table 3.12). -/
def execRingRdWrite (t : Nat) (a : Agent) (g : Nat) (v : Word) : State → Host.Outcome State Fault Refusal :=
  run t (gateO a (pGrp g) 0x05C (State.ringRdWrite g v))
/-- CAPT_COUNT_WRITE (R79). -/
def execCaptCountWrite (t : Nat) (a : Agent) (i : Nat) (v : Word) : State → Host.Outcome State Fault Refusal :=
  run t (gateO a (pGrp (i / 64)) (0x300 + 4 * (i % 64)) (State.captWrite i v))
/-- THRESH_WRITE (R75). -/
def execThreshWrite (t : Nat) (a : Agent) (i : Nat) (v : Word) : State → Host.Outcome State Fault Refusal :=
  run t (gateO a (pGrp (i / 64)) (0x200 + 4 * (i % 64)) (State.threshWrite i v))
/-- SER_TX_HI_WRITE (R73). -/
def execSerTxHiWrite (t : Nat) (a : Agent) (g : Nat) (v : Word) : State → Host.Outcome State Fault Refusal :=
  run t (gateW a (pGrp g) (State.serTxHi g v))
/-- SER_RX_LO_READ (Table 3.13). -/
def execSerRxLoRead (t : Nat) (_a : Agent) (g : Nat) : State → Host.Outcome State Fault Refusal :=
  run t (gateR (pGrp g) (State.serRxLo g))
/-- REFLEX_ENABLE (R82). -/
def execReflexEnable (t : Nat) (a : Agent) (g k : Nat) (v : Word) : State → Host.Outcome State Fault Refusal :=
  run t (gateO a (pGrp g) (0x40C + 16 * k) (State.reflexCtrl g k v))
/-- REFLEX_TABLE_WRITE (R81). -/
def execReflexTableWrite (t : Nat) (a : Agent) (g k : Nat) (v : Word) : State → Host.Outcome State Fault Refusal :=
  run t (gateO a (pGrp g) (0x404 + 16 * k) (State.reflexTable g k v))
/-- REFLEX_OUTPUT (R81). -/
def execReflexOutput (t g k : Nat) : State → Host.Outcome State Fault Refusal := run t (·.reflexOutput g k)
/-- VCCIO_MEAS_UPDATE (R93). -/
def execVccioMeasUpdate (t g : Nat) (mv : BitVec 16) : State → Host.Outcome State Fault Refusal :=
  run t fun s => (s.vccioMeas g mv.toNat).quietSync
/-- VCCIO_RETURN (R93). -/
def execVccioReturn (t g : Nat) : State → Host.Outcome State Fault Refusal := run t (·.vccioReturn g)
/-- VCCIO_CHANGE (R120). -/
def execVccioChange (t g : Nat) (mv : BitVec 16) : State → Host.Outcome State Fault Refusal :=
  run t (·.vccioChange g mv.toNat)

end Sys2Proof.Machine
end

