-- ==== Sys2Proof/Machine/Owners.lean ====
section
/-! DEFINITION. Machine/Owners.lean: pin ownership (04_pin_ownership_electrical.md): guards and locks, function switches
and their hand-over, host drive, PIN_CFG and the park of R114. -/
namespace Sys2Proof.Machine
namespace State

/-! ### Guards (R100 to R103) -/

/-- The guard of a pin lets an agent change its owner and options (Table 4.2). -/
def guardLets (s : State) (i : Nat) (a : Agent) : Bool :=
  privileged a ||
    (match s.rf (ownReg i) 23 22 with
     | 0 => true
     | 2 => (match a with | .seq q => s.owner i = 0x10 + q | _ => false)
     | _ => false)

/-- OWN_LOCK of a pin (R102). -/
def ownLocked (s : State) (i : Nat) : Bool := s.rb (greg (i / 64) (0x720 + 4 * (i % 64 / 32))) (i % 32)

/-- A refused switch request: STATUS.REFUSE and SW_STAT (R103). -/
def swRefuse (s : State) (g n : Nat) (r : Reason) : State :=
  let r0 := s.rd (greg g 0x70C)
  (s.refuseAns (pGrp g) r).wr (greg g 0x70C) (word (r.code * 65536 + n * 256 + (fld r0 3 1) * 2 + 1))

/-- A write of OWN_LOCK sets bits (R102). (DESIGN CHOICE: assumption 10) -/
def ownLockWrite (g : Nat) (hi : Bool) (v : Word) (s : State) : State :=
  let r := greg g (if hi then 0x724 else 0x720)
  s.wr r (s.rd r ||| v)

/-- The first check that a PIN_OWN write fails: LOCKED, OWNER, RANGE, in that order (R103), a COMPANION set while the owner is
not NONE among those of OWNER; one that stays set is not refused. (DESIGN CHOICE: assumption 194) -/
def pinOwnCheck (s : State) (a : Agent) (i : Nat) (v : Word) : Option Reason :=
  let old := s.rd (ownReg i)
  if s.ownLocked i then some .locked
  else if !s.guardLets i a || (!privileged a && fld v 23 22 != fld old 23 22)
      || (i % 2 = 1 && bit v 6 && !bit old 6 && s.owner i != 0) then some .owner
  else if fld v 23 22 = 3 || fld v 19 12 = 0 || !drvOk (s.bankV (i / 64)) (fld v 9 8) then some .range
  else none

/-- The pending switches of the requests that cover pin `i` have their boundary no earlier than the end of its break
(R107). -/
def switchAfter (i : Nat) (s : State) : State :=
  match (s.pin i).brk, (s.pin i).switch with
  | some e, some w =>
    if w.bound.isNone then s
    else forEach ((s.groupPins (i / 64)).filter fun j => (s.pin j).switch.any (·.since = w.since)) (fun j s =>
      match (s.pin j).switch with
      | some v => s.setPin j { s.pin j with switch := some { v with bound := v.bound.map (max e) } }
      | none => s) s
  | _, _ => s

/-- A write of PIN_OWN stores every field or none (Table 4.12). PARK and BREAK act on a break already running, and the pad
obeys what the write changes from the next pin-cycle boundary (R118). -/
def pinOwnWrite (a : Agent) (i : Nat) (v : Word) (s : State) : State :=
  match s.pinOwnCheck a i v with
  | some r => s.refuseAns (pGrp (i / 64)) r
  | none =>
    let mask : Word := if i % 2 = 1 then 0x00FFFFC0 else 0x00FFFF80
    let old := s.rd (ownReg i)
    let x := s.pin i
    let move (e : Nat) : Nat := e + fld v 19 12 * pinCycle - fld old 19 12 * pinCycle
    let store := fun (s : State) => switchAfter i ((s.wr (ownReg i) ((old &&& ~~~mask) ||| (v &&& mask))).setPin i
      { x with brk := x.brk.map move, after := x.after.map move })
    (lagPins [i] store s).disSync i

/-! ### The drive an owner starts from (R110) -/

/-- The drive state of a new owner at a boundary: HOST_OE and HOST_LVL, the idle drive of an ON protocol block, else off
with level 0. -/
def ownStart (s : State) (i : Nat) : (Bool × Bool) × State :=
  let c := s.owner i
  if c = 0xF0 then
    ((s.rb (greg (i / 64) (0x710 + 4 * (i % 64 / 32))) (i % 32),
      s.rb (greg (i / 64) (0x718 + 4 * (i % 64 / 32))) (i % 32)), s)
  else match ownerPage c with
    | some p =>
      if c < 0x40 then ((false, false), s)
      else if s.isOn p && (s.protoDriven p).contains i then (s.protoIdle p, s.drew)
      else ((false, false), s)
    | none => ((false, false), s)

/-! ### Host drive (R99) -/

/-- A pin that the host owns takes its HOST_OE and HOST_LVL bits at the next pin-cycle boundary, one transition at most. -/
def hostDrive (i : Nat) (s : State) : State :=
  if s.owner i = 0xF0 then
    let b := s.ownStart i
    lagPins [i] (·.applyEdge i (nextAfter pinCycle s.now) (.both b.1.1 b.1.2) false) s
  else s

/-- A write of HOST_OE or HOST_LVL at `off`. -/
def hostBits (g off : Nat) (v : Word) (s : State) : State :=
  let base := 64 * g + (if off = 0x710 || off = 0x718 then 0 else 32)
  forEach ((List.range 32).map (base + ·)) hostDrive (s.wr (greg g off) v)

/-! ### Switch requests (R104 to R107) -/

/-- The pins of SW_MASK. -/
def swMask (s : State) (g : Nat) : List Nat :=
  ((bitList 32 (s.rd (greg g 0x700)).toNat) ++ (bitList 32 (s.rd (greg g 0x704)).toNat).map (· + 32)).map (64 * g + ·)

/-- The first masked pin that refuses, with the reason. -/
def swRefusal (s : State) (a : Agent) : List Nat → Option (Nat × Reason)
  | [] => none
  | i :: r =>
    if s.ownLocked i then some (i % 64, .locked)
    else if !s.guardLets i a then some (i % 64, .owner)
    else s.swRefusal a r

/-- The latest end of a break interval among pins, or `t`. -/
def breakEnds (s : State) (pins : List Nat) (t : Nat) : Nat :=
  pins.foldl (fun t i => max t ((s.pin i).brk.getD 0)) t

/-- The boundary of an immediate request (R105, R107). -/
def swBound (s : State) (pins : List Nat) : Nat := s.breakEnds pins (atOrAfter pinCycle (s.now + ns 10))

/-- The order of an agent's switch requests within a page-clock cycle: host, fabric, sequencers ascending (R106). -/
def swRank (a : Agent) : Nat :=
  match a with
  | .region r => 1 + r
  | .seq q => 200 + q
  | _ => 0

/-- A request of rank `k` taken in an earlier place than one that the pin has already taken in this page-clock cycle: it does
not prevail (R106). -/
def swBeaten (s : State) (k i : Nat) : Bool :=
  match (s.pin i).swLast with
  | some (c, r) => c = s.now / pageCycle && decide (k < r)
  | none => false

/-- A request or CANCEL of rank `k` is taken for a pin. -/
def swTaken (k i : Nat) (s : State) : State := s.setPin i { s.pin i with swLast := some (s.now / pageCycle, k) }

/-- A pin takes a pending switch. -/
def swPend (i : Nat) (w : Switch) (s : State) : State :=
  (s.setPin i { s.pin i with switch := some w }).wb (ownReg i) 0 true

/-- A pending switch is removed. -/
def swDrop (i : Nat) (s : State) : State :=
  (s.setPin i { s.pin i with switch := none }).wb (ownReg i) 0 false

/-- A pin of the list holds a pending switch. -/
def anyPending (s : State) (pins : List Nat) : Bool := pins.any fun i => (s.pin i).switch.isSome

/-- A write of SW_CTRL (R103, R104, R106). The fields of a CANCEL are judged as those of a submission.
(DEDUCED: assumption 180) -/
def swCtrl (a : Agent) (g : Nat) (v : Word) (s : State) : State :=
  let s0 := s.wr (greg g 0x708) (v &&& 0xFF3F3F00)
  let pins := s.swMask g
  let go := bit v 23
  let cancel := bit v 22
  if !go && !cancel then s0
  else if (go && cancel) || pins.isEmpty || !ownerCodeOk (fld v 31 24) || 2 ≤ fld v 21 20 then
    s0.swRefuse g 0 .range
  else match s.swRefusal a pins with
    | some (n, r) => s0.swRefuse g n r
    | none =>
      let late := pins.filter (s.swBeaten (swRank a))
      let mine := pins.filter fun i => !s.swBeaten (swRank a) i
      let lost : Bool := s.anyPending mine || (go && !late.isEmpty)
      let s1 := forEach mine (swTaken (swRank a)) (if lost then s0.wb (greg g 0x70C) 2 true else s0)
      if cancel then forEach mine swDrop s1
      else
        let w : Switch := { owner := some (fld v 31 24), since := s.now
                            mark := if fld v 21 20 = 1 then some (fld v 19 16, fld v 13 8) else none
                            bound := if fld v 21 20 = 1 then none else some (s.swBound pins) }
        forEach mine (swPend · w) s1

/-- The pins of a group whose switches wait for a mark, grouped by request: the firing at the present instant sets
their boundary (R105, R107). -/
def swMark (s : State) (d m : Nat) (late : Bool) : State :=
  let hit (i : Nat) : Bool := match (s.pin i).switch with
    | some w => w.mark = some (d, m) && w.bound.isNone && w.since < s.now
    | none => false
  let pins := (s.pins.map (·.1)).filter hit
  forEach pins (fun i s =>
    match (s.pin i).switch with
    | some w =>
      let same := pins.filter fun j => j / 64 = i / 64 && ((s.pin j).switch.map (·.since)) = some w.since
      let s1 := s.setPin i { s.pin i with
        switch := some { w with bound := some (s.breakEnds same (atOrAfter pinCycle s.now)) } }
      if late then s1.wb (greg (i / 64) 0x70C) 3 true else s1
    | none => s) s

/-! ### The hand-over (Table 4.3) -/

/-- Reflex cells of a group follow the owner codes. -/
def rfxOwners (s : State) (g : Nat) : State := forEach (List.range 16) (fun k s => rfxOwnSync g k s) s

/-- One pin passes its boundary `b`. Its park under HOLD keeps the level that the pad has there, inside an earlier park too
(R111). The old owner's transitions from 312.5 ps before `b` on are discarded; compare edges are none (R110). -/
def switchPin (i b : Nat) (w : Switch) (s : State) : State :=
  let g := i / 64
  let s0 := s.rxSync i
  let on := s0.isOn (pGrp g)
  let s1 := if on then s0.setPin i { s0.pin i with hold := s0.padLevel i } else s0
  let x := s1.pin i
  let old := s1.owner i
  let new := w.owner.getD old
  let v := s1.inputOf i old
  let keep := x.queue.filter fun q => edgeCompares q.act || decide (q.due + edgeSlot < b)
  let seen := (if new = old then x.seen else (old, b, v) :: x.seen.filter (·.1 != old)).filter (·.1 != new)
  let s2 := if keep.length < x.queue.length then s1.wb (greg g 0x70C) 1 true else s1
  let s3 := (s2.wf (ownReg i) 31 24 new).wb (ownReg i) 0 false
  let s4 := if w.owner.isNone then s3.wf (cfgReg i) 9 8 w.mode else s3
  let st := s4.ownStart i
  let y : Pin := { x with
    switch := none, lag := none, queue := keep, oe := st.1.1, lvl := st.1.2, seen := seen, analog := false
    frozen := if on then some (b, v) else none
    brk := if on then some (b + s4.breakTime i) else none, lastAt := if on then some b else x.lastAt, cycN := 1 }
  let s5 := (st.2.setPin i y).stallSync g
  let s6 := if w.owner.isNone && w.mode = 0 && on then cmpRefresh i s5 else s5
  (s6.rfxOwners g).disSync i

/-- SWITCH_BOUNDARY: every pin of the group whose boundary has come (R105, R109). -/
def switchBoundary (s : State) (g : Nat) : State :=
  forEach (s.groupPins g) (fun i s =>
    match (s.pin i).switch with
    | some w =>
      match w.bound with
      | some b => if b ≤ s.now then switchPin i b w s else s
      | none => s
    | none => s) s

/-- NEW_OWNER_INPUT: two pin cycles after the boundary the new owner's input follows the pad (Table 4.3). -/
def newOwnerInput (s : State) (i : Nat) : State :=
  let x := s.pin i
  let ready : Bool := x.frozen.any fun v => v.1 + 2 * pinCycle ≤ s.now
  if ready then
    let s1 := s.setPin i { x with frozen := none }
    let c := s1.cmpNow i
    s1.setPin i { s1.pin i with hist := (s.now, c) :: x.hist }
  else s

/-- BREAK_END: the park state ends and the pad takes the new owner's drive state (Table 4.3), unless the pin passes to the park
of another switch there (R107). -/
def breakEnd (s : State) (i : Nat) : State :=
  let x := s.pin i
  match x.brk with
  | none => s
  | some e =>
    if e ≤ s.now && !(x.switch.any fun w => w.bound.any (· ≤ e)) then
      let an : Bool := s.rf (cfgReg i) 9 8 = 1
      ((s.setPin i { x with brk := none, lag := none, lastAt := some e, cycN := 1, analog := an }).rfxOwners (i / 64)).disSync i
    else s

/-- PARK_END: the break interval after the last park cause has run (R114). -/
def parkEnd (s : State) (i : Nat) : State :=
  let x := s.pin i
  match x.after with
  | none => s
  | some e =>
    if e ≤ s.now then (s.setPin i { x with after := none, lag := none, lastAt := some e, cycN := 1 }).disSync i else s

/-! ### PIN_CFG (Table 3.14, R91, R108, R118) -/

/-- The first check that a PIN_CFG write fails. -/
def pinCfgCheck (s : State) (a : Agent) (i : Nat) (v : Word) : Option Reason :=
  let g := i / 64
  let change : Bool := fld v 9 8 != s.rf (cfgReg i) 9 8
  if 5 ≤ fld v 18 16 || fld v 15 14 = 3 || 2 ≤ fld v 9 8 || !serRateOk (s.bankV g) (fld v 10 10) then some .range
  else if change && !s.guardLets i a then some .owner
  else if change && fld v 9 8 = 1 && !s.isOn (pAna g) then some .dependency
  else none

/-- A new hysteresis is written: the comparators follow it from the next pin-cycle boundary. -/
def hystNext (i : Nat) (s : State) : State :=
  let x := s.pin i
  let v := cmpHeld x s.now
  let next := s.cmpLater i x.uv v
  let u := (s.setPin i { x with cmph := v.1, cmpl := v.2, cmpNext := next, hist := s.histOn x v next }).drewN 5
  match next with
  | some (t, _) =>
    let w := disSync { rfxLater (i / 64) t u with now := t } i
    { w with now := s.now }
  | none => u

/-- A write of PIN_CFG acts at the next pin-cycle boundary; a change of MODE is a function switch with WHEN = IMMEDIATE, and has
the place of a switch request in its page-clock cycle (R106, R108). (DESIGN CHOICE: assumption 195) -/
def pinCfgWrite (a : Agent) (i : Nat) (v : Word) (s : State) : State :=
  let g := i / 64
  match s.pinCfgCheck a i v with
  | some .owner => s.swRefuse g (i % 64) .owner
  | some r => s.refuseAns (pGrp g) r
  | none =>
    let old := s.rd (cfgReg i)
    let s0 := s.wrFrom (cfgReg i) (nextAfter pinCycle s.now) (setFld (v &&& 0x00E7FF1F) 9 8 (fld old 9 8))
    let s1 := if fld v 13 12 = fld old 13 12 then s0 else hystNext i s0
    if fld v 9 8 = fld old 9 8 then s1
    else if s.swBeaten (swRank a) i then s1.wb (greg g 0x70C) 2 true
    else
      let s2 := swTaken (swRank a) i (if (s.pin i).switch.isSome then s1.wb (greg g 0x70C) 2 true else s1)
      swPend i { owner := none, mode := fld v 9 8, since := s.now, bound := some (s.swBound [i]) } s2

end State

/-! ### The commands -/

/-- PIN_CFG_WRITE (Table 3.14). -/
def execPinCfgWrite (t : Nat) (a : Agent) (i : Nat) (v : Word) : State → Host.Outcome State Fault Refusal :=
  run t (gateO a (pGrp (i / 64)) (0x100 + 4 * (i % 64)) (State.pinCfgWrite a i v))
/-- PIN_OWN_WRITE (R103). -/
def execPinOwnWrite (t : Nat) (a : Agent) (i : Nat) (v : Word) : State → Host.Outcome State Fault Refusal :=
  run t (gateO a (pGrp (i / 64)) (0x600 + 4 * (i % 64)) (State.pinOwnWrite a i v))
/-- OWN_LOCK_WRITE (R102). -/
def execOwnLockWrite (t : Nat) (a : Agent) (g : Nat) (hi : Bool) (v : Word) :
    State → Host.Outcome State Fault Refusal :=
  run t (gateP a (pGrp g) (State.ownLockWrite g hi v))
/-- HOST_OE_WRITE (R99). -/
def execHostOeWrite (t : Nat) (a : Agent) (g : Nat) (hi : Bool) (v : Word) :
    State → Host.Outcome State Fault Refusal :=
  run t (gateO a (pGrp g) (if hi then 0x714 else 0x710) (State.hostBits g (if hi then 0x714 else 0x710) v))
/-- HOST_LVL_WRITE (R99). -/
def execHostLvlWrite (t : Nat) (a : Agent) (g : Nat) (hi : Bool) (v : Word) :
    State → Host.Outcome State Fault Refusal :=
  run t (gateO a (pGrp g) (if hi then 0x71C else 0x718) (State.hostBits g (if hi then 0x71C else 0x718) v))
/-- SWITCH_SUBMIT (R104). -/
def execSwitchSubmit (t : Nat) (a : Agent) (g : Nat) (v : Word) : State → Host.Outcome State Fault Refusal :=
  run t (gateW a (pGrp g) (State.swCtrl a g v))
/-- CANCEL (R106). -/
def execCancel (t : Nat) (a : Agent) (g : Nat) (v : Word) : State → Host.Outcome State Fault Refusal :=
  run t (gateW a (pGrp g) (State.swCtrl a g v))
/-- SWITCH_BOUNDARY (R109). -/
def execSwitchBoundary (t g : Nat) : State → Host.Outcome State Fault Refusal := run t fun s => (s.switchBoundary g).quietSync
/-- NEW_OWNER_INPUT (Table 4.3). -/
def execNewOwnerInput (t i : Nat) : State → Host.Outcome State Fault Refusal := run t (·.newOwnerInput i)
/-- BREAK_END (Table 4.3). -/
def execBreakEnd (t i : Nat) : State → Host.Outcome State Fault Refusal := run t (·.breakEnd i)
/-- PARK_END (R114). -/
def execParkEnd (t i : Nat) : State → Host.Outcome State Fault Refusal := run t (·.parkEnd i)

end Sys2Proof.Machine
end

