-- ==== Sys2Proof/Machine/Analog.lean ====
section
/-! DEFINITION. Machine/Analog.lean: the analogue blocks: ADCs, DACs and the PMU (R87 to R91, R95, R96). -/
namespace Sys2Proof.Machine
namespace State

def areg (g off : Nat) : Nat := reg (pAna g) off
/-- ADCn_CFG. -/
def adcCfg (s : State) (g j : Nat) : Word := s.rd (areg g (0x040 + 4 * j))

def adc (s : State) (g j : Nat) : Adc := if j = 0 then (s.ana g).adc0 else (s.ana g).adc1
def setAdc (s : State) (g j : Nat) (x : Adc) : State :=
  s.setAna g (if j = 0 then { s.ana g with adc0 := x } else { s.ana g with adc1 := x })

/-- A conversion starts at instant `t`, if the page is ON, the converter is on and none runs (R88). -/
def adcStartAt (s : State) (g j t : Nat) : State :=
  let x := s.adc g j
  if s.isOn (pAna g) && bit (s.adcCfg g j) 0 && x.busy.isNone then
    s.setAdc g j { x with busy := some (t + 2 ^ fld (s.adcCfg g j) 15 12 * ns 500) }
  else s

/-- One start by CAPT, for instant `t`: it waits for its instant and for a conversion that ends by then, and a converter
converting at `t` ignores it (R88, R158). -/
def captStart (g j t : Nat) (s : State) : State :=
  let x := s.adc g j
  if s.now < t || x.busy.any (· ≤ t) then s.setAdc g j { x with capts := x.capts ++ [t] }
  else if fld (s.adcCfg g j) 9 8 = 2 then s.adcStartAt g j t else s

/-- The starts by CAPT whose vectors have begun take effect (R158). -/
def captSync (s : State) (g j : Nat) : State :=
  let x := s.adc g j
  if x.capts.isEmpty then s else forEach x.capts (captStart g j) (s.setAdc g j { x with capts := [] })

/-- A conversion starts at the present. -/
def adcStart (s : State) (g j : Nat) : State := (s.captSync g j).adcStartAt g j s.now

/-- A trigger of kind `k`: 0 a write of ADC_TRIG, 2 a sequencer (Table 3.19). -/
def adcTrigger (s : State) (g j k : Nat) : State := if fld (s.adcCfg g j) 9 8 = k then s.adcStart g j else s

/-- A write of ADC_TRIG. -/
def adcTrigWrite (g : Nat) (v : Word) (s : State) : State :=
  let s1 := if bit v 0 then s.adcTrigger g 0 0 else s
  if bit v 1 then s1.adcTrigger g 1 0 else s1

/-- A write of ADCn_CFG (Table 3.19). It takes effect at the next conversion: one under way runs on (R95). -/
def adcCfgWrite (g j : Nat) (v : Word) (s : State) : State :=
  if 8 < fld v 15 12 || fld v 9 8 = 3 || 8 < fld v 7 4 then s.refuseAns (pAna g) .range
  else
    let s1 := (s.captSync g j).wr (areg g (0x040 + 4 * j)) (v &&& 0xF3F1)
    if bit v 0 then s1.adcTrigger g j 1 else s1

/-- ADC_RESULT: a conversion ends (R88). (DESIGN CHOICE: assumption 44) -/
def adcResult (s0 : State) (g j : Nat) (code : BitVec 16) : State :=
  let s := s0.captSync g j
  let x := s.adc g j
  if x.busy.any (· ≤ s.now) then
    let full : Bool := 256 ≤ x.fifo.length
    let s1 := s.setAdc g j { x with busy := none, fifo := if full then x.fifo else x.fifo ++ [code] }
    let s2 := s1.wr (areg g (0x050 + 4 * j)) (word (0x80000000 + code.toNat))
    (((s2.raise (pAna g) j).raiseIf full (pAna g) (2 + j)).captSync g j).adcTrigger g j 1
  else s

/-- A read of ADCn_RESULT clears VALID. -/
def adcResultRead (g j : Nat) (s : State) : State :=
  let r := areg g (0x050 + 4 * j)
  (s.wb r 31 false).ret (s.rd r).toNat

/-- A read of ADCn_FIFO pops the oldest result; an empty FIFO reads 0. -/
def adcFifoRead (g j : Nat) (s : State) : State :=
  let x := s.adc g j
  match x.fifo with
  | [] => s.ret 0
  | c :: r => (s.setAdc g j { x with fifo := r }).ret c.toNat

/-- FIFO_STAT. -/
def fifoStat (s : State) (g : Nat) : Word := word ((s.adc g 1).fifo.length * 65536 + (s.adc g 0).fifo.length)

/-! ### Forcing sources -/

def dacForces (v : Word) : Bool := bit v 31
def dacBus (v : Word) : Nat := fld v 18 16
/-- The PMU in FV or FI mode forces its bus. -/
def pmuForces (v : Word) : Bool := bit v 0 && (fld v 2 1 = 1 || fld v 2 1 = 2)
def pmuBus (v : Word) : Nat := fld v 10 8

/-- The clamp window is empty in the mode it serves (R90). -/
def clampEmpty (ctrl clamp : Word) : Bool :=
  if fld ctrl 2 1 = 2 then fld clamp 31 16 < fld clamp 15 0
  else if fld ctrl 2 1 = 1 then decide (signed 16 (fld clamp 31 16) < signed 16 (fld clamp 15 0))
  else false

/-- PMU_STAT.FORCING follows; CLAMPED falls when the PMU does not force. -/
def pmuSync (s : State) (g : Nat) : State :=
  let f := s.isOn (pAna g) && pmuForces (s.rd (areg g 0x080))
  s.wr (areg g 0x090) (word (if f then 2 * b2n (s.rb (areg g 0x090) 1) + 1 else 0))

/-- The group's bank voltage in units of 62.5 µV. -/
def bankCode (s : State) (g : Nat) : Nat := bankMv (s.bankV g) * 16

/-- A voltage that DAC code `c` forces, at most the bank voltage (R89). -/
def dacVolts (s : State) (g c : Nat) : Nat := min c (s.bankCode g)

/-- DACj forces its bus while the page is ON and the DAC is. -/
def dacOut (s : State) (g j : Nat) : State :=
  let v := s.rd (areg g (0x070 + 4 * j))
  if s.isOn (pAna g) && dacForces v then s.emit (.volts g (dacBus v) (s.dacVolts g (fld v 15 0))) else s

/-- A current clamp code beyond ±32,000 acts as ±32,000 (R90). -/
def clampCode (c : Nat) : Int := clampInt (signed 16 c) 32000

/-- The PMU forces its bus: a voltage within the bank's with the current held between the clamps, or a current with the
voltage held between the clamps and within 0 V to the bank voltage (R90). -/
def pmuOut (s : State) (g : Nat) : State :=
  let c := s.rd (areg g 0x080)
  let f := s.rf (areg g 0x084) 15 0
  let k := s.rd (areg g 0x088)
  if !(s.isOn (pAna g) && pmuForces c) then s
  else if fld c 2 1 = 1 then
    (s.emit (.volts g (pmuBus c) (min f (s.bankCode g)))).emit
      (.limits g (pmuBus c) (clampCode (fld k 15 0)) (clampCode (fld k 31 16)))
  else
    (s.emit (.amps g (pmuBus c) (fld c 5 4) (signed 16 f))).emit
      (.limits g (pmuBus c) (s.dacVolts g (fld k 15 0)) (s.dacVolts g (fld k 31 16)))

/-- A second forcing source on a bus: no effect, CONFLICT and BUS_CONFLICT (R87). -/
def busConflict (s : State) (g : Nat) : State := (s.refuseAns (pAna g) .conflict).raise (pAna g) 5

/-- A write of DACj. -/
def dacWrite (g j : Nat) (v : Word) (s : State) : State :=
  let other := s.rd (areg g (0x074 - 4 * j))
  let pmu := s.rd (areg g 0x080)
  if dacForces v && ((dacForces other && dacBus other = dacBus v) || (pmuForces pmu && pmuBus pmu = dacBus v)) then
    s.busConflict g
  else (s.wr (areg g (0x070 + 4 * j)) (v &&& 0x8007FFFF)).dacOut g j

/-- A write of PMU_CTRL (R87, R90). FORCE stays as it is where the new mode would refuse it: a voltage is then limited to the
bank's. (DESIGN CHOICE: assumption 193) -/
def pmuCtrl (g : Nat) (v : Word) (s : State) : State :=
  let d0 := s.rd (areg g 0x070)
  let d1 := s.rd (areg g 0x074)
  if fld v 2 1 = 3 then s.refuseAns (pAna g) .range
  else if (bit v 0 || s.rb (areg g 0x080) 0) && clampEmpty v (s.rd (areg g 0x088)) then
    s.refuseAns (pAna g) .inconsistent
  else if pmuForces v && ((dacForces d0 && dacBus d0 = pmuBus v) || (dacForces d1 && dacBus d1 = pmuBus v)) then
    s.busConflict g
  else ((s.wr (areg g 0x080) (v &&& 0x737)).pmuSync g).pmuOut g

/-- A FORCE code lies outside what the mode allows (R90). -/
def forceBad (s : State) (g : Nat) (ctrl v : Word) : Bool :=
  if fld ctrl 2 1 = 1 then bankMv (s.bankV g) * 10000 < fld v 15 0 * 625
  else if fld ctrl 2 1 = 2 then decide (32000 < signed 16 (fld v 15 0)) || decide (signed 16 (fld v 15 0) < -32000)
  else false

/-- A write of PMU_FORCE. -/
def pmuForce (g : Nat) (v : Word) (s : State) : State :=
  if s.forceBad g (s.rd (areg g 0x080)) v then s.refuseAns (pAna g) .range
  else (s.wr (areg g 0x084) (v &&& 0xFFFF)).pmuOut g

/-- A write of PMU_CLAMP. -/
def pmuClampWrite (g : Nat) (v : Word) (s : State) : State :=
  let c := s.rd (areg g 0x080)
  if bit c 0 && clampEmpty c v then s.refuseAns (pAna g) .inconsistent
  else (s.wr (areg g 0x088) v).pmuOut g

/-- The clamp starts to hold: PMU_CLAMP once for each entry (R90). -/
def pmuClampOn (s : State) (g : Nat) : State :=
  if s.rb (areg g 0x090) 0 && !s.rb (areg g 0x090) 1 then (s.wb (areg g 0x090) 1 true).raise (pAna g) 4 else s

/-- The clamp no longer holds. -/
def pmuClampOff (s : State) (g : Nat) : State := s.wb (areg g 0x090) 1 false

/-! ### Enable (R96) -/

/-- The checks of an ANALOG enable, in the order of Table 16.5. -/
def anaCheck (s : State) (g : Nat) : Option Reason :=
  let bad (j : Nat) : Bool :=
    8 < fld (s.adcCfg g j) 15 12 || fld (s.adcCfg g j) 9 8 = 3 || 8 < fld (s.adcCfg g j) 7 4
  let c := s.rd (areg g 0x080)
  if bad 0 || bad 1 || fld c 2 1 = 3 || s.forceBad g c (s.rd (areg g 0x084)) then some .range
  else if !s.isOn (pGrp g) then some .dependency
  else none

/-- The starts by CAPT that came while the page was not ON have no effect (R96). -/
def captDrop (s : State) (g : Nat) : State :=
  let s1 := s.setAdc g 0 { s.adc g 0 with capts := (s.adc g 0).capts.filter (s.now < ·) }
  s1.setAdc g 1 { s1.adc g 1 with capts := (s1.adc g 1).capts.filter (s.now < ·) }

/-- At the enable sources connect and CONTINUOUS converters start. -/
def anaStart (s : State) (g : Nat) : State :=
  (((((s.captDrop g).pmuSync g).adcTrigger g 0 1).adcTrigger g 1 1).dacOut g 0 |>.dacOut g 1).pmuOut g

/-- At the disable a conversion in progress is abandoned, and no source forces a bus. -/
def anaStop (s : State) (g : Nat) : State :=
  let s0 := s.captDrop g
  let s1 := s0.setAdc g 0 { s0.adc g 0 with busy := none }
  (s1.setAdc g 1 { s1.adc g 1 with busy := none }).wr (areg g 0x090) 0

/-- A pin of the group is in analogue mode: the block cannot be disabled (R96). -/
def anaHeld (s : State) (g : Nat) : Bool :=
  (List.range 64).any fun n => s.rf (cfgReg (64 * g + n)) 9 8 = 1

end State

/-! ### The commands -/

/-- ADC_TRIG (R88). -/
def execAdcTrig (t : Nat) (a : Agent) (g : Nat) (v : Word) : State → Host.Outcome State Fault Refusal :=
  run t (gateW a (pAna g) (State.adcTrigWrite g v))
/-- ADC_RESULT (R88). -/
def execAdcResult (t g j : Nat) (code : BitVec 16) : State → Host.Outcome State Fault Refusal :=
  run t (·.adcResult g j code)
/-- ADC_RESULT_READ (Table 3.19). -/
def execAdcResultRead (t g j : Nat) : State → Host.Outcome State Fault Refusal :=
  run t (gateR (pAna g) (State.adcResultRead g j))
/-- ADC_FIFO_READ (Table 3.19). -/
def execAdcFifoRead (t : Nat) (_a : Agent) (g j : Nat) : State → Host.Outcome State Fault Refusal :=
  run t (gateR (pAna g) (State.adcFifoRead g j))
/-- DAC_WRITE (R87). -/
def execDacWrite (t : Nat) (a : Agent) (g j : Nat) (v : Word) : State → Host.Outcome State Fault Refusal :=
  run t (gateO a (pAna g) (0x070 + 4 * j) (State.dacWrite g j v))
/-- PMU_CTRL_WRITE (R90). -/
def execPmuCtrlWrite (t : Nat) (a : Agent) (g : Nat) (v : Word) : State → Host.Outcome State Fault Refusal :=
  run t (gateO a (pAna g) 0x080 (State.pmuCtrl g v))
/-- PMU_FORCE_WRITE (R90). -/
def execPmuForceWrite (t : Nat) (a : Agent) (g : Nat) (v : Word) : State → Host.Outcome State Fault Refusal :=
  run t (gateO a (pAna g) 0x084 (State.pmuForce g v))
/-- PMU_CLAMP_WRITE (R90). -/
def execPmuClampWrite (t : Nat) (a : Agent) (g : Nat) (v : Word) : State → Host.Outcome State Fault Refusal :=
  run t (gateO a (pAna g) 0x088 (State.pmuClampWrite g v))
/-- PMU_CLAMP (R90). -/
def execPmuClamp (t g : Nat) : State → Host.Outcome State Fault Refusal := run t (·.pmuClampOn g)
/-- PMU_CLAMP_RELEASE (R90). -/
def execPmuClampRelease (t g : Nat) : State → Host.Outcome State Fault Refusal := run t (·.pmuClampOff g)

end Sys2Proof.Machine
end

