-- ==== Sys2Proof/Machine/Counters.lean ====
section
/-! DEFINITION. Machine/Counters.lean: event counters, the compatibility interface, dumps and sampling presets
(11_counters.md). -/
namespace Sys2Proof.Machine

/-- Event number `n` is assigned: the chapter of its page defines the bit (R326). -/
def assigned (n : Nat) : Bool :=
  match blockOf (n / 16) with
  | none => false
  | some b => nbit (defEvents b) (n % 16)

/-- The number of assigned event numbers (CNT_INFO). -/
def assignedCount : Nat :=
  ((List.range 0x1F0).map fun p => match blockOf p with | none => 0 | some b => popCount 16 (defEvents b)).sum

/-- The next assigned number after `n`, wrapping from the highest to the lowest (R331). -/
def nextAssigned (n : Nat) : Nat :=
  match (List.range 0x1F00).find? (fun m => n < m && assigned m) with
  | some m => m
  | none => ((List.range 0x1F00).find? assigned).getD 0

/-- The key of a reader's shadow (R329). -/
def readerKey : Agent → Nat
  | .host => 0 | .lattice => 1 | .steward => 2 | .jtag => 3
  | .seq q => 16 + q | .region r => 128 + r

namespace State

def creg (off : Nat) : Nat := reg pCnt off
def dumpReg (c off : Nat) : Nat := creg (0x100 + 64 * c + off)
def sampReg (k off : Nat) : Nat := creg (0x400 + 16 * k + off)

/-! ### Counting (R327, R328) -/

def count (s : State) (n : Nat) : Nat := tabGet 0 s.ctr.counts n
def ovfOf (s : State) (n : Nat) : Bool := tabGet false s.ctr.ovf n

/-- The counter of event `n` holds `c`. -/
def setCount (s : State) (n c : Nat) : State :=
  { s with ctr := { s.ctr with counts := tabSet 0 s.ctr.counts n (c % 2 ^ 48) } }

/-- OVF of event `n` set or cleared; OVF_STAT.COUNT follows. -/
def setOvf (s : State) (n : Nat) (b : Bool) : State :=
  let s1 := { s with ctr := { s.ctr with ovf := tabSet false s.ctr.ovf n b } }
  s1.wf (creg 0x058) 12 0 s1.ctr.ovf.length

/-- The counter cycle in which a raising of instant `t` reaches its counter: two after it occurs (R327). -/
def reachCycle (t : Nat) : Nat := t / seqCycle + 2

/-- The increments of `n` that counter cycle `c` has reached (R327). -/
def arrived (s : State) (c n : Nat) : Nat :=
  (s.ctr.raisings.filter fun e => e.2 = n && reachCycle e.1 ≤ c).length

def preset (s : State) (k : Nat) : Preset := tabGet {} s.ctr.presets k
def setPreset (s : State) (k : Nat) (x : Preset) : State :=
  { s with ctr := { s.ctr with presets := tabPut s.ctr.presets k x } }

/-- Preset `k` fires at instant `t`: P is added to the remaining count until that is above 0 (R338). -/
def presetFire (t k : Nat) (s : State) : State :=
  let x := s.preset k
  let p : Int := (s.rd (sampReg k 4)).toNat
  let n := s.rf (sampReg k 0) 15 0
  let adds := ((-x.rem) / p + 1).toNat
  let r := x.rem + p * adds
  let missed := min 65535 (s.rf (sampReg k 12) 31 16 + (adds - 1))
  let s1 := s.setPreset k { rem := r }
  let s2 := (s1.wr (sampReg k 8) (word (unsigned 32 r))).wr (sampReg k 12)
    (word (missed * 65536 + (s.rf (sampReg k 12) 15 0 + 1) % 65536))
  let s3 := (s2.wr (creg 0x060) (word k)).raiseAt t pCnt 5
  match blockRow (n / 16) with
  | some (.seq, b) => { s3 with ctr := { s3.ctr with samples := s3.ctr.samples ++ [(t + 3 * seqCycle, n / 16 - b)] } }
  | _ => s3

/-- Preset `k` fires where its firing is due by instant `t`. -/
def presetDue (s : State) (t k : Nat) : State :=
  match (s.preset k).hitAt with
  | some h => if s.rb (sampReg k 0) 31 && decide (h ≤ t) && decide (0 < (s.rd (sampReg k 4)).toNat) then presetFire h k s else s
  | none => s

/-- A preset's remaining count falls by the increments its counter took in counter cycle `c`; at or below 0 it fires one counter
cycle later. A firing due by then adds P before it falls. (R338, DESIGN CHOICE: assumption 204)
(DESIGN CHOICE: assumption 204) -/
def presetDown (s : State) (c n inc k : Nat) : State :=
  if s.rb (sampReg k 0) 31 && s.rf (sampReg k 0) 15 0 = n then
    let s0 := s.presetDue (c * seqCycle) k
    let x := s0.preset k
    let r := x.rem - inc
    let hit := if r ≤ 0 then (match x.hitAt with | some h => some h | none => some ((c + 1) * seqCycle)) else x.hitAt
    (s0.setPreset k { rem := r, hitAt := hit }).wr (sampReg k 8) (word (unsigned 32 r))
  else s

/-- The counter of event `n` takes `inc` increments in counter cycle `c` (R327, R328). -/
def countUp (s : State) (c n inc : Nat) : State :=
  let x := s.count n + inc
  let s1 := s.setCount n x
  let s2 := if 2 ^ 48 ≤ x then (s1.setOvf n true).raiseAt (c * seqCycle) pCnt 0 else s1
  forEach (List.range 16) (fun k s => s.presetDown c n inc k) s2

/-- Counter cycle `c`: every raising that reaches its counter in it is counted. OVF_STAT.LAST takes the lowest event number that
overflows in the cycle. -/
def countCycle (c : Nat) (s : State) : State :=
  let due := s.ctr.raisings.filter fun e => reachCycle e.1 ≤ c
  let ns := (due.map (·.2)).eraseDups
  let wrapped := ns.filter fun n => 2 ^ 48 ≤ s.count n + s.arrived c n
  let s1 := forEach ns (fun n s' => s'.countUp c n (s.arrived c n))
    { s with ctr := { s.ctr with raisings := s.ctr.raisings.filter fun e => !decide (reachCycle e.1 ≤ c) } }
  match wrapped with
  | [] => s1
  | n :: r => s1.wf (creg 0x058) 31 16 (r.foldl min n)

/-- The counter cycles with increments, one after the other, up to cycle `c`: `n` of them at most. Counting may raise
COUNTER's own events, which later cycles count. -/
def countTo (c : Nat) : Nat → State → State
  | 0, s => s
  | n + 1, s =>
    match (s.ctr.raisings.map fun e => reachCycle e.1).min? with
    | some d => if d ≤ c then countTo c n (countCycle d s) else s
    | none => s

/-- Every raising that has reached its counter by counter cycle `c` is counted. -/
def countBy (s : State) (c : Nat) : State :=
  let u := s.rxAll
  countTo c (c + 40 * (u.ctr.raisings.length + 1)) u

/-- Every raising that has reached its counter by the present counter cycle is counted. (DEDUCED: assumption 134) -/
def counterSync (s : State) : State := s.countBy (s.now / seqCycle)

/-! ### Reading and writing (R329 to R332) -/

/-- A read of a counter's low word: the counter after the present cycle's update, its high word latched into the
reader's shadow. -/
def countLo (s : State) (key n : Nat) : State :=
  let s0 := s.counterSync
  let c := s0.count n
  let hi := c / 2 ^ 32 + b2n (s0.ovfOf n) * 2 ^ 31
  ({ s0 with ctr := { s0.ctr with shadows := tabSet 0 s0.ctr.shadows key hi } }).ret (c % 2 ^ 32)

/-- A read of the high word: the reader's shadow. (DEDUCED: assumption 75) -/
def countHi (s : State) (key : Nat) : State := s.ret (tabGet 0 s.ctr.shadows key)

/-- The event that CNT_SEL names. -/
def cntSel (s : State) : Nat := s.rf (creg 0x040) 15 0

/-- A write of CNT_SEL (R331). -/
def cntSelWrite (v : Word) (s : State) : State :=
  if assigned (fld v 15 0) then s.wr (creg 0x040) (v &&& 0x8000FFFF) else s.refuseAns pCnt .range

/-- A read of CNT_LO. -/
def cntLoRead (a : Agent) (s : State) : State :=
  if assigned s.cntSel then s.countLo (readerKey a) s.cntSel else s.ret 0

/-- A read of CNT_HI; with AUTOINC it advances the selection. -/
def cntHiRead (a : Agent) (s : State) : State :=
  let s1 := if assigned s.cntSel then s.countHi (readerKey a) else s.ret 0
  if s.rb (creg 0x040) 31 then s1.wf (creg 0x040) 15 0 (nextAssigned s.cntSel) else s1

/-- What a capture in counter cycle `cyc` holds of event `n`. -/
def dumpEntry (s : State) (cyc n : Nat) : Nat × Bool × Bool × Nat :=
  let x := s.count n + s.arrived cyc n
  if assigned n then (n, s.ovfOf n || decide (2 ^ 48 ≤ x), true, x % 2 ^ 48) else (n, false, false, 0)

/-- The captures of the present counter cycle, or of one to come, show what a write of counter `n` has made of it. -/
def recapture (n : Nat) (s : State) : State :=
  { s with ctr := { s.ctr with dumps := s.ctr.dumps.map fun e =>
      (e.1, { e.2 with cap := e.2.cap.map fun k =>
        if s.now / seqCycle ≤ k.time / seqCycle then
          { k with entries := k.entries.map fun x => if x.1 = n then s.dumpEntry (k.time / seqCycle) n else x }
        else k }) } }

/-- A write of CNT_HI: OVF is W1C (R328). -/
def cntHiWrite (v : Word) (s : State) : State :=
  if bit v 31 && assigned s.cntSel then recapture s.cntSel (s.counterSync.setOvf s.cntSel false) else s

/-- CNT_CTRL.WRITE: the value replaces the count; increments of that cycle are lost (R332). -/
def cntWrite (v : Word) (s : State) : State :=
  if bit v 0 && assigned s.cntSel then
    let n := s.cntSel
    let c := s.now / seqCycle
    let s0 := s.countBy (c - 1)
    let s1 := { s0 with ctr := { s0.ctr with
      raisings := s0.ctr.raisings.filter fun e => !(e.2 = n && decide (reachCycle e.1 = c)) } }
    recapture n (s1.setCount n ((s.rd (creg 0x04C)).toNat + s.rf (creg 0x050) 15 0 * 2 ^ 32))
  else s

/-! ### Dumps (R333 to R337) -/

def dumpOf (s : State) (c : Nat) : Dump := tabGet {} s.ctr.dumps c
def setDump (s : State) (c : Nat) (x : Dump) : State :=
  { s with ctr := { s.ctr with dumps := tabPut s.ctr.dumps c x } }

def dumpFirst (s : State) (c : Nat) : Nat := s.rf (dumpReg c 0x04) 15 0
def dumpLast (s : State) (c : Nat) : Nat := s.rf (dumpReg c 0x04) 31 16

/-- Bytes of a record of the range that a DRANGE word names, padded to a multiple of 64 (R335). -/
def recLen (range : Word) : Nat := atOrAfter 64 (32 + 8 * (fld range 31 16 + 1 - fld range 15 0))

/-- Bytes of a record of channel `c`. -/
def recBytes (s : State) (c : Nat) : Nat := recLen (s.rd (dumpReg c 0x04))

/-- Bytes of the ring. -/
def ringBytes (s : State) (c : Nat) : Nat := s.rf (dumpReg c 0x14) 19 0 * 64

/-- DWR after one more record. -/
def dumpNext (s : State) (c : Nat) : Nat :=
  let n := (s.rd (dumpReg c 0x18)).toNat + s.recBytes c
  if s.ringBytes c ≤ n then 0 else n

/-- The ring is full: writing would reach DRD (R336). -/
def dumpFull (s : State) (c : Nat) : Bool := s.dumpNext c = (s.rd (dumpReg c 0x1C)).toNat

/-- A counter of the channel's range, which only an assigned number has, still holds a capture shadow of another channel taken in
an earlier counter cycle (R334). -/
def dumpOverlap (s : State) (c cyc : Nat) : Bool :=
  (List.range 4).any fun e => e != c &&
    (match (s.dumpOf e).cap with
     | none => false
     | some k => decide (k.time / seqCycle < cyc)
        && k.entries.any fun x => x.2.2.1 && decide (s.dumpFirst c ≤ x.1) && decide (x.1 ≤ s.dumpLast c))

/-- The entries of a capture in counter cycle `cyc`. -/
def dumpEntries (s : State) (c cyc : Nat) : List (Nat × Bool × Bool × Nat) :=
  (List.range (s.dumpLast c + 1 - s.dumpFirst c)).map fun k => s.dumpEntry cyc (s.dumpFirst c + k)

/-- The lattice time at an instant, while CARILLON is LOCKED. -/
def ltimeAt (s : State) (t : Nat) : Nat :=
  (((t - s.resetEnd) / timeStep : Nat) + s.lat.ltOff).toNat

/-- A trigger of channel `c` whose capture cycle starts at instant `t` (R333, R334). (DEDUCED: assumption 133) -/
def dumpTrigger (s0 : State) (c t : Nat) (late : Bool) : State :=
  let s := s0.rxAll
  let x := s.dumpOf c
  let stop := s.dumpFull c && !s.rb (dumpReg c 0) 27
  if !(s.isOn pCnt && s.rb (dumpReg c 0) 31) then s
  else if x.cap.isSome || s.dumpOverlap c (t / seqCycle) || stop then
    let n := s.rf (dumpReg c 0x20) 31 16
    let s1 := (s.wf (dumpReg c 0x20) 31 16 (min 65535 (n + 1))).setDump c
      { x with skips := min 65535 (x.skips + 1), fullRaised := x.fullRaised || stop }
    (s1.raise pCnt 2).raiseIf (stop && !x.fullRaised) pCnt 3
  else
    let s1 := if s.dumpFull c then
        let r := (s.rd (dumpReg c 0x1C)).toNat + s.recBytes c
        s.wr (dumpReg c 0x1C) (word (if s.ringBytes c ≤ r then 0 else r))
      else s
    let q := (x.seq + 1) % 65536
    s1.setDump c { x with seq := q, skips := 0, cap := some {
      time := t
      ltime := if s.rb (reg pCar 0x044) 28 then some (s.ltimeAt t) else none
      late := late, trig := s.rf (dumpReg c 0) 29 28, skipped := x.skips, seq := q
      entries := s.dumpEntries c (t / seqCycle)
      cfg := s.rd (dumpReg c 0), range := s.rd (dumpReg c 0x04)
      base := (s.rd (dumpReg c 0x0C)).toNat + (s.rd (dumpReg c 0x10)).toNat * 2 ^ 32
      ring := s.ringBytes c, dwr := (s.rd (dumpReg c 0x18)).toNat } }

/-- The bytes of a record (Table 11.4), padding included. -/
def recordBytes (s : State) (c : Nat) (k : Capture) : List Byte :=
  let dt := (k.time - s.resetEnd) / timeStep
  let head := natBytes 4 (5 * 2 ^ 28 + k.trig * 2 ^ 26 + c * 2 ^ 24 + k.seq)
    ++ wordBytes k.range ++ natBytes 8 dt ++ natBytes 8 (k.ltime.getD 0)
    ++ natBytes 4 (k.skipped * 65536 + 2 * b2n k.late + b2n k.ltime.isSome) ++ natBytes 4 0
  let ent := k.entries.flatMap fun e =>
    natBytes 8 (b2n e.2.1 * 2 ^ 63 + b2n e.2.2.1 * 2 ^ 62 + e.2.2.2)
  let all := head ++ ent
  all ++ List.replicate (recLen k.range - all.length) 0

/-- Channel `c` has no capture under way. -/
def dropCap (s : State) (c : Nat) : State := s.setDump c { s.dumpOf c with cap := none }

/-- The next word of the capture of channel `c` is written through port B of its deep memory; a SELFTEST response abandons the
record (R336). -/
def dumpWord (s : State) (c : Nat) (k : Capture) : State :=
  let dp := fld k.cfg 19 16
  let o := k.base % 2 ^ 19 + k.dwr + 8 * k.wrote
  if s.deepHeld dp then (s.dropCap c).raiseAt s.now pCnt 4
  else (s.setDump c { s.dumpOf c with cap := some { k with wrote := k.wrote + 1 } }).deepWr dp (o / 8)
    (bytesNat (((s.recordBytes c k).drop (8 * k.wrote)).take 8)) 255 true

/-- The capture of channel `c` that still has words for a deep memory to come. -/
def dumpLeft (s : State) (c : Nat) : Option Capture :=
  (s.dumpOf c).cap.filter fun k => bit k.cfg 30 || decide (8 * k.wrote < recLen k.range)

/-- Words of records are written into deep memories up to the present, `n` at most: one in each counter cycle after its capture,
of the lowest channel that holds a capture; a record for host memory holds back those of higher channels until it is written.
(R336) (DESIGN CHOICE: assumption 206) -/
def dumpRun : Nat → State → State
  | 0, s => s
  | n + 1, s =>
    let caps := (List.range 4).filterMap fun c => (s.dumpLeft c).map fun k => (c, k)
    match (caps.map fun e => e.2.time / seqCycle).min? with
    | none => s
    | some m =>
      let cyc := max s.ctr.dumpAt m + 1
      match caps.find? fun e => decide (e.2.time / seqCycle < cyc) with
      | none => s
      | some (c, k) =>
        if bit k.cfg 30 || decide (s.now < cyc * seqCycle) then s
        else
          let u := dumpWord { s with now := cyc * seqCycle, ctr := { s.ctr with dumpAt := cyc } } c k
          dumpRun n { u with now := s.now }

/-- The words due by now: at most those of four records of the whole counter space. -/
def dumpSync (s : State) : State :=
  if s.ctr.dumps.all fun e => e.2.cap.isNone then s
  else dumpRun (((List.range 4).map fun c => match s.dumpLeft c with | some k => recLen k.range / 8 | none => 0).sum) s

/-- What is left of the capture of channel `c` for its deep memory is written at the present instant. -/
def dumpRest (c : Nat) : Nat → State → State
  | 0, s => s
  | n + 1, s =>
    match (s.dumpOf c).cap with
    | some k => dumpRest c n (s.dumpWord c k)
    | none => s

/-- A record is whole, or abandoned (R336). (DESIGN CHOICE: assumption 83) -/
def dumpDone (s0 : State) (c : Nat) : State :=
  let s := s0.dumpSync
  match (s.dumpOf c).cap with
  | none => s
  | some k =>
    let next := if k.ring ≤ k.dwr + recLen k.range then 0 else k.dwr + recLen k.range
    let done (t : State) : State :=
      (if k.stale then t else (t.wr (dumpReg c 0x18) (word next)).wf (dumpReg c 0x20) 15 0 k.seq).raise pCnt 1
    if (List.range c).any fun e => (s.dumpOf e).cap.isSome then s
    else if bit k.cfg 30 then
      if s.busReady then done ((s.dropCap c).hostPut (k.base + k.dwr) (s.recordBytes c k))
      else
        let kind := if s.ep.busMaster then 1 + s.freeNat % 5 else 1
        ((if s.ep.busMaster then (s.dropCap c).drew else s.dropCap c).dmaErr 3 kind).raise pCnt 4
    else
      let u := dumpRest c (recLen k.range / 8 - k.wrote) s
      if (u.dumpOf c).cap.isNone then u else done (u.dropCap c)

/-- The checks of a channel's enable (R337), in the order of Table 16.5. -/
def dumpCheck (s : State) (c : Nat) : Option Reason :=
  let trig := s.rf (dumpReg c 0) 29 28
  let base := (s.rd (dumpReg c 0x0C)).toNat
  if s.dumpLast c < s.dumpFirst c || 0x1EFF < s.dumpLast c || trig = 3
      || (trig = 0 && s.rd (dumpReg c 0x08) = 0) || base % 64 != 0
      || s.ringBytes c = 0 || s.ringBytes c % s.recBytes c != 0
      || (!s.rb (dumpReg c 0) 30 && 0x80000 < base % 2 ^ 19 + s.ringBytes c) then some .range
  else if !s.isOn pCnt || (trig = 1 && !s.isOn (pDom (s.rf (dumpReg c 0) 11 8))) then some .dependency
  else none

/-- A write of DCFG (R337): its fields, and EN, take writes only while EN = 0, and EN = 0 ends the channel. -/
def dcfgWrite (c : Nat) (v : Word) (s : State) : State :=
  if s.rb (dumpReg c 0) 31 then (if bit v 31 then s else s.wb (dumpReg c 0) 31 false)
  else
    let s1 := s.wr (dumpReg c 0) (v &&& 0x780F0F3F)
    if !bit v 31 then s1
    else match s1.dumpCheck c with
      | some r => s1.refuseAns pCnt r
      | none =>
        let s2 := s1.wb (dumpReg c 0) 31 true
        let s3 := ((s2.wr (dumpReg c 0x18) 0).wr (dumpReg c 0x1C) 0).wr (dumpReg c 0x20) 0
        s3.setDump c
          { nextAt := s.now + us (s.rd (dumpReg c 0x08)).toNat
            cap := (s.dumpOf c).cap.map fun k => { k with stale := true } }

/-- A write of a channel register that takes writes only while EN = 0. -/
def dumpField (c off : Nat) (mask v : Word) (s : State) : State :=
  if s.rb (dumpReg c 0) 31 then s else s.wr (dumpReg c off) (v &&& mask)

/-- The clearing of a channel's EN at a page disable (R337): the record being written completes. -/
def dumpOff (s : State) (c : Nat) : State := s.wb (dumpReg c 0) 31 false

/-- DTRIG.CAPTURE (Table 11.3): the first counter cycle after the write. -/
def dtrigWrite (c : Nat) (v : Word) (s : State) : State :=
  if bit v 0 && s.rf (dumpReg c 0) 29 28 = 2 then s.dumpTrigger c (nextAfter seqCycle s.now) false else s

/-- A period of DPERIOD µs has run (Table 11.3). -/
def dumpPeriod (s : State) (c : Nat) : State :=
  let x := s.dumpOf c
  if s.rf (dumpReg c 0) 29 28 = 0 && s.rb (dumpReg c 0) 31 && x.nextAt ≤ s.now then
    (s.setDump c { x with nextAt := x.nextAt + us (s.rd (dumpReg c 0x08)).toNat }).dumpTrigger c
      (atOrAfter seqCycle s.now) false
  else s

/-- Every channel triggered by a firing of mark `m` of domain `d` (Table 11.3). -/
def dumpMark (s : State) (d m : Nat) (late : Bool) : State :=
  forEach (List.range 4) (fun c s =>
    if s.rf (dumpReg c 0) 29 28 = 1 && s.rf (dumpReg c 0) 11 8 = d && s.rf (dumpReg c 0) 5 0 = m then
      s.dumpTrigger c (atOrAfter seqCycle s.now) late
    else s) s

/-- A write of DRD (R336). -/
def drdWrite (c : Nat) (v : Word) (s : State) : State :=
  if v.toNat % s.recBytes c != 0 || s.ringBytes c ≤ v.toNat then s.refuseAns pCnt .range
  else
    let s1 := s.wr (dumpReg c 0x1C) v
    if s1.dumpFull c then s1 else s1.setDump c { s1.dumpOf c with fullRaised := false }

/-! ### Sampling presets (R338) -/

/-- A write of SCFG, after the increments that the counters have already taken. -/
def scfgWrite (k : Nat) (v : Word) (s0 : State) : State :=
  let s := s0.counterSync
  if s.rb (sampReg k 0) 31 then
    if bit v 31 then s
    else
      let s1 := s.wb (sampReg k 0) 31 false
      s1.setPreset k { s1.preset k with hitAt := none }
  else
    let s1 := s.wr (sampReg k 0) (v &&& 0x0000FFFF)
    let p := (s1.rd (sampReg k 4)).toNat
    if !bit v 31 then s1
    else if !assigned (fld v 15 0) || p = 0 then s1.refuseAns pCnt .range
    else if !s1.isOn pCnt then s1.refuseAns pCnt .dependency
    else
      ((s1.wb (sampReg k 0) 31 true).wr (sampReg k 8) (word p)).setPreset k { rem := p }

/-- A write of SPERIOD, taken only while EN = 0. -/
def speriodWrite (k : Nat) (v : Word) (s : State) : State :=
  if s.rb (sampReg k 0) 31 then s else s.wr (sampReg k 4) v

/-- A preset whose firing is due fires, after the increments of the counter cycles before it. -/
def sampleFire (s : State) (k : Nat) : State := (s.countBy (s.now / seqCycle - 1)).presetDue s.now k

end State

/-! ### The commands -/

/-- COUNTER_UPDATE (R327, R328). -/
def execCounterUpdate (t : Nat) : State → Host.Outcome State Fault Refusal := run t (·.counterSync)
/-- CNT_SEL_WRITE (R331). -/
def execCntSelWrite (t : Nat) (a : Agent) (v : Word) : State → Host.Outcome State Fault Refusal :=
  run t (gateW a pCnt (State.cntSelWrite v))
/-- CNT_LO_READ (R329). -/
def execCntLoRead (t : Nat) (a : Agent) : State → Host.Outcome State Fault Refusal :=
  run t (gateR pCnt (State.cntLoRead a))
/-- CNT_HI_READ (R331). -/
def execCntHiRead (t : Nat) (a : Agent) : State → Host.Outcome State Fault Refusal :=
  run t (gateR pCnt (State.cntHiRead a))
/-- CNT_HI_WRITE (R328). -/
def execCntHiWrite (t : Nat) (a : Agent) (v : Word) : State → Host.Outcome State Fault Refusal :=
  run t (gateW a pCnt (State.cntHiWrite v))
/-- CNT_WRITE (R332). -/
def execCntWrite (t : Nat) (a : Agent) (v : Word) : State → Host.Outcome State Fault Refusal :=
  run t (gateP a pCnt (State.cntWrite v))
/-- DUMP_ENABLE (R337). -/
def execDumpEnable (t : Nat) (a : Agent) (c : Nat) (v : Word) : State → Host.Outcome State Fault Refusal :=
  run t (gateW a pCnt (State.dcfgWrite c v))
/-- DTRIG_CAPTURE (R333). -/
def execDtrigCapture (t : Nat) (a : Agent) (c : Nat) (v : Word) : State → Host.Outcome State Fault Refusal :=
  run t (gateW a pCnt (State.dtrigWrite c v))
/-- DUMP_PERIOD (R333). -/
def execDumpPeriod (t c : Nat) : State → Host.Outcome State Fault Refusal := run t (·.dumpPeriod c)
/-- DUMP_DONE (R336). -/
def execDumpDone (t c : Nat) : State → Host.Outcome State Fault Refusal := run t (·.dumpDone c)
/-- DRD_WRITE (R336). -/
def execDrdWrite (t : Nat) (a : Agent) (c : Nat) (v : Word) : State → Host.Outcome State Fault Refusal :=
  run t (gateW a pCnt (State.drdWrite c v))
/-- SAMPLE_ENABLE (R338). -/
def execSampleEnable (t : Nat) (a : Agent) (k : Nat) (v : Word) : State → Host.Outcome State Fault Refusal :=
  run t (gateW a pCnt (State.scfgWrite k v))
/-- SAMPLE_HIT (R338). -/
def execSampleHit (t k : Nat) : State → Host.Outcome State Fault Refusal := run t (·.sampleFire k)

end Sys2Proof.Machine
end

