-- ==== Sys2Proof/Machine/Crypto.lean ====
section
/-! DEFINITION. Machine/Crypto.lean: the published functions that the spec names: the digests SHA-256 and SHA-384 (FIPS 180-4) and
the verification of an ECDSA P-384 signature (FIPS 186) (R236, R244, R370, R380, R381). -/
namespace Sys2Proof.Machine

/-! ### SHA-256 and SHA-384 (PRESUMED: FIPS 180-4) -/

/-- Constants 0 to 19 of SHA-384. -/
def shaK0 : List Nat :=
  [0x428A2F98D728AE22, 0x7137449123EF65CD, 0xB5C0FBCFEC4D3B2F, 0xE9B5DBA58189DBBC, 0x3956C25BF348B538,
   0x59F111F1B605D019, 0x923F82A4AF194F9B, 0xAB1C5ED5DA6D8118, 0xD807AA98A3030242, 0x12835B0145706FBE,
   0x243185BE4EE4B28C, 0x550C7DC3D5FFB4E2, 0x72BE5D74F27B896F, 0x80DEB1FE3B1696B1, 0x9BDC06A725C71235,
   0xC19BF174CF692694, 0xE49B69C19EF14AD2, 0xEFBE4786384F25E3, 0x0FC19DC68B8CD5B5, 0x240CA1CC77AC9C65]

/-- Constants 20 to 39 of SHA-384. -/
def shaK1 : List Nat :=
  [0x2DE92C6F592B0275, 0x4A7484AA6EA6E483, 0x5CB0A9DCBD41FBD4, 0x76F988DA831153B5, 0x983E5152EE66DFAB,
   0xA831C66D2DB43210, 0xB00327C898FB213F, 0xBF597FC7BEEF0EE4, 0xC6E00BF33DA88FC2, 0xD5A79147930AA725,
   0x06CA6351E003826F, 0x142929670A0E6E70, 0x27B70A8546D22FFC, 0x2E1B21385C26C926, 0x4D2C6DFC5AC42AED,
   0x53380D139D95B3DF, 0x650A73548BAF63DE, 0x766A0ABB3C77B2A8, 0x81C2C92E47EDAEE6, 0x92722C851482353B]

/-- Constants 40 to 59 of SHA-384. -/
def shaK2 : List Nat :=
  [0xA2BFE8A14CF10364, 0xA81A664BBC423001, 0xC24B8B70D0F89791, 0xC76C51A30654BE30, 0xD192E819D6EF5218,
   0xD69906245565A910, 0xF40E35855771202A, 0x106AA07032BBD1B8, 0x19A4C116B8D2D0C8, 0x1E376C085141AB53,
   0x2748774CDF8EEB99, 0x34B0BCB5E19B48A8, 0x391C0CB3C5C95A63, 0x4ED8AA4AE3418ACB, 0x5B9CCA4F7763E373,
   0x682E6FF3D6B2B8A3, 0x748F82EE5DEFB2FC, 0x78A5636F43172F60, 0x84C87814A1F0AB72, 0x8CC702081A6439EC]

/-- Constants 60 to 79 of SHA-384. -/
def shaK3 : List Nat :=
  [0x90BEFFFA23631E28, 0xA4506CEBDE82BDE9, 0xBEF9A3F7B2C67915, 0xC67178F2E372532B, 0xCA273ECEEA26619C,
   0xD186B8C721C0C207, 0xEADA7DD6CDE0EB1E, 0xF57D4F7FEE6ED178, 0x06F067AA72176FBA, 0x0A637DC5A2C898A6,
   0x113F9804BEF90DAE, 0x1B710B35131C471B, 0x28DB77F523047D84, 0x32CAAB7B40C72493, 0x3C9EBE0A15C9BEBC,
   0x431D67C49C100D4C, 0x4CC5D4BECB3E42B6, 0x597F299CFC657E2A, 0x5FCB6FAB3AD6FAEC, 0x6C44198C4A475817]

/-- The round constants, 80 for SHA-384; SHA-256 takes the high halves of the first 64. -/
def shaK : List Nat := shaK0 ++ shaK1 ++ shaK2 ++ shaK3

/-- What distinguishes the two functions: the rotations of Σ0, Σ1, σ0, σ1 (the last of σ is a shift) and the constants. -/
structure Sha (w : Nat) where
  big0 : Nat × Nat × Nat
  big1 : Nat × Nat × Nat
  sml0 : Nat × Nat × Nat
  sml1 : Nat × Nat × Nat
  k    : List (BitVec w)
  h    : List (BitVec w)

/-- SHA-256. -/
def sha256Of : Sha 32 :=
  { big0 := (2, 13, 22), big1 := (6, 11, 25), sml0 := (7, 18, 3), sml1 := (17, 19, 10)
    k := (shaK.take 64).map fun x => BitVec.ofNat 32 (x / 2 ^ 32)
    h := [0x6A09E667, 0xBB67AE85, 0x3C6EF372, 0xA54FF53A,
      0x510E527F, 0x9B05688C, 0x1F83D9AB, 0x5BE0CD19] }

/-- SHA-384. -/
def sha384Of : Sha 64 :=
  { big0 := (28, 34, 39), big1 := (14, 18, 41), sml0 := (1, 8, 7), sml1 := (19, 61, 6)
    k := shaK.map (BitVec.ofNat 64)
    h := [0xCBBB9D5DC1059ED8, 0x629A292A367CD507, 0x9159015A3070DD17, 0x152FECD8F70E5939,
      0x67332667FFC00B31, 0x8EB44A8768581511, 0xDB0C2E0D64F98FA7, 0x47B5481DBEFA4FA4] }

/-- Σ: three rotations. -/
def shaBig {w : Nat} (r : Nat × Nat × Nat) (x : BitVec w) : BitVec w :=
  x.rotateRight r.1 ^^^ x.rotateRight r.2.1 ^^^ x.rotateRight r.2.2

/-- σ: two rotations and a shift. -/
def shaSmall {w : Nat} (r : Nat × Nat × Nat) (x : BitVec w) : BitVec w :=
  x.rotateRight r.1 ^^^ x.rotateRight r.2.1 ^^^ (x >>> r.2.2)

/-- One round: the registers a to h, and the window of the next 16 schedule words. -/
def shaRound {w : Nat} (c : Sha w) (s : List (BitVec w) × List (BitVec w)) (k : BitVec w) :
    List (BitVec w) × List (BitVec w) :=
  let r (i : Nat) : BitVec w := s.1.getD i 0
  let m (i : Nat) : BitVec w := s.2.getD i 0
  let t1 := r 7 + shaBig c.big1 (r 4) + ((r 4 &&& r 5) ^^^ (~~~ (r 4) &&& r 6)) + k + m 0
  let t2 := shaBig c.big0 (r 0) + ((r 0 &&& r 1) ^^^ (r 0 &&& r 2) ^^^ (r 1 &&& r 2))
  ([t1 + t2, r 0, r 1, r 2, r 3 + t1, r 4, r 5, r 6],
    s.2.tail ++ [shaSmall c.sml1 (m 14) + m 9 + shaSmall c.sml0 (m 1) + m 0])

/-- A number from bytes, the first the most significant. -/
def bigEndian (bs : List Byte) : Nat := bs.foldl (fun n b => 256 * n + b.toNat) 0

/-- The blocks of 16 words hashed, `n` of them. -/
def shaBlocks {w : Nat} (c : Sha w) (bs : List Byte) : Nat → List (BitVec w) → List (BitVec w)
  | 0, h => h
  | n + 1, h =>
    let m := (List.range 16).map fun i => BitVec.ofNat w (bigEndian ((bs.drop (w / 8 * i)).take (w / 8)))
    shaBlocks c (bs.drop (2 * w)) n (List.zipWith (· + ·) h (c.k.foldl (shaRound c) (h, m)).1)

/-- The message padded: a 1, zeros, and its length in bits as the last two words. -/
def shaPad (w : Nat) (bs : List Byte) : List Byte :=
  let z := (2 * w - (bs.length + 1 + w / 4) % (2 * w)) % (2 * w)
  let len := (List.range (w / 4)).map fun i => BitVec.ofNat 8 (8 * bs.length / 256 ^ (w / 4 - 1 - i))
  bs ++ 0x80 :: List.replicate z 0 ++ len

/-- The bytes of the digest: those of the first `n` registers, each big-endian. -/
def shaBytes {w : Nat} (c : Sha w) (n : Nat) (bs : List Byte) : List Byte :=
  let m := shaPad w bs
  ((shaBlocks c m (m.length / (2 * w)) c.h).take n).flatMap fun x =>
    (List.range (w / 8)).map fun i => BitVec.ofNat 8 (x.toNat / 256 ^ (w / 8 - 1 - i))

/-- Bytes as a number, the first the least significant. -/
def littleEndian (bs : List Byte) : Nat := bs.foldr (fun b n => b.toNat + 256 * n) 0

/-- The SHA-256 digest, its first byte lowest (R236, R370, R381). (PRESUMED: assumption 13) -/
def sha256 (bs : List Byte) : BitVec 256 := BitVec.ofNat 256 (littleEndian (shaBytes sha256Of 8 bs))

/-- The SHA-384 digest, its first byte lowest (R244, R380). (PRESUMED: assumption 13) -/
def sha384 (bs : List Byte) : BitVec 384 := BitVec.ofNat 384 (littleEndian (shaBytes sha384Of 6 bs))

/-! ### ECDSA over P-384 (PRESUMED: FIPS 186) -/

/-- The field, the coefficient b (a is −3), the order and the base point of the curve. -/
def p384 : Nat := 2 ^ 384 - 2 ^ 128 - 2 ^ 96 + 2 ^ 32 - 1
def p384B : Nat := 0xB3312FA7E23EE7E4988E056BE3F82D19181D9C6EFE8141120314088F5013875AC656398D8A2ED19D2A85C8EDD3EC2AEF
def p384N : Nat := 0xFFFFFFFFFFFFFFFFFFFFFFFFFFFFFFFFFFFFFFFFFFFFFFFFC7634D81F4372DDF581A0DB248B0A77AECEC196ACCC52973
def p384G : Nat × Nat :=
  (0xAA87CA22BE8B05378EB1C71EF320AD746E1D3B628BA79B9859F741E082542A385502F25DBF55296C3A545E3872760AB7,
   0x3617DE4A96262C6F5D9E98BF9292DC29F8F41DBD289A147CE9DA3113B5F0B8C00A60B1CE1D7E819D7A431D7C90EA0E5F)

/-- `x` to the power `e` below 2^384, modulo `m`. -/
def powMod (m x e : Nat) : Nat :=
  (List.range 384).foldl (fun a i => a * a % m * (if nbit e (383 - i) then x else 1) % m) 1

/-- The inverse modulo a prime. -/
def invMod (m x : Nat) : Nat := powMod m x (m - 2)

/-- `x − y` modulo `m`. -/
def subMod (m x y : Nat) : Nat := (x + (m - y % m)) % m

/-- The point lies on the curve. -/
def onP384 (q : Nat × Nat) : Bool :=
  decide (q.1 < p384) && decide (q.2 < p384)
    && decide (q.2 * q.2 % p384 = subMod p384 (q.1 * q.1 * q.1 + p384B) (3 * q.1))

/-- The sum of two points of the curve; none is the point at infinity. -/
def addP384 (a b : Option (Nat × Nat)) : Option (Nat × Nat) :=
  match a, b with
  | none, q => q
  | q, none => q
  | some u, some v =>
    if u.1 = v.1 && (u.2 + v.2) % p384 = 0 then none
    else
      let l := if u.1 = v.1 then subMod p384 (3 * u.1 * u.1) 3 * invMod p384 (2 * u.2) % p384
        else subMod p384 v.2 u.2 * invMod p384 (subMod p384 v.1 u.1) % p384
      let x := subMod p384 (l * l) (u.1 + v.1)
      some (x, subMod p384 (l * subMod p384 u.1 x) u.2)

/-- A multiple of a point, by a number below 2^384. -/
def mulP384 (k : Nat) (q : Nat × Nat) : Option (Nat × Nat) :=
  (List.range 384).foldl (fun a i =>
    let d := addP384 a a
    if nbit k (383 - i) then addP384 d (some q) else d) none

/-- The point that 96 bytes name: x, then y, each big-endian. -/
def pointOf (bs : List Byte) : Nat × Nat := (bigEndian (bs.take 48), bigEndian ((bs.drop 48).take 48))

/-- The 96 bytes are the coordinates of a point of P-384 (R381). (PRESUMED: assumption 13) -/
def onCurve (bs : List Byte) : Bool := onP384 (pointOf bs)

/-- The signature, r then s, verifies for the digest under the public key (R244). (PRESUMED: assumption 13) -/
def ecdsaVerify (key : List Byte) (d : BitVec 384) (sig : List Byte) : Bool :=
  let q := pointOf key
  let r := bigEndian (sig.take 48)
  let s := bigEndian ((sig.drop 48).take 48)
  let e := bigEndian ((List.range 48).map fun i => BitVec.ofNat 8 (d.toNat / 256 ^ i))
  let w := invMod p384N s
  onP384 q && decide (0 < r) && decide (r < p384N) && decide (0 < s) && decide (s < p384N)
    && (match addP384 (mulP384 (e * w % p384N) p384G) (mulP384 (r * w % p384N) q) with
      | some x => decide (x.1 % p384N = r)
      | none => false)

end Sys2Proof.Machine
end

