-- ==== Sys2Proof/Machine/Ledger.lean ====
section
/-! DEFINITION. Machine/Ledger.lean: the maintenance ledger (R355 to R362, Tables 12.5 to 12.7, 12.10). -/
namespace Sys2Proof.Machine

/-! ### Resource words (Table 12.5) -/

def resUnit (p : Nat) : Word := word p
def resBank (mode b : Nat) : Word := word (0x40000000 + mode * 256 + b)
def resPins (first count : Nat) : Word := word (0x80000000 + count * 4096 + first)
def resAll : Word := 0xC0000000

/-- BANK MODE codes. -/
def bLoad : Nat := 0
def bWrite : Nat := 1
def bExcl : Nat := 2
def bMeta : Nat := 3

/-- The word holds no reserved value and names what exists (R355). -/
def resOk (w : Word) : Bool :=
  let k := fld w 31 30
  if k = 0 then fld w 29 9 = 0 && (blockOf (fld w 8 0)).isSome
  else if k = 1 then fld w 29 10 = 0 && !bit w 7 && decide (fld w 6 0 ≤ 103)
  else if k = 2 then fld w 29 24 = 0 && fld w 23 12 != 0 && decide (fld w 11 0 + fld w 23 12 ≤ 3072)
  else fld w 29 0 = 0

/-- Two BANK modes stand beside each other (R356). -/
def modesMeet (a b : Nat) : Bool :=
  (a = bLoad && b = bLoad) || (a = bWrite && b = bWrite)
    || (a = bMeta && (b = bLoad || b = bWrite)) || (b = bMeta && (a = bLoad || a = bWrite))

/-- Two resource words conflict (R356). -/
def resClash (a b : Word) : Bool :=
  let ka := fld a 31 30
  let kb := fld b 31 30
  if ka = 3 || kb = 3 then true
  else if ka != kb then false
  else if ka = 0 then fld a 8 0 = fld b 8 0
  else if ka = 1 then fld a 6 0 = fld b 6 0 && !modesMeet (fld a 9 8) (fld b 9 8)
  else decide (fld a 11 0 < fld b 11 0 + fld b 23 12) && decide (fld b 11 0 < fld a 11 0 + fld a 23 12)

/-- The index of the first word of `new` that conflicts with a word of `old`. -/
def clashAt (new old : List Word) : Option Nat := new.findIdx? fun a => old.any (resClash a)

/-! ### Activities (Table 12.6) -/
def actFlash : Nat := 1
def actImage : Nat := 2
def actCommit : Nat := 3
def actSwap : Nat := 4
def actSelftest : Nat := 5
def actWipe : Nat := 6
def actReroot : Nat := 7
def actLife : Nat := 8
def actMeta : Nat := 9

/-- Agents of HOLDER. -/
def agStw : Nat := 0x00
def agHost : Nat := 0x01
def agSeq (q : Nat) : Nat := 0x10 + q
def agSwap (n : Nat) : Nat := 0x40 + n
def agCar : Nat := 0x48

/-- How the ledger answered a claim. -/
inductive ClaimAns where
  | granted (number : Nat)
  | queued (number : Nat)
  | refused (r : Reason)
deriving DecidableEq, Repr

namespace State

/-- BUDGET. -/
def budget (s : State) : Nat := s.rf (reg pLedger 0x040) 16 0

/-- Power of the granted claims, and of the shutdown tests beyond the 64 entries (R348).
(DESIGN CHOICE: assumption 213) -/
def grantedMw (s : State) : Nat :=
  ((s.ledger.claims.filter (!·.queued)).map (·.mw)).sum + (s.bist.tests.map (·.2.mw)).sum

/-- The claims that wait, in arrival order. -/
def claimQueue (s : State) : List Claim := s.ledger.claims.filter (·.queued)

/-- The claim of a number, granted or queued. -/
def claimOf (s : State) (n : Nat) : Option Claim := s.ledger.claims.find? (·.number = n)

/-- The number names a granted claim. -/
def claimGranted (s : State) (n : Nat) : Bool := (s.claimOf n).any (!·.queued)

/-- HOLDER (R356). -/
def setHolder (s : State) (number agent activity res : Nat) : State :=
  s.wr (reg pLedger 0x09C) (word (number * 0x1000000 + agent * 0x10000 + activity * 0x1000 + res))

/-- The first claim, granted or queued, that conflicts with a list of resource words. -/
def clashing (s : State) (ws : List Word) : Option (Claim × Nat) :=
  s.ledger.claims.findSome? fun c => (clashAt ws c.res).map (c, ·)

/-- An entry of the ledger is free. The spec does not say which free entry a claim takes. -/
def freeEntries (s : State) : List Nat :=
  (List.range 64).filter fun e => s.ledger.claims.all (·.number % 64 != e)

/-- A claim refused. -/
def claimRefuse (s : State) (r : Reason) : ClaimAns × State := (.refused r, s.raise pLedger 2)

/-- A claim takes an entry, granted or at the end of the queue. (DESIGN CHOICE: assumption 136) -/
def claimTake (s : State) (act agent : Nat) (ws : List Word) (mw : Nat) (queued : Bool) : Nat × State :=
  let es := s.freeEntries
  let e := es.getD (s.freeNat % es.length) 0
  let g := tabGet 0 s.ledger.gens e
  let n := g % 4 * 64 + e
  let c : Claim := { number := n, activity := act, agent := agent, res := ws, mw := mw, queued := queued }
  let l := { s.ledger with claims := s.ledger.claims ++ [c], gens := tabPut s.ledger.gens e (g + 1) }
  (n, { s.drew with ledger := l })

/-- From SHUTDOWN.GO every new claim is refused, but for the steward's own shutdown tests (R348, R399). -/
def shutRefuses (s : State) (act : Nat) : Bool :=
  s.pwr.phase = .drain || s.pwr.phase = .done || (s.pwr.phase = .test && act != actSelftest)

/-- A new claim, in one step: RANGE, CONFLICT, BUDGET, else granted or queued (R355, R356, R358).
(DEDUCED: assumption 138) -/
def claim (s : State) (act agent : Nat) (ws : List Word) (mw : Nat) : ClaimAns × State :=
  if !ws.all resOk then s.claimRefuse .range
  else if s.shutRefuses act then
    match s.ledger.claims.find? (·.activity = actSelftest) with
    | some c => (s.setHolder c.number agStw actSelftest ((clashAt ws c.res).getD (s.freeNat % 16))).drew.claimRefuse .conflict
    | none => (s.setHolder (s.freeNat % 256) agStw actSelftest (s.freeNat / 256 % 16)).drew.claimRefuse .conflict
  else match s.clashing ws with
    | some (c, i) => (s.setHolder c.number c.agent c.activity i).claimRefuse .conflict
    | none =>
      match (if s.ledger.reroot then clashAt ws [resUnit pCar] else none) with
      | some i => (s.setHolder 0xFF agCar actReroot i).claimRefuse .conflict
      | none =>
        if 64 ≤ s.ledger.claims.length || s.budget < mw then s.claimRefuse .budget
        else if s.claimQueue.isEmpty && decide (s.grantedMw + mw ≤ s.budget) then
          let r := s.claimTake act agent ws mw false
          (.granted r.1, r.2.raiseIf (agent = agHost) pLedger 0)
        else if 16 ≤ s.claimQueue.length then s.claimRefuse .budget
        else
          let r := s.claimTake act agent ws mw true
          (.queued r.1, r.2.raise pLedger 1)

/-- A claim counts as granted from now on; CLAIM_RESULT shows it if the register names it. -/
def grant (s : State) (n : Nat) : State :=
  let cs := s.ledger.claims.map fun c => if c.number = n then { c with queued := false } else c
  let host := (s.claimOf n).any (·.agent = agHost)
  let r := reg pLedger 0x094
  let s1 := { s with ledger := { s.ledger with claims := cs } }
  let s2 := if s.rf r 31 30 = 2 && s.rf r 7 0 = n then s1.wf r 31 30 1 else s1
  s2.raiseIf host pLedger 0

/-- Queued claims are granted strictly in arrival order while they fit (R358). -/
def pump : Nat → State → State
  | 0, s => s
  | n + 1, s =>
    match s.claimQueue with
    | [] => s
    | c :: _ => if s.grantedMw + c.mw ≤ s.budget then pump n (s.grant c.number) else s

/-- A claim ends: released if it was granted, withdrawn if it waited. -/
def unclaim (s : State) (n : Nat) : State :=
  if (s.claimOf n).isSome then
    pump 16 (({ s with ledger := { s.ledger with claims := s.ledger.claims.filter (·.number != n) } }).raise pLedger 3)
  else s

/-- The power of a host claim: 0.10 W for each WRITE or EXCLUSIVE bank, and EXTRA_MW (R357). -/
def hostMw (ws : List Word) (extra : Nat) : Nat :=
  100 * (ws.filter fun w => fld w 31 30 = 1 && (fld w 9 8 = bWrite || fld w 9 8 = bExcl)).length + extra

/-- CLAIM_RESULT after a refusal: NUMBER is a claim number only of a granted or queued claim, so it is free here.
(DESIGN CHOICE: assumption 137) -/
def claimShowRefused (s : State) (r : Reason) : State :=
  ((s.wr (reg pLedger 0x094) (word (3 * 2 ^ 30 + r.code * 65536 + s.freeNat % 256))).drew).refuseAns pLedger r

/-- A write of CLAIM_CTRL (R357, R364). -/
def claimSubmit (v : Word) (s : State) : State :=
  let s0 := s.wr (reg pLedger 0x090) (v &&& 0x0FF1FFFF)
  if !bit v 31 then s0
  else
    let act := fld v 27 24
    let ws := (List.range (fld v 23 20 + 1)).map fun i => s0.rd (reg pLedger (0x050 + 4 * i))
    let hasMeta := ws.any fun w => fld w 31 30 = 1 && fld w 9 8 = bMeta
    if !(act = actFlash || act = actImage) || hasMeta then
      (s0.raise pLedger 2).claimShowRefused .range
    else
      let r := s0.claim act agHost ws (hostMw ws (fld v 16 0))
      match r.1 with
      | .granted n => r.2.wr (reg pLedger 0x094) (word (2 ^ 30 + n))
      | .queued n => r.2.wr (reg pLedger 0x094) (word (2 * 2 ^ 30 + n))
      | .refused e => r.2.claimShowRefused e

/-- A write of RELEASE (R359). -/
def releaseWrite (v : Word) (s : State) : State :=
  if !bit v 31 then s
  else if (s.claimOf (fld v 7 0)).any (·.agent = agHost) then s.unclaim (fld v 7 0)
  else s.refuseAns pLedger .owner

/-- A write of BUDGET (R360). -/
def budgetWrite (v : Word) (s : State) : State :=
  let mw := fld v 16 0
  if mw < 1000 || 100000 < mw then s.refuseAns pLedger .range
  else
    let s1 := s.wr (reg pLedger 0x040) (word mw)
    if mw < s1.grantedMw then s1.raise pLedger 4 else pump 16 s1

/-! ### Read-only registers (Table 12.10) -/

def ledgerStat (s : State) : Word :=
  word (s.claimQueue.length * 0x1000000 + s.ledger.claims.length * 0x10000 + b2n (s.budget < s.grantedMw))

/-- The claim of the entry that CLAIM_SEL names. -/
def claimSel (s : State) : Option Claim :=
  s.ledger.claims.find? (·.number % 64 = s.rf (reg pLedger 0x0A0) 5 0)

def claimInfo (s : State) : Word :=
  match s.claimSel with
  | none =>
    let e := s.rf (reg pLedger 0x0A0) 5 0
    word ((tabGet 0 s.ledger.gens e - 1) % 4 * 64 + e)
  | some c =>
    let q := if c.queued then (s.claimQueue.findIdx (·.number = c.number)) else 0
    word ((if c.queued then 2 else 1) * 2 ^ 30 + q * 0x1000000 + c.agent * 0x10000 + c.activity * 0x1000 + c.number)

def claimMw (s : State) : Word := word ((s.claimSel.map (·.mw)).getD 0)

end State

/-! ### The commands -/

/-- CLAIM_SUBMIT (R355, R364). -/
def execClaimSubmit (t : Nat) (a : Agent) (v : Word) : State → Host.Outcome State Fault Refusal :=
  run t (gateW a pLedger (State.claimSubmit v))

end Sys2Proof.Machine
end

