-- ==== Sys2Proof/Machine/Store.lean ====
section
/-! DEFINITION. Machine/Store.lean: the store die (07_store_flash.md): flash words and sectors, descriptor queues and
their dispatch checks, reading, programming, erasing, suspending, protection, and PWRFAIL_N. -/
namespace Sys2Proof.Machine

/-! ### Vector memory writes (R139) -/

/-- A vector memory word holds a reserved code. -/
def vecBad (w : Word) : Bool := (List.range 8).any fun n => 12 ≤ fld w (4 * n + 3) (4 * n)

/-- A word written into the vector memory of group `g` at byte offset `o`, and whether it was rejected. -/
def State.vecPut (s : State) (g o : Nat) (w : Word) : Bool × State :=
  if vecBad w then (true, (s.refuse (pSeq g) .range).raise (pSeq g) 8)
  else (false, s.putWord (vecBase g + o) w)

/-- The same, by an agent of place `rank` in the order of one cycle: 0 the host, 1 + r region r, 97 the store controller. A word
that an agent later in that order has written in the cycle stays (R139). -/
def State.vecPutBy (rank : Nat) (s : State) (g o : Nat) (w : Word) : Bool × State :=
  let key := State.memKey (vecBase g + o)
  let x := s.vecPut g o w
  if x.1 then x
  else if s.outranked key rank then (false, s)
  else (false, x.2.take key seqCycle rank)

/-! ### Descriptors (Tables 7.5, 7.6) -/

namespace Desc
def d (x : Desc) (n : Nat) : Word := x.ws.getD n 0
def op (x : Desc) : Nat := fld (x.d 0) 7 0
def tag (x : Desc) : Nat := fld (x.d 0) 31 16
def fence (x : Desc) : Bool := bit (x.d 0) 15
def overp (x : Desc) : Bool := bit (x.d 0) 13
def bank (x : Desc) : Nat := fld (x.d 1) 28 22
def sector (x : Desc) : Nat := fld (x.d 1) 21 12
def first (x : Desc) : Nat := fld (x.d 1) 8 0
def claim (x : Desc) : Nat := fld (x.d 2) 31 24
def count (x : Desc) : Nat := fld (x.d 2) 9 0
def space (x : Desc) : Nat := fld (x.d 3) 3 0
def lo (x : Desc) : Nat := (x.d 4).toNat
def hi (x : Desc) : Nat := (x.d 5).toNat
def arg (x : Desc) : Nat := (x.d 7).toNat * 2 ^ 32 + (x.d 6).toNat
/-- The descriptor of a LOG record. -/
def isLog (x : Desc) : Bool := match x.src with | .seq _ => true | _ => false
/-- The queue that holds the descriptor (Table 7.4). -/
def queue (x : Desc) : Nat := match x.src with | .steward => 0 | .host => 1 | .region _ => 2 | .seq _ => 3
end Desc

def opNop : Nat := 0x00
def opRead : Nat := 0x01
def opProgram : Nat := 0x02
def opErase : Nat := 0x03
def opSuspend : Nat := 0x04
def opResume : Nat := 0x05
def opInfo : Nat := 0x06
def opProtect : Nat := 0x08
def opUnprotect : Nat := 0x09
def opPassword : Nat := 0x0A
def opMargin : Nat := 0x10
def opRaw : Nat := 0x11

/-- Table 7.6 lists the opcode for the queue: 1 HOST, 2 FABRIC, 3 SEQUENCER. -/
def opListed (q op : Nat) : Bool :=
  op = opNop || op = opProgram ||
    (q != 3 && (op = opRead || op = opErase || op = opInfo)) ||
    (q ≤ 1 && (op = opSuspend || op = opResume || op = opProtect || op = opUnprotect || op = opPassword
      || op = opMargin || op = opRaw))

def isRead (op : Nat) : Bool := op = opRead || op = opMargin || op = opRaw
/-- The opcode is an operation (R209). -/
def isOperation (op : Nat) : Bool := op = opProgram || op = opErase || op = opResume
def isMeta (op : Nat) : Bool := op = opProtect || op = opUnprotect || op = opPassword
def usesSector (op : Nat) : Bool := isRead op || isOperation op || op = opInfo
def usesBuffer (op : Nat) : Bool := isRead op || op = opProgram || op = opUnprotect || op = opPassword

/-- Length in bytes of a descriptor's buffer. A RAW_READ fills a pair of 64-bit words for each flash word.
(DEDUCED: assumption 183) -/
def bufLen (x : Desc) : Nat :=
  if x.op = opUnprotect then 32 else if x.op = opPassword then 64 else if x.op = opRaw then 16 * x.count else 8 * x.count

/-- The sectors that queue `q` reaches (Tables 7.1, 7.2): the metadata and spare sectors of a region bank through the STEWARD
queue only. -/
def sectorReached (q b sec : Nat) : Bool :=
  if b < 96 then decide (sec < (if q = 0 then 416 else 384)) else if b < 104 then sec < 1024 else b = 127 && sec = 0

/-- The sector lies in the metadata partition of a region bank, which has its own program and erase path (R206). -/
def metaSector (b sec : Nat) : Bool := decide (b < 96) && decide (384 ≤ sec)

/-- Protection groups of a bank (R235). -/
def groupsOf (b : Nat) : Nat := if b < 96 then 24 else 64

/-- The buffer is aligned, in a space that the queue and opcode may use, and inside it (Table 7.7).
(DEDUCED: assumption 80) -/
def bufferOk (q : Nat) (x : Desc) : Bool :=
  let n := bufLen x
  x.lo % 8 = 0 &&
    (match x.space with
     | 1 => q ≤ 1
     | 2 => q != 3 && x.hi = 0 && x.lo + n ≤ 2 ^ 23
     | 3 => x.hi < 48 && x.lo + n ≤ 2 ^ 17
     | 4 => q != 3 && isRead x.op && x.hi < 48 && x.lo + n ≤ 2 ^ 19
     | 5 => q != 3 && isRead x.op && x.hi < 48 && x.lo + n ≤ 2 ^ 16
     | _ => false)

/-- Reserved bits of the words that the opcode uses hold 0. -/
def reservedZero (x : Desc) : Bool :=
  fld (x.d 0) 12 8 = 0 &&
    (x.op = opNop || (fld (x.d 1) 31 29 = 0 && fld (x.d 1) 11 9 = 0)) &&
    (!(isRead x.op || x.op = opProgram || x.op = opErase) || fld (x.d 2) 23 10 = 0) &&
    (!usesBuffer x.op || fld (x.d 3) 31 4 = 0)

/-- The flag word that 64 cells read as by majority, 8 cells to a logical bit, with the corrected and the uncorrectable errors
(R205). -/
def flagRead (cells : BitVec 64) : BitVec 64 × Nat × Nat :=
  let zeros (b : Nat) : Nat := 8 - popCount 8 (bits cells.toNat (8 * b + 7) (8 * b))
  let bs := List.range 8
  (BitVec.ofNat 64 (bs.map fun b => if 5 ≤ zeros b then 0 else 255 * 2 ^ (8 * b)).sum,
   (bs.filter fun b => zeros b != 0 && zeros b != 4 && zeros b != 8).length, (bs.filter fun b => zeros b = 4).length)

/-- Word `w` of a sector of bank `b` is a flag word: the factory row has none (R205, R238). -/
def flagWord (b w : Nat) : Bool := b != 127 && decide (504 ≤ w)

/-- A flag word's data holds only bytes 0x00 and 0xFF (R205). -/
def flagOk (w : BitVec 64) : Bool :=
  (List.range 8).all fun i => bits w.toNat (8 * i + 7) (8 * i) = 0 || bits w.toNat (8 * i + 7) (8 * i) = 255

/-- 0xFFFF_FFFF_FFFF_FFFF: an erased word's data. -/
def erasedWord : BitVec 64 := BitVec.allOnes 64

def secKey (b sec : Nat) : Nat := 1024 * b + sec
def wordKey (b sec w : Nat) : Nat := secKey b sec * 512 + w

/-- Table 7.10. -/
def stOk : Nat := 0
def stVerify : Nat := 1
def stNotErased : Nat := 2
def stProtected : Nat := 3
def stIncomplete : Nat := 4
def stSuspended : Nat := 5
def stReset : Nat := 6
def stPwrfail : Nat := 7
def stBad : Nat := 8
def stWorn : Nat := 9
def stConflict : Nat := 10
def stLife : Nat := 11

def SectorState.code : SectorState → Nat
  | .normal => 0 | .programming => 1 | .erasing => 2 | .suspended => 3 | .incomplete => 4

/-- The job is an operation that pulses flash. -/
def Job.pulsing (j : Job) : Bool := isOperation j.desc.op && !j.fetch && j.stopped.isNone && j.ended.isNone

/-- Some cells of the word are undefined. -/
def FlashWord.undef (f : FlashWord) : Bool := f.open_ != 0

/-- The first word from `k` on that a program of `data` pulses: a word of all ones is done without a pulse (R219). -/
def pulsedFrom (data : List (BitVec 64)) (k : Nat) : Nat := k + ((data.drop k).takeWhile (· = erasedWord)).length

/-- A word of the factory row without its CRC: what Table 7.15 fixes stands as it says, the rest is the factory's. -/
def factoryData (w : Nat) : BitVec 64 :=
  let f := Config.factoryWord w
  if w = 0 then 0xFFFFFFFFFFFF0001
  else if w = 4 then (f &&& 0xFFFFFFFFFFFFF100) ||| (if f.getLsbD 9 then 0x2B0 else 0x4B0)
  else if 432 ≤ w then 0xFFFFFFFFFFFFFFFF
  else f

/-- A word of the factory row (R238, Table 7.15). (DESIGN CHOICE: assumption 14) -/
def factoryWord (w : Nat) : BitVec 64 :=
  if w = 511 then
    0xFFFFFFFF00000000 ||| (crc32c ((List.range 511).flatMap fun i => natBytes 8 (factoryData i).toNat)).setWidth 64
  else factoryData w

/-- The check of the factory row at a start (R238), `bad` its words that ECC could not correct, as they are read. The row as it was
written has the CRC that it names. -/
def rowGood (bad : List (Nat × BitVec 64)) : Bool :=
  let w (i : Nat) : BitVec 64 := ((bad.find? (·.1 = i)).map (·.2)).getD (factoryWord i)
  bad.isEmpty || crc32c ((List.range 511).flatMap fun i => natBytes 8 (w i).toNat) = (w 511).setWidth 32

/-- PART.SPEED: the speed grade, 1 or 2. -/
def speedGrade : Nat := bits (factoryWord 4).toNat 11 9

/-- The cycle count from which a sector is worn (R224). -/
def wornAt : Nat := 100000000

namespace State

/-! ### Access to the records -/
def dq (s : State) (q : Nat) : DQueue := tabGet {} s.store.queues q
def setDq (s : State) (q : Nat) (x : DQueue) : State :=
  { s with store := { s.store with queues := tabPut s.store.queues q x } }
def sec (s : State) (b n : Nat) : Sector := tabGet {} s.store.sectors (secKey b n)
def setSec (s : State) (b n : Nat) (x : Sector) : State :=
  { s with store := { s.store with sectors := tabPut s.store.sectors (secKey b n) x } }
def bankOf (s : State) (b : Nat) : Bank := tabGet {} s.store.banks b
def setBank (s : State) (b : Nat) (x : Bank) : State :=
  { s with store := { s.store with banks := tabPut s.store.banks b x } }
def region (s : State) (r : Nat) : Region := tabGet {} s.regions r
def setRegion (s : State) (r : Nat) (x : Region) : State := { s with regions := tabPut s.regions r x }

/-- The life-cycle state (R367): the highest step whose intent bit reads programmed. -/
def lcState (s : State) : Nat :=
  ((List.range 5).filter fun k => 5 ≤ (tabGet ({} : Pair) s.life.pairs k).intent).foldl (fun m k => max m (k + 1)) 0

/-- The flash word at word `w` of a sector. -/
def flashWord (s : State) (b n w : Nat) : FlashWord :=
  if b = 127 then { data := factoryWord w, check := Config.checkBits (factoryWord w) }
  else match s.store.words.find? (·.1 = wordKey b n w) with
    | some e => e.2
    | none => { data := erasedWord, open_ := if (s.sec b n).undef then erasedWord else 0 }

def putFlash (s : State) (b n w : Nat) (x : FlashWord) : State :=
  { s with store := { s.store with words := tabPut s.store.words (wordKey b n w) x } }

/-- Every word of the sector unlisted: erased, or undefined when `undef`. -/
def clearSector (s : State) (b n : Nat) (undef : Bool) : State :=
  let ws := s.store.words.filter fun e => e.1 / 512 != secKey b n
  ({ s with store := { s.store with words := ws } }).setSec b n { s.sec b n with undef := undef }

/-- The `i`-th free 64-bit word of a draw. -/
def free64 (s : State) (i : Nat) : BitVec 64 := BitVec.ofNat 64 (Config.freeWord (s.free + i)).toNat

/-- What the data cells of a word read as: undefined ones are free, from the `i`-th draw on. -/
def cellsOf (s : State) (f : FlashWord) (i : Nat) : BitVec 64 := (f.data &&& ~~~f.open_) ||| (s.free64 i &&& f.open_)

/-- Metadata writes and new pulses do not start while PWRFAIL_N has stopped the store (Table 7.14). -/
def metaStopped (s : State) : Bool := s.store.pfStop

/-! ### The STEWARD queue (R206 to R208) -/

/-- A descriptor joins the end of a queue. -/
def enqueue (s : State) (q : Nat) (x : Desc) : State := s.setDq q { s.dq q with held := (s.dq q).held ++ [x] }

/-- A metadata table that stands in a pair of sectors, by its first one (Table 7.3). -/
def metaPair (m : Nat) : Bool := m = 0 || m = 2 || m = 5 || m = 8

/-- The steward writes a record of the table that begins at metadata sector M`m` of a region bank: in its queue a program of the
record, into the sector of the pair that does not hold the last copy, and behind it that of its commit flag. Words and content are
the steward's own (R207): free. (DESIGN CHOICE: assumption 184) -/
def metaPut (b m : Nat) (s : State) : State :=
  let k := secKey b (384 + m)
  let side := metaPair m && !tabGet false s.store.metaSide k
  let at_ := b * 2 ^ 22 + (384 + m + b2n side) * 2 ^ 12
  let s1 := { s.drew with store := { s.drew.store with metaSide := tabSet false s.store.metaSide k side } }
  (s1.enqueue 0 { src := .steward, ws := [word opProgram, word (at_ + s.freeNat % 504), 1] }).enqueue 0
    { src := .steward, ws := [word (opProgram + 0xA000), word (at_ + 504 + s.freeNat / 512 % 8), 1] }

/-- Metadata of a bank: the region bank and sector that keep it, `m` in a region bank, `r` for a record bank (Table 7.3). -/
def bankMeta (b m r : Nat) (s : State) : State := if b < 96 then metaPut b m s else metaPut (b - 96) r s

/-! ### Slots (R248, R250) -/
def slotRec (s : State) (b slot : Nat) : SlotRec := tabGet {} s.store.slots (4 * b + slot)

/-- The anchor's record of the image that a slot names, when the image commit flag stands with the sequence. -/
def anchorRec (s : State) (b slot : Nat) : Option SlotRec :=
  let r := s.slotRec b slot
  let a := s.slotRec r.anchor slot
  if r.flag && a.image && a.seq = r.seq then some a else none

/-- State of a slot: 0 FREE, 1 COMMITTED, 2 REVOKED. -/
def slotState (s : State) (b slot : Nat) : Nat :=
  match s.anchorRec b slot with
  | none => 0
  | some a => if a.revoked then 2 else 1

/-! ### The recovery list (R229, R230) -/

/-- Sectors on the list, by key: ascending bank, then sector. (DEDUCED: assumption 86) -/
def recovery (s : State) : List Nat := (s.store.sectors.filter (·.2.listed)).map (·.1)

/-- A sector is left in ERASE_INCOMPLETE (R229): undefined content, an entry with its cause. -/
def markIncomplete (s : State) (b n cause : Nat) : State :=
  let was := (s.sec b n).listed
  let s1 := s.clearSector b n true
  s1.setSec b n { s1.sec b n with state := .incomplete, listed := true, cause := if was then (s.sec b n).cause else cause }

/-- A sector enters ERASE_INCOMPLETE while the device runs (R230). -/
def enterIncomplete (s : State) (b n cause : Nat) : State :=
  let was := (s.sec b n).listed
  let s2 := s.markIncomplete b n cause
  let s3 := if was then s2 else s2.raise pRec 0
  let s4 := s3.raiseIf (!was && s3.recovery.length = 257) pRec 2
  s4.raiseIf (decide (96 ≤ b) && !was) (pRecord (b - 96)) 1

/-- A sector leaves the list. -/
def leaveIncomplete (s : State) (b n : Nat) : State :=
  let x := s.sec b n
  if x.listed then (s.setSec b n { x with listed := false }).raise pRec 1 else s

/-! ### Completions (R214, R216) -/

/-- The store port of region `r` presents its records unless it is parked. -/
def storeDeliver (s : State) (r : Nat) : State :=
  if s.regionParked r then s
  else
    let q := s.dq 2
    let x := s.region r
    let all := x.recs ++ (q.comps.filter (·.1 = r)).map (·.2)
    let s1 := (s.setRegion r { x with recs := [] }).setDq 2 { q with comps := q.comps.filter (·.1 != r) }
    forEach all (fun c s => s.emit (.toRegion r (c.foldr (fun w n => 2 ^ 32 * n + w.toNat) 0))) s1

/-- Stream units that waited for region `r` are delivered to its lane port (R278). -/
def streamDeliver (s : State) (r : Nat) : State :=
  forEach (s.lat.streams.map (·.1)) (fun ch s =>
    let x := tabGet ({} : Stream) s.lat.streams ch
    if s.rf (reg pRtr (0x100 + 4 * ch)) 26 20 = r && !s.regionParked r then
      let s1 := { s with lat := { s.lat with streams := tabPut s.lat.streams ch { x with ready := [] } } }
      forEach x.ready (fun ws s => s.emit (.stream r ch ws)) s1
    else s) s

/-- The records of region `r` not yet delivered are discarded (R216). -/
def storeDiscard (r : Nat) (s : State) : State :=
  let q := s.dq 2
  (s.setRegion r { s.region r with recs := [] }).setDq 2 { q with comps := q.comps.filter (·.1 != r) }

/-- The LOG claim is released once RUN has left RUNNING and WAITING and no LOG descriptor is pending (R162). -/
def logRelease (s : State) (q : Nat) : State :=
  let run := s.rf (reg (pSeq q) 0x05C) 2 0
  match (s.sq q).logClaim with
  | some c =>
    if run = 2 || run = 3 || s.rf (reg (pSeq q) 0x098) 15 8 != 0 then s
    else ((s.setSq q { s.sq q with logClaim := none, logQueued := false }).wb (reg (pSeq q) 0x098) 18 false).unclaim c
  | none => s

/-- The LOG status of sequencer `q`: the last descriptor's status, and one descriptor fewer under way. -/
def logStat (s : State) (q status : Nat) : State :=
  (s.wf (reg (pSeq q) 0x098) 23 20 status).wf (reg (pSeq q) 0x098) 15 8 (s.rf (reg (pSeq q) 0x098) 15 8 - 1)

/-- A LOG ends with a status (R162). -/
def logDone (s : State) (q status : Nat) : State :=
  ((s.logStat q status).raise (pSeq q) (if status = stOk then 6 else 7)).logRelease q

/-- The completion record of a descriptor. PULSES of an opcode without pulses and C2 of an opcode without a sector
have no stated value: they are free. (DESIGN CHOICE: assumption 76) -/
def compRecord (s : State) (x : Desc) (c : Done) : List Word :=
  let y := s.sec x.bank x.sector
  let hasSec : Bool := usesSector x.op && sectorReached x.queue x.bank x.sector
  [ word (x.tag * 65536 + x.op * 256 + 128 + c.status),
    word ((c.pulses.getD (bits s.freeNat 5 0)) * 2 ^ 26 + b2n c.remapped * 2 ^ 25 + b2n c.rejected * 2 ^ 24
      + min c.uncorr 255 * 65536 + c.done),
    word (if hasSec then y.state.code * 2 ^ 28 + y.cycles else bits s.freeNat 63 32),
    word (min c.corr 65535 * 65536 + c.first) ]

/-- Record `r` is added to those of queue `q` that wait to be presented, for source `k`. -/
def compPush (s : State) (q k : Nat) (r : List Word) : State :=
  s.setDq q { s.dq q with comps := (s.dq q).comps ++ [(k, r)] }

/-- Record `r` goes to region `k`, whose port holds 16 of them. -/
def regionPush (s : State) (q k : Nat) (r : List Word) : State :=
  if (s.region k).recs.length < 16 then s.setRegion k { s.region k with recs := (s.region k).recs ++ [r] }
  else s.compPush q k r

/-- The record of a descriptor of the host's ring. -/
def hostPush (s : State) (q : Nat) (x : Desc) (status : Nat) (r : List Word) : State :=
  ((s.compPush q 0 r).raiseIf (bit (x.d 0) 14) pStore 0).raiseIf (status != stOk && status != stWorn) pStore 1

/-- A descriptor ends: its record goes where its queue's completions go (R216); the steward takes its own at once. -/
def complete (s : State) (q : Nat) (x : Desc) (c : Done) : State :=
  match x.src with
  | .steward => s
  | .seq k => s.drew.logDone k c.status
  | .region k => (s.drew.regionPush q k (s.compRecord x c)).storeDeliver k
  | .host => s.drew.hostPush q x c.status (s.compRecord x c)

/-- A running job replaced by `k`. -/
def setJob (s : State) (q : Nat) (j k : Job) : State :=
  s.setDq q { s.dq q with running := (s.dq q).running.map fun x => if x = j then k else x }

/-- A job leaves its queue, its METADATA claim is released, and its descriptor completes. -/
def retireJob (s : State) (q : Nat) (j : Job) (c : Done) : State :=
  let s1 := s.setDq q { s.dq q with running := (s.dq q).running.erase j }
  let s2 := match j.claim with | some n => s1.unclaim n | none => s1
  s2.complete q j.desc c

/-- The completion FIFO of queue `q` has no place for the record of the descriptor (R208). -/
def fifoFull (s : State) (q : Nat) (x : Desc) : Bool :=
  match x.src with
  | .host => decide (64 ≤ (s.dq q).comps.length)
  | .region k => decide (16 ≤ (s.region k).recs.length) && decide (64 ≤ (s.dq q).comps.length)
  | _ => false

/-- The job's record must wait: an earlier descriptor of the queue still runs in its bank, since descriptors of one queue that go to
one bank complete in submission order (R209), or the completion FIFO is full. -/
def behind (s : State) (q : Nat) (j : Job) : Bool :=
  s.fifoFull q j.desc
    || ((s.dq q).running.takeWhile (· != j)).any fun k => k.desc.op != opNop && j.desc.op != opNop && k.desc.bank = j.desc.bank

/-- A job that has ended completes once none of its queue and bank before it is left. -/
def settleJob (q : Nat) (j : Job) (s : State) : State :=
  match j.ended with
  | some c => if s.behind q j then s else s.retireJob q j c
  | none => s

/-- The ended jobs of queue `q` that no longer wait complete. -/
def settleQueue (q : Nat) (s : State) : State := forEach (s.dq q).running (settleJob q) s

/-- A job ends: its descriptor completes, and with it those that waited for it. -/
def finish (s : State) (q : Nat) (j : Job) (c : Done) : State :=
  if s.behind q j then s.setJob q j { j with ended := some c } else settleQueue q (s.retireJob q j c)

/-- Everything that waited for the region's ports is delivered. -/
def regionDeliver (s : State) (r : Nat) : State := (settleQueue 2 (s.storeDeliver r)).streamDeliver r

/-! ### Checks at dispatch (Table 7.8) -/

/-- Check 1. `data` is what a PROGRAM is to write, where it is known. -/
def badDesc (s : State) (q : Nat) (x : Desc) (data : Option (List (BitVec 64))) : Bool :=
  if x.isLog || x.src = .steward then false
  else
    let op := x.op
    !opListed q op || !reservedZero x || (x.overp && op != opProgram)
      || (op != opNop && (if isRead op && op = opRead then 104 ≤ x.bank && x.bank != 127 else 104 ≤ x.bank))
      || (usesSector op && !sectorReached q x.bank x.sector)
      || ((isRead op || op = opProgram) && (x.count = 0 || 512 < x.first + x.count))
      || (usesBuffer op && !bufferOk q x)
      || (usesBuffer op && x.space = 1 && !s.ep.busMaster)
      || (x.overp && x.first < 504)
      || (op = opProgram && (data.getD []).zipIdx.any fun w => 504 ≤ x.first + w.2 && !flagOk w.1)
      || (op = opProtect && (s.bankOf x.bank).digest.isNone)
      || ((op = opProtect || op = opUnprotect) && x.arg / 2 ^ groupsOf x.bank != 0)

/-- MARGIN_READ and RAW_READ are reached (Table 13.4). -/
def marginOk (s : State) : Bool :=
  let l := s.lcState
  l = 0 || (l < 5 && s.rb (reg pLife 0x040) 27)

/-- Check 2. -/
def lifeForbids (s : State) (x : Desc) : Bool :=
  s.life.held || (s.lcState = 5 && !(x.op = opNop || (x.op = opRead && x.bank = 127)))
    || ((x.op = opMargin || x.op = opRaw) && !s.marginOk)

/-- The claim of a PROGRAM or ERASE covers its bank as WRITE or EXCLUSIVE (R213, R356). -/
def claimCovers (s : State) (x : Desc) : Bool :=
  let c := match x.src with
    | .seq k => (s.sq k).logClaim.bind s.claimOf
    | _ => s.claimOf x.claim
  c.any fun c => !c.queued && c.res.any fun w =>
    fld w 31 30 = 1 && fld w 6 0 = x.bank && (fld w 9 8 = bWrite || fld w 9 8 = bExcl)

/-- Check 3 but for a METADATA claim. -/
def descConflict (s : State) (x : Desc) : Bool :=
  (x.op = opProgram || x.op = opErase) && x.src != .steward &&
    (!s.claimCovers x
      || (x.op = opErase && s.store.sectors.any fun e => e.1 / 1024 = x.bank && e.2.state = .suspended)
      || (x.bank < 96 && s.slotState x.bank (x.sector / 96) = 1))

/-- The group of the sector is protected (R235). -/
def protectedSec (s : State) (b n : Nat) : Bool := nbit (s.bankOf b).prot (n / 16)

/-- Word `i` counts as erased for a PROGRAM of `data` (R219, R220): every cell reads 1, or under OVERPROGRAM no flag requested
at 1 reads 0. An undefined ECC word may read either way. The steward programs words that it knows to be erased. -/
def targetOk (s : State) (x : Desc) (i : Nat) (data : BitVec 64) : Bool :=
  let w := x.first + i
  let f := s.flashWord x.bank x.sector w
  if x.src = .steward then true
  else if x.overp then data &&& ~~~(flagRead (s.cellsOf f i)).1 = 0
  else if w < 504 then (if f.undef then Config.freeBool (s.free + i) else f.data = erasedWord && f.check = 0xFF)
  else s.cellsOf f i = erasedWord

/-- The first word of a PROGRAM that is not erased. -/
def notErased (s : State) (x : Desc) (data : List (BitVec 64)) : Option Nat :=
  (data.zipIdx.find? fun w => !s.targetOk x w.2 w.1).map (x.first + ·.2)

/-- The first failing check of a descriptor, with FIRST. -/
def descCheck (s : State) (q : Nat) (x : Desc) (data : Option (List (BitVec 64))) : Option (Nat × Nat) :=
  if s.badDesc q x data then some (stBad, 0)
  else if s.lifeForbids x then some (stLife, 0)
  else if s.descConflict x then some (stConflict, 0)
  else if (x.op = opProgram || x.op = opErase) && s.protectedSec x.bank x.sector then some (stProtected, 0)
  else if x.op = opProgram && ((s.sec x.bank x.sector).state = .suspended
      || (s.sec x.bank x.sector).state = .incomplete || (s.sec x.bank x.sector).listed) then some (stIncomplete, 0)
  else if x.op = opProgram then
    (match data with
     | some ds => (s.notErased x ds).map (stNotErased, ·)
     | none =>
       if x.overp then none
       else (s.notErased x (List.replicate x.count erasedWord)).map (stNotErased, ·))
  else none

/-! ### Dispatch (R209) -/

/-- An operation runs in the descriptor's bank; the metadata partition has its own path (R206). -/
def bankBusy (s : State) (x : Desc) : Bool :=
  s.store.queues.any fun e => e.2.running.any fun j =>
    isOperation j.desc.op && j.ended.isNone && j.desc.bank = x.bank
      && metaSector j.desc.bank j.desc.sector = metaSector x.bank x.sector

/-- The descriptor's buffer lies in a memory under test, or in host memory while the function is in D3hot. -/
def bufferHeld (s : State) (x : Desc) : Bool :=
  !x.isLog && x.src != .steward && usesBuffer x.op &&
    (match x.space with
     | 1 => s.ep.d3hot
     | 2 => s.deepHeld (x.lo / 2 ^ 19) || s.deepHeld ((x.lo + bufLen x - 1) / 2 ^ 19)
     | 3 | 4 | 5 => s.inSelftest (pSeq (x.hi % 64))
     | _ => false)

/-- The head of queue `q` can be dispatched. -/
def canDispatch (s : State) (q : Nat) (x : Desc) : Bool :=
  s.rb (reg pStore 0x040) 0 && !s.metaStopped && decide ((s.dq q).comps.length < 64)
    && (!x.fence || (s.dq q).running.isEmpty) && !(isOperation x.op && s.bankBusy x) && !s.bufferHeld x

/-- Queue `q` has a head that can be dispatched. -/
def headReady (s : State) (q : Nat) : Bool := (s.dq q).held.head?.any (s.canDispatch q)

/-- Queue `q` dispatches next: STEWARD goes first, HOST, FABRIC and SEQUENCER take turns (R209).
(DESIGN CHOICE: assumption 185) -/
def chosen (s : State) (q : Nat) : Bool :=
  if s.headReady 0 then q = 0
  else ((List.range 3).map fun i => (s.store.lastQ + i) % 3 + 1).find? s.headReady = some q

/-- The head of queue `q`, of an opcode that `want` accepts, is dispatched when it is the queue's turn: it leaves the waiting
descriptors for the running ones, and `f` follows. -/
def dispatch (q : Nat) (want : Nat → Bool) (f : Job → State → State) (s : State) : State :=
  match (s.dq q).held with
  | [] => s
  | x :: r =>
    if want x.op && s.chosen q then
      let j : Job := { desc := x, since := s.now, data := x.log, limits := s.rd (reg pStore 0x800) }
      let s1 := s.setDq q { s.dq q with held := r, running := (s.dq q).running ++ [j] }
      f j (if q = 0 then s1 else { s1 with store := { s1.store with lastQ := q } })
    else s

/-- A failing check ends the job; otherwise `f` follows. A buffer in host memory without Bus Master Enable is
recorded (R309). -/
def checked (q : Nat) (f : Job → State → State) (j : Job) (s : State) : State :=
  match s.descCheck q j.desc (if j.desc.isLog then some j.data else none) with
  | some (st, w) =>
    let s1 := if st = stBad && usesBuffer j.desc.op && j.desc.space = 1 && !s.ep.busMaster then s.dmaErr 1 1 else s
    s1.finish q j { status := st, first := w, pulses := if isOperation j.desc.op then some 0 else none }
  | none => f j s

/-- The job starts to fetch its buffer from host memory. -/
def startFetch (s : State) (q : Nat) (j : Job) : State :=
  (s.setJob q j { j with fetch := true, since := s.now }).emit
    (.hostRead (j.desc.hi * 2 ^ 32 + j.desc.lo) (bufLen j.desc))

/-! ### Buffers -/

/-- `n` words of the deep memories from word `w` on, read through port B (R195, R196). -/
def deepWordsAt (s : State) : Nat → Nat → List (BitVec 64) × State
  | 0, _ => ([], s)
  | n + 1, w =>
    let g := s.deepRd (w / 65536) (w % 65536) true .none
    let r := g.2.deepWordsAt n (w + 1)
    (BitVec.ofNat 64 g.1 :: r.1, r.2)

/-- The words of a buffer in a memory of the device, and the state once they are read. -/
def bufferWords (s : State) (x : Desc) : List (BitVec 64) × State :=
  let n := bufLen x / 8
  if x.space = 2 then s.deepWordsAt n (x.lo / 8)
  else ((List.range n).map fun i =>
    BitVec.ofNat 64 (bytesNat ((List.range 8).map fun k => s.byte (resBase x.hi + x.lo + 8 * i + k))), s)

/-- RUN_STAT.RUN of sequencer `q`. -/
def runOf (s : State) (q : Nat) : Nat := s.rf (reg (pSeq q) 0x05C) 2 0

/-- RUN is ARMED, RUNNING or WAITING. -/
def running (s : State) (q : Nat) : Bool := s.runOf q = 1 || s.runOf q = 2 || s.runOf q = 3

/-- Word `c` of the program RAM of sequencer `q`. -/
def progWord (s : State) (q c : Nat) : Nat := bytesNat ((List.range 8).map fun k => s.byte (progBase q + 8 * c + k))

/-- A 32-bit word written into the program RAM of sequencer `q` at byte offset `o`: fetches see it 4 cycles later, and while the
sequencer runs an instruction of which only one half has been written is undefined (R131, R212, R442).
(DESIGN CHOICE: assumption 67) -/
def progPut (s : State) (q o : Nat) (w : Word) : State :=
  let c := o / 8
  let half : Bool := o % 8 = 4
  let x := s.sq q
  let was : Option Nat := if x.torn.any (·.1 = c) then none else some (s.progWord q c)
  let torn := if x.torn.any fun e => e.1 = c && e.2 != half then x.torn.filter (·.1 != c)
    else if s.running q && !x.torn.any (·.1 = c) then x.torn ++ [(c, half)] else x.torn
  let fresh := (x.fresh.filter fun e => decide (s.now < e.2.1)) ++ [(c, s.now + 4 * seqCycle, was)]
  (s.setSq q { x with torn := torn, fresh := fresh }).putWord (progBase q + o) w

/-- A word of a READ goes to its buffer; the Bool says that R139 has rejected a word. -/
def bufferPut (s : State) (x : Desc) (i : Nat) (w : BitVec 64) : Bool × State :=
  let lo := w.extractLsb' 0 32
  let hi := w.extractLsb' 32 32
  let o := x.lo + 8 * i
  if x.space = 1 then (false, s.hostPut (x.hi * 2 ^ 32 + o) (wordBytes lo ++ wordBytes hi))
  else if x.space = 2 then (false, s.deepWr (o / 8 / 65536) (o / 8 % 65536) w.toNat 255 true)
  else if x.space = 3 then (false, (s.putWord (resBase x.hi + o) lo).putWord (resBase x.hi + o + 4) hi)
  else if x.space = 4 then
    let a := vecPutBy 97 s x.hi o lo
    let b := vecPutBy 97 a.2 x.hi (o + 4) hi
    (a.1 || b.1, b.2)
  else (false, (s.progPut x.hi o lo).progPut x.hi (o + 4) hi)

/-- Consecutive words of a READ. -/
def bufferPuts (s : State) (x : Desc) : Nat → List (BitVec 64) → Bool × State
  | _, [] => (false, s)
  | i, w :: ws =>
    let a := s.bufferPut x i w
    let b := a.2.bufferPuts x (i + 1) ws
    (a.1 || b.1, b.2)

/-! ### Reading (R217) -/

/-- The sector's content cannot be relied on: its erase is suspended or did not end. (DESIGN CHOICE: assumption 79) -/
def sectorOpen (s : State) (b n : Nat) : Bool :=
  let x := s.sec b n
  x.state = .suspended || x.state = .incomplete || x.listed

/-- What a READ or MARGIN_READ delivers for word `i`: data, and what it adds to CORR, for a flag word, and to UNCORR. `bad` are
the ECC words that this read finds uncorrectable, as read. A shifted sense level and undefined cells give free data; a sector
whose erase did not end is read without correction. (DESIGN CHOICE: assumption 77, DESIGN CHOICE: assumption 78) -/
def readWord (s : State) (x : Desc) (bad : List (Nat × BitVec 64)) (i : Nat) : BitVec 64 × Nat × Nat :=
  let f := s.flashWord x.bank x.sector (x.first + i)
  let loose : Bool := x.op = opMargin || s.sectorOpen x.bank x.sector
  if flagWord x.bank (x.first + i) then
    let r := flagRead (if loose then s.free64 i else s.cellsOf f i)
    (r.1, if s.sectorOpen x.bank x.sector then 0 else r.2.1, r.2.2)
  else if f.undef || loose then (s.free64 i, 0, b2n (Config.freeBool (s.free + i)))
  else match bad.find? (·.1 = i) with
    | some e => (e.2, 0, 1)
    | none => (f.data, 0, 0)

/-- What a RAW_READ delivers for word `i`: its 64 cells as they stand, and a word with its check bits in the last byte. The
bytes before them, and the check bits of an undefined word or a flag word, are free. (DEDUCED: assumption 183) -/
def rawWord (s : State) (x : Desc) (i : Nat) : List (BitVec 64) :=
  let f := s.flashWord x.bank x.sector (x.first + i)
  let free := s.free64 (x.count + i)
  let check := if f.undef || flagWord x.bank (x.first + i) then free.extractLsb' 56 8 else f.check
  [s.cellsOf f i, check ++ free.extractLsb' 0 56]

/-- READ_COMPLETE: the oldest READ of queue `q` in bank `b` delivers its words and completes. It waits while its
sector is being programmed or erased, and while its buffer in host memory cannot be reached. -/
def readComplete (s : State) (q b corr : Nat) (bad : List (Nat × BitVec 64)) : State :=
  match (s.dq q).running.find? (fun j => isRead j.desc.op && j.desc.bank = b && j.ended.isNone) with
  | none => s
  | some j =>
    let x := j.desc
    let y := s.sec b x.sector
    if y.state = .programming || y.state = .erasing || s.bufferHeld x then s
    else if x.space = 1 && !s.ep.busMaster then
      (s.dmaErr 1 1).finish q j { status := stBad }
    else
      let raw : Bool := x.op = opRaw
      let ws := if raw then [] else (List.range x.count).map (s.readWord x bad)
      let open_ := s.sectorOpen b x.sector
      let ecc := if b = 127 then x.count else min x.count (504 - x.first)
      let un := (ws.map (·.2.2)).sum
      let co := if open_ || raw then 0 else (ws.map (·.2.1)).sum + min corr (ecc - ((ws.take ecc).map (·.2.2)).sum)
      let out := if raw then (List.range x.count).flatMap (s.rawWord x) else ws.map (·.1)
      let r := (s.drewN (2 * x.count)).bufferPuts x 0 out
      let s1 := forEach (List.range co) (fun _ s => s.raise pStore 3) r.2
      let s2 := forEach (List.range un) (fun _ s =>
        (s.raise pStore 4).raiseIf (decide (96 ≤ b) && decide (b < 104)) (pRecord (b - 96)) 2) s1
      s2.finish q j { status := if open_ then stIncomplete else stOk, uncorr := un, corr := co, done := x.count,
                      rejected := r.1 }

/-! ### Programming (R218 to R221) -/

/-- Lines of a record-bank sector leave the execute-in-place buffers (R157). -/
def xipDrop (s : State) (b n : Nat) : State :=
  if 96 ≤ b && b < 104 then
    let x := s.xip (b - 96)
    s.setXip (b - 96) { lines := x.lines.filter (· / 64 != n), btc := x.btc.filter (· / 512 != n),
                          bad := x.bad.filter (· / 512 != n) }
  else s

/-- The first `k` words of a program are programmed. -/
def programWords (s : State) (x : Desc) : Nat → List (BitVec 64) → State
  | _, [] => s
  | w, d :: ds =>
    let f := s.flashWord x.bank x.sector w
    let s1 := if d = erasedWord then s
      else if x.overp then s.putFlash x.bank x.sector w { data := f.data &&& d, open_ := f.open_ &&& d }
      else s.putFlash x.bank x.sector w { data := d, check := if w < 504 then Config.checkBits d else 0xFF }
    s1.programWords x (w + 1) ds

/-- A program stopped at the pulsed word `k`: the words before it are programmed, it is undefined, the others untouched. -/
def programTo (s : State) (x : Desc) (data : List (BitVec 64)) (k : Nat) : State :=
  let s1 := s.programWords x x.first (data.take k)
  if k < data.length then s1.putFlash x.bank x.sector (x.first + k) { data := erasedWord, open_ := erasedWord } else s1

/-- What the second program of a LOG writes: 0 for the record's flag and for every flag of the word that already
reads 0 (R225). -/
def flagData (s : State) (x : Desc) : BitVec 64 :=
  let f := s.flashWord x.bank x.sector (504 + x.recno / 8)
  let z : Nat := 0xFF * 2 ^ (8 * (x.recno % 8))
  (flagRead (s.cellsOf f 0)).1 &&& ~~~(BitVec.ofNat 64 z)

/-- A check of a PROGRAM has failed: it ends. -/
def programFail (s : State) (q : Nat) (j : Job) (v : Nat × Nat) : State :=
  s.drew.finish q j { status := v.1, first := v.2, pulses := some 0 }

/-- A PROGRAM that passed its checks starts. -/
def programStart (s : State) (q : Nat) (j : Job) (data : List (BitVec 64)) : State :=
  let x := j.desc
  let s1 := s.setJob q j { j with data := data, fetch := false }
  (s1.setSec x.bank x.sector { s1.sec x.bank x.sector with state := .programming }).xipDrop x.bank x.sector

/-- A PROGRAM whose words are known: it is checked, and starts. -/
def programKnown (s : State) (q : Nat) (j : Job) (data : List (BitVec 64)) : State :=
  match s.descCheck q j.desc (some data) with
  | some v => s.programFail q j v
  | none => s.drewN j.desc.count |>.programStart q j data

/-- A PROGRAM whose words have been fetched: of the checks at dispatch those that the words decide are left, a flag byte and
OVERPROGRAM's NOT_ERASED (Table 7.8). -/
def programFetched (s : State) (q : Nat) (j : Job) (data : List (BitVec 64)) : State :=
  let x := j.desc
  let flag : Bool := data.zipIdx.any fun w => 504 ≤ x.first + w.2 && !flagOk w.1
  if flag then s.programFail q j (stBad, 0)
  else match j.verdict, (if x.overp then s.notErased x data else none) with
    | some v, _ => s.programFail q j v
    | none, some w => s.programFail q j (stNotErased, w)
    | none, none => (s.drewN x.count).programStart q j data

/-- What the steward programs: a free word, in a flag word of bytes 0x00 and 0xFF. -/
def stewardWord (s : State) (x : Desc) : BitVec 64 := if 504 ≤ x.first then (flagRead (s.free64 0)).1 else s.free64 0

/-- PROGRAM: its whole buffer is read, from host memory by a fetch, once no check that does without its words has failed. Where they
decide the first check (flag words), they are read before the later checks; of a fetch, a later check that fails is noted and the
descriptor waits for them. -/
def programDispatch (q : Nat) (j : Job) (s : State) : State :=
  let x := j.desc
  let flags : Bool := decide (504 < x.first + x.count)
  if x.src = .steward then s.drew.programStart q j [s.stewardWord x]
  else if x.isLog then s.programKnown q j (if x.flag then [s.flagData x] else j.data)
  else if x.space = 1 then
    (if flags && !s.badDesc q x none then
       (s.setJob q j { j with verdict := s.descCheck q x none }).startFetch q { j with verdict := s.descCheck q x none }
     else checked q (fun j s => s.startFetch q j) j s)
  else if s.badDesc q x none then checked q (fun _ s => s) j s
  else if flags then (s.bufferWords x).2.programKnown q j (s.bufferWords x).1
  else match s.descCheck q x none with
    | some v => s.programFail q j v
    | none => (s.bufferWords x).2.drewN x.count |>.programStart q j (s.bufferWords x).1

/-- OK, or WORN in a worn sector (R224). -/
def okOrWorn (s : State) (b n : Nat) : Nat := if wornAt ≤ (s.sec b n).cycles then stWorn else stOk

/-- PROGRAM_COMPLETE: the program of bank `b` in queue `q` ends after its last word, or at word `fail`. -/
def programComplete (s : State) (q b : Nat) (fail : Option Nat) (pulses : Nat) : State :=
  match (s.dq q).running.find? (fun j =>
    j.desc.op = opProgram && j.desc.bank = b && !j.fetch && j.stopped.isNone && j.ended.isNone) with
  | none => s
  | some j =>
    let x := j.desc
    let lim := fld j.limits 4 0
    let pulsed := if j.data.all (· = erasedWord) then 0 else min (max 1 pulses) lim
    let k := match fail with | some k => min (pulsedFrom j.data k) j.data.length | none => j.data.length
    let s0 := s.programTo x j.data k
    let s1 := s0.setSec b x.sector { s0.sec b x.sector with state := .normal }
    if k < j.data.length then s1.finish q j { status := stVerify, pulses := some lim, done := k, first := x.first + k }
    else
      if x.isLog && !x.flag then
        let w0 := setBit (x.d 0) 13 true
        let w1 := setFld (x.d 1) 8 0 (504 + x.recno / 8)
        let y : Desc := { x with flag := true, log := [], ws := [w0, w1, setFld (x.d 2) 9 0 1] }
        s1.setDq q { s1.dq q with running := (s1.dq q).running.erase j, held := y :: (s1.dq q).held }
      else
        s1.finish q j { status := s1.okOrWorn b x.sector, pulses := some pulsed, done := x.count }

/-! ### Erasing and suspending (R222 to R228) -/

/-- The cycle count rises at the intent write (R224). -/
def cycleUp (s : State) (b n : Nat) : State :=
  let x := s.sec b n
  let c := min (x.cycles + 1) (2 ^ 28 - 1)
  let s1 := s.setSec b n { x with cycles := c }
  let hit : Bool := c = wornAt && x.cycles < wornAt
  (s1.raiseIf hit pStore 5).raiseIf (hit && decide (96 ≤ b)) (pRecord (b - 96)) 0

/-- An entry of the sector status table of a bank (R207, R222, R226). -/
def statusEntry (b : Nat) (s : State) : State := bankMeta b 2 8 s

/-- ERASE: the intent is written and the sector erases. -/
def eraseGo (_q : Nat) (j : Job) (s : State) : State :=
  let x := j.desc
  let s1 := statusEntry x.bank (s.cycleUp x.bank x.sector)
  ((s1.setSec x.bank x.sector { s1.sec x.bank x.sector with state := .erasing, steps := 0 }).clearSector
    x.bank x.sector true).xipDrop x.bank x.sector

/-- RESUME (R228). -/
def resumeGo (q : Nat) (j : Job) (s : State) : State :=
  let x := j.desc
  let y := s.sec x.bank x.sector
  if y.state = .suspended then s.setSec x.bank x.sector { y with state := .erasing }
  else s.finish q j { status := if y.state = .incomplete then stIncomplete else stBad, pulses := some 0 }

/-- The erase or resume that runs in a bank, with its queue. -/
def erasing (s : State) (b : Nat) : Option (Nat × Job) :=
  s.store.queues.findSome? fun e =>
    (e.2.running.find? fun j => (j.desc.op = opErase || j.desc.op = opResume) && j.desc.bank = b && j.stopped.isNone
      && j.ended.isNone).map (e.1, ·)

/-- The SUSPENDs that wait in a bank complete, `n` the DONE they report. -/
def suspendsDone (s : State) (b n : Nat) : State :=
  forEach s.store.queues (fun e s =>
    forEach (e.2.running.filter fun j => j.desc.op = opSuspend && j.desc.bank = b && j.ended.isNone) (fun j s =>
      s.finish e.1 j { status := stOk, done := n }) s) s

/-- The steps that an erase has had, of those reported: one more at least than before, within the limit. -/
def erasePulses (s : State) (j : Job) (pulses : Nat) : Nat :=
  min (max pulses ((s.sec j.desc.bank j.desc.sector).steps + 1)) (fld j.limits 13 8)

/-- ERASE_COMPLETE: the erase of bank `b` ends, verified, or unverified after ERASE_LIMIT steps; a region bank repeats once on a
spare. -/
def eraseComplete (s : State) (q b : Nat) (ok : Bool) (pulses : Nat) (spareOk : Bool) : State :=
  match (s.dq q).running.find? (fun j =>
    (j.desc.op = opErase || j.desc.op = opResume) && j.desc.bank = b && j.stopped.isNone && j.ended.isNone) with
  | none => s
  | some j =>
    let n := j.desc.sector
    let p := s.erasePulses j pulses
    if !ok && decide (p < fld j.limits 13 8) then s else
    let remap : Bool := !ok && decide (b < 96) && decide ((s.bankOf b).spares < 16) && spareOk
    let good := ok || remap
    let s1 := s.clearSector b n (!good)
    let s2 := s1.setSec b n { s1.sec b n with state := .normal, steps := 0 }
    let s3 := if remap then (metaPut b 7 (s2.setBank b { s2.bankOf b with spares := (s2.bankOf b).spares + 1 })).raise pStore 8 else s2
    let s4 := ((statusEntry b s3).leaveIncomplete b n).suspendsDone b 0
    s4.finish q j { status := if good then s4.okOrWorn b n else stVerify, pulses := some p, remapped := remap,
                    done := 1 }

/-- SUSPEND: it waits for its effective instant, or finds no erase (R226). -/
def suspendGo (q : Nat) (j : Job) (s : State) : State :=
  if (s.erasing j.desc.bank).isSome then s else s.finish q j { status := stOk, done := 0 }

/-- SUSPEND_EFFECTIVE: the step under way in bank `b` is cut, once erase progress has reached 250 µs; it counts. -/
def suspendEffective (s : State) (b pulses : Nat) : State :=
  let asked := s.store.queues.any fun e => e.2.running.any fun j => j.desc.op = opSuspend && j.desc.bank = b && j.ended.isNone
  match s.erasing b with
  | none => s
  | some (q, j) =>
    if asked && decide (j.since + us 250 ≤ s.now) then
      let n := j.desc.sector
      let p := s.erasePulses j pulses
      let s1 := statusEntry b (s.setSec b n { s.sec b n with state := .suspended, steps := p })
      ((s1.finish q j { status := stSuspended, pulses := some p }).raise pStore 9).suspendsDone b 1
    else s

/-- SECTOR_INFO and NOP complete at once. -/
def infoGo (q : Nat) (j : Job) (s : State) : State := s.finish q j { status := stOk }

/-! ### Protection (R235 to R237) -/

/-- The groups of a bank change their bits; RECORD pages report it. -/
def setProt (s : State) (b prot : Nat) : State :=
  (bankMeta b 4 10 (s.setBank b { s.bankOf b with prot := prot })).raiseIf (decide (96 ≤ b)) (pRecord (b - 96)) 3

/-- A password is compared with the bank's digest (R236). -/
def pwdMatches (s : State) (b : Nat) (pw : List Byte) : Bool :=
  (s.bankOf b).digest = some (sha256 pw)

/-- A mismatch counts towards lockout. -/
def pwdFail (s : State) (q : Nat) (j : Job) : State :=
  let b := j.desc.bank
  ((s.setBank b { s.bankOf b with fails := min 8 ((s.bankOf b).fails + 1) }).raise pStore 7).finish q j
    { status := stProtected }

/-- Bytes of a list of words. -/
def wordsBytes (ws : List (BitVec 64)) : List Byte := ws.flatMap fun w => natBytes 8 w.toNat

/-- A metadata command acts, its claim granted and its buffer read. -/
def metaAct (s : State) (q : Nat) (j : Job) (data : List (BitVec 64)) : State :=
  let x := j.desc
  let b := x.bank
  let y := s.bankOf b
  if x.op = opProtect then (s.setProt b (Nat.lor y.prot (x.arg))).finish q j { status := stOk }
  else if x.op = opUnprotect then
    if 8 ≤ y.fails then s.finish q j { status := stProtected }
    else if s.pwdMatches b (wordsBytes (data.take 4)) then
      (s.setProt b (y.prot - Nat.land y.prot x.arg)).finish q j { status := stOk }
    else s.pwdFail q j
  else
    let new : BitVec 256 := sha256 (wordsBytes ((data.drop 4).take 4))
    if 8 ≤ y.fails then s.finish q j { status := stProtected }
    else if y.digest.isNone || s.pwdMatches b (wordsBytes (data.take 4)) then
      (bankMeta b 4 10 (s.setBank b { y with digest := some new })).finish q j { status := stOk }
    else s.pwdFail q j

/-- With its claim granted, the command acts, or first fetches its password. It waits while PWRFAIL_N stops the store, and while
its buffer is held (R308). -/
def metaRun (s : State) (q : Nat) (j : Job) : State :=
  if s.metaStopped then s
  else if j.desc.op = opProtect then s.metaAct q j []
  else if 8 ≤ (s.bankOf j.desc.bank).fails then s.finish q j { status := stProtected }
  else if !j.data.isEmpty then s.metaAct q j j.data
  else if s.bufferHeld j.desc then s
  else if j.desc.space = 1 then s.startFetch q j
  else (s.bufferWords j.desc).2.metaAct q j (s.bufferWords j.desc).1

/-- PROTECT, UNPROTECT, SET_PASSWORD: under a METADATA claim of the bank (R235). -/
def metaGo (q : Nat) (j : Job) (s : State) : State :=
  let r := s.claim actMeta agStw [resBank bMeta j.desc.bank] 100
  match r.1 with
  | .refused _ => r.2.finish q j { status := stConflict }
  | .queued n => r.2.setJob q j { j with claim := some n }
  | .granted n => (r.2.setJob q j { j with claim := some n }).metaRun q { j with claim := some n }

/-- A metadata command whose claim has been granted since goes on. -/
def metaResume (q op : Nat) (s : State) : State :=
  match (s.dq q).running.find? (fun j => j.desc.op = op && !j.fetch && j.ended.isNone && j.claim.any s.claimGranted) with
  | some j => s.metaRun q j
  | none => s

/-- One of the three rows: a waiting command goes on, else the head is dispatched. -/
def metaRow (q op : Nat) (s : State) : State :=
  if (s.dq q).running.any fun j => j.desc.op = op && !j.fetch && j.ended.isNone && j.claim.any s.claimGranted then
    metaResume q op s
  else dispatch q (· = op) (checked q (metaGo q)) s

/-- Metadata descriptors whose claim has stayed queued for more than 10 ms end with CONFLICT. -/
def metaTimeout (s : State) : State :=
  forEach s.store.queues (fun e s =>
    forEach (e.2.running.filter fun j => isMeta j.desc.op && j.ended.isNone && decide (j.since + ms 10 < s.now)
        && j.claim.any fun n => (s.claimOf n).any (·.queued))
      (fun j s => s.finish e.1 j { status := stConflict }) s) s

/-! ### Fetches from host memory (R309) -/

/-- The job whose fetch is oldest. -/
def fetching (s : State) : Option (Nat × Job) :=
  s.store.queues.findSome? fun e => (e.2.running.find? (·.fetch)).map (e.1, ·)

/-- The words that a byte string spells, `n` of them. -/
def wordsOf (n : Nat) (bs : List Byte) : List (BitVec 64) :=
  (List.range n).map fun i => BitVec.ofNat 64 (bytesNat ((bs.drop (8 * i)).take 8))

/-- The fetch of the store has delivered the whole buffer. -/
def fetchData (s : State) (bs : List Byte) : State :=
  match s.fetching with
  | none => s
  | some (q, j) =>
    let ws := wordsOf (bufLen j.desc / 8) bs
    let k : Job := { j with fetch := false, data := ws }
    let s1 := s.setJob q j k
    if j.stopped.isSome then s1 else if j.desc.op = opProgram then s1.programFetched q k ws else s1.metaRun q k

/-- The fetch of the store has failed, with a kind of DMA_ERR. (DEDUCED: assumption 82) -/
def fetchFail (s : State) (kind : Nat) : State :=
  match s.fetching with
  | none => s
  | some (q, j) =>
    if j.stopped.isSome then (s.dmaErr 1 kind).setJob q j { j with fetch := false }
    else (s.dmaErr 1 kind).finish q j
      { status := stBad, pulses := if j.desc.op = opProgram then some 0 else none }

/-! ### Stops (R231 to R234) -/

/-- A running operation is cut: what it leaves in flash, and what its record will say of it. How far it had come is free; a word
of all ones is never pulsed (R219). (DESIGN CHOICE: assumption 77) -/
def cut (s : State) (loud : Bool) (j : Job) : State × Done :=
  let x := j.desc
  if x.op = opProgram then
    let k := min (pulsedFrom j.data (s.freeNat % j.data.length)) j.data.length
    let least := b2n ((j.data.take k).any (· != erasedWord))
    let s1 := s.drew.programTo x j.data k
    (s1.setSec x.bank x.sector { s1.sec x.bank x.sector with state := .normal },
     { status := stOk, pulses := some (least + s.freeNat / 2 ^ 32 % (fld j.limits 4 0 + 1 - least)), done := k })
  else
    let n := (s.sec x.bank x.sector).steps
    ((if loud then s.drew.enterIncomplete x.bank x.sector 1 else s.drew.markIncomplete x.bank x.sector 1),
     { status := stOk, pulses := some (n + s.freeNat % (fld j.limits 13 8 + 1 - n)) })

/-- A dispatched operation is stopped: it reports status `st`. One that still fetches its words has pulsed nothing. -/
def stopJob (q st : Nat) (j : Job) (s : State) : State :=
  if j.pulsing then
    let c := s.cut true j
    c.1.setJob q j { j with stopped := some { c.2 with status := st } }
  else if isOperation j.desc.op && j.stopped.isNone && j.ended.isNone then
    s.setJob q j { j with stopped := some { status := st, pulses := some 0 } }
  else s

/-- The SUSPENDs that waited for the erases of the jobs find none any more. -/
def suspendsOf (js : List Job) (s : State) : State :=
  forEach (js.filter fun j => j.desc.op = opErase || j.desc.op = opResume) (fun j s => s.suspendsDone j.desc.bank 0) s

/-- PWRFAIL_N stops the store: operations end where they stand and wait for their completion (R231). -/
def storeStop (s : State) : State :=
  let js := s.store.queues.flatMap fun e => e.2.running.filter (·.pulsing)
  suspendsOf js (forEach s.store.queues (fun e s => forEach e.2.running (stopJob e.1 stPwrfail) s) s)

/-- The store's part of PWRFAIL_RECOVERY: stopped descriptors complete ABORTED_PWRFAIL and are counted (R232). -/
def storeRecover (s : State) : State :=
  let js := s.store.queues.flatMap fun e => (e.2.running.filter (·.stopped.isSome)).map (e.1, ·)
  let s1 := forEach js (fun j s => s.finish j.1 j.2 (j.2.stopped.getD { status := stPwrfail })) s
  (s1.wr (reg pStore 0x0C0) (word (js.length % 65536))).wb (reg pStore 0x040) 2 false

/-- A descriptor of a queue that is reset completes. -/
def resetJob (q : Nat) (j : Job) (s : State) : State :=
  if (s.dq q).running.contains j then
    let none_ : Done := { status := stReset, pulses := if isOperation j.desc.op then some 0 else none }
    s.finish q j { (j.stopped.getD none_) with status := stReset }
  else s

/-- A queue is reset: its operations stop, its descriptors complete ABORTED_RESET in queue order, and SUSPENDs of other queues
that waited for an erase of it find none (R234). -/
def queueReset (q : Nat) (s : State) : State :=
  let x := s.dq q
  let s1 := forEach x.running (stopJob q stReset) s
  let s2 := forEach (s1.dq q).running (resetJob q) s1
  let late := x.held.map fun d =>
    ({ desc := d, since := s.now, ended := some { status := stReset, pulses := if isOperation d.op then some 0 else none } } : Job)
  let s3 := s2.setDq q { s2.dq q with held := [], running := (s2.dq q).running ++ late }
  suspendsOf (x.running.filter (·.pulsing)) (settleQueue q s3)

/-- A write of QCTRL. -/
def qctrl (v : Word) (s : State) : State :=
  forEach [1, 2, 3] (fun q s => if bit v q then queueReset q s else s) s

/-- The supplies fail. Within 50 µs of PWRFAIL_N's fall, or without it, every word of a sector that was being pulsed is undefined
(R232). (DEDUCED: assumption 85) -/
def supplyFail (s : State) : State :=
  if s.store.pfFall.any fun t => t + us 50 ≤ s.now then s
  else
    forEach s.store.queues (fun e s => forEach (e.2.running.filter fun j =>
        isOperation j.desc.op && !j.fetch && j.ended.isNone && j.stopped.all fun c => c.done < j.data.length || j.desc.op != opProgram)
      (fun j s =>
        let s1 := s.clearSector j.desc.bank j.desc.sector true
        if j.desc.op = opProgram then
          (s1.setSec j.desc.bank j.desc.sector { s1.sec j.desc.bank j.desc.sector with state := .normal }).setDq e.1
            { s1.dq e.1 with running := (s1.dq e.1).running.erase j }
        else s1) s) s

/-- A reset leaves flash as R229 and R232 state: operations cut, suspended erases never ended. Queues are gone, and nothing is
posted (R233). -/
def storeReset (s : State) : State :=
  let s1 := forEach s.store.queues (fun e s => forEach (e.2.running.filter (·.pulsing)) (fun j s => (s.cut false j).1) s) s
  let secs := s1.store.sectors.map fun e =>
    if e.2.state = .suspended then (e.1, { e.2 with state := .incomplete, listed := true, cause := 0, undef := true }) else e
  let banks := s1.store.banks.map fun e => (e.1, { e.2 with fails := 0 })
  { s1 with store := { words := s1.store.words, sectors := secs, banks := banks, slots := s1.store.slots,
                       boots := s1.store.boots } }

/-! ### Submission (R208, R216) -/

/-- Descriptors that a queue holds. -/
def dqHeld (s : State) (q : Nat) : Nat := (s.dq q).held.length + (s.dq q).running.length

/-- A write of HSUBMIT; an orderly shutdown takes none (Table 14.6). -/
def hsubmit (v : Word) (s : State) : State :=
  if !bit v 0 then s
  else if s.pwr.phase != .user then s.refuseAns pStore .conflict
  else if 64 ≤ s.dqHeld 1 then s.raise pStore 2
  else s.enqueue 1 { src := .host, ws := (List.range 8).map fun i => s.rd (reg pStore (0x060 + 4 * i)) }

/-- A read of HCOMP0. -/
def hcomp0 (s : State) : State :=
  match (s.dq 1).comps with
  | [] => s.ret 0
  | (_, c) :: r =>
    let s1 := settleQueue 1 (s.setDq 1 { s.dq 1 with comps := r })
    ((((s1.wr (reg pStore 0x094) (c.getD 1 0)).wr (reg pStore 0x098) (c.getD 2 0)).wr (reg pStore 0x09C) (c.getD 3 0))
      ).ret (c.getD 0 0).toNat

end State

/-! ### The commands -/

/-- HSUBMIT (R208). -/
def execHsubmit (t : Nat) (a : Agent) (v : Word) : State → Host.Outcome State Fault Refusal :=
  run t (gateW a pStore (State.hsubmit v))
/-- STORE_NOP: a NOP descriptor, and every reserved opcode (R211). -/
def execStoreNop (t q : Nat) : State → Host.Outcome State Fault Refusal :=
  run t (State.dispatch q (fun op => op = opNop || !opListed 1 op) (State.checked q (State.infoGo q)))
/-- READ (R217). -/
def execRead (t q : Nat) : State → Host.Outcome State Fault Refusal :=
  run t (State.dispatch q (· = opRead) (State.checked q (fun _ s => s)))
/-- READ_COMPLETE (R217). -/
def execReadComplete (t q b corr : Nat) (bad : List (Nat × BitVec 64)) : State → Host.Outcome State Fault Refusal :=
  run t (·.readComplete q b corr bad)
/-- PROGRAM (R218). -/
def execProgram (t q : Nat) : State → Host.Outcome State Fault Refusal :=
  run t (State.dispatch q (· = opProgram) (State.programDispatch q))
/-- PROGRAM_COMPLETE (R218). -/
def execProgramComplete (t q b : Nat) (fail : Option Nat) (pulses : Nat) : State → Host.Outcome State Fault Refusal :=
  run t (·.programComplete q b fail pulses)
/-- ERASE (R222). -/
def execErase (t q : Nat) : State → Host.Outcome State Fault Refusal :=
  run t (State.dispatch q (· = opErase) (State.checked q (State.eraseGo q)))
/-- ERASE_COMPLETE (R222, R223). -/
def execEraseComplete (t q b : Nat) (ok : Bool) (pulses : Nat) (spareOk : Bool) :
    State → Host.Outcome State Fault Refusal :=
  run t (·.eraseComplete q b ok pulses spareOk)
/-- SUSPEND (R226). -/
def execSuspend (t q : Nat) : State → Host.Outcome State Fault Refusal :=
  run t (State.dispatch q (· = opSuspend) (State.checked q (State.suspendGo q)))
/-- SUSPEND_EFFECTIVE (R226). -/
def execSuspendEffective (t b pulses : Nat) : State → Host.Outcome State Fault Refusal :=
  run t (·.suspendEffective b pulses)
/-- RESUME (R228). -/
def execResume (t q : Nat) : State → Host.Outcome State Fault Refusal :=
  run t (State.dispatch q (· = opResume) (State.checked q (State.resumeGo q)))
/-- SECTOR_INFO (R211). -/
def execSectorInfo (t q : Nat) : State → Host.Outcome State Fault Refusal :=
  run t (State.dispatch q (· = opInfo) (State.checked q (State.infoGo q)))
/-- PROTECT (R235). -/
def execProtect (t q : Nat) : State → Host.Outcome State Fault Refusal := run t (State.metaRow q opProtect)
/-- UNPROTECT (R236). -/
def execUnprotect (t q : Nat) : State → Host.Outcome State Fault Refusal := run t (State.metaRow q opUnprotect)
/-- SET_PASSWORD (R237). -/
def execSetPassword (t q : Nat) : State → Host.Outcome State Fault Refusal := run t (State.metaRow q opPassword)
/-- MARGIN_READ (R211). -/
def execMarginRead (t q : Nat) : State → Host.Outcome State Fault Refusal :=
  run t (State.dispatch q (· = opMargin) (State.checked q (fun _ s => s)))
/-- RAW_READ (R211). -/
def execRawRead (t q : Nat) : State → Host.Outcome State Fault Refusal :=
  run t (State.dispatch q (· = opRaw) (State.checked q (fun _ s => s)))
/-- HCOMP0_READ (R216). -/
def execHcomp0Read (t : Nat) (_a : Agent) : State → Host.Outcome State Fault Refusal := run t (gateR pStore (·.hcomp0))
/-- RESET_HOST (R234). -/
def execResetHost (t : Nat) (a : Agent) (v : Word) : State → Host.Outcome State Fault Refusal :=
  run t (gateW a pStore (State.qctrl v))
/-- RESET_FABRIC (R234). -/
def execResetFabric (t : Nat) (a : Agent) (v : Word) : State → Host.Outcome State Fault Refusal :=
  run t (gateW a pStore (State.qctrl v))
/-- RESET_SEQUENCER (R234). -/
def execResetSequencer (t : Nat) (a : Agent) (v : Word) : State → Host.Outcome State Fault Refusal :=
  run t (gateW a pStore (State.qctrl v))

end Sys2Proof.Machine
end

