-- ==== Sys2Proof/Machine/SeqIssue.lean ====
section
/-! DEFINITION. Machine/SeqIssue.lean: the issue unit of a Roll sequencer (R140 to R149): vectors, what each pin does
with its code (R67 to R72), judgements and results. -/
namespace Sys2Proof.Machine

/-- A vector as the groups accept it: its start, and when it is position-clocked and not delayed the total position
of its boundary; its boundary in any case; its timing set. -/
structure Vec where
  start : Nat
  bpos  : Option Int
  exact : Bool
  dom   : Nat
  tset  : Nat
  vid   : Nat
deriving DecidableEq, Repr

/-- The instant `off` units of time after the vector's start, which is resolved when the vector is issued (R65). -/
def Vec.at (v : Vec) (off : Int) : When := .time ((v.start : Int) + off).toNat

/-- An instant moved by units of time. -/
def When.plus (w : When) (n : Nat) : When :=
  match w with
  | .time t => .time (t + n)
  | .pos d q sh => .pos d q (sh + n)

/-- Codes 0x3 to 0x5. -/
def isCompare (c : Nat) : Bool := 3 ≤ c && c ≤ 5

/-- One byte into SIGACC: CRC-32C without a final XOR (R147). -/
def sigByte (c : Nat) (b : Nat) : Nat := crcByte c (BitVec.ofNat 8 b)

namespace State

def qreg (q off : Nat) : Nat := reg (pSeq q) off
def qcfg (s : State) (q : Nat) : Word := s.rd (qreg q 0x040)
def setRun (s : State) (q v : Nat) : State := s.wf (qreg q 0x05C) 2 0 v
def pcOf (s : State) (q : Nat) : Nat := s.rf (qreg q 0x060) 19 0
def setPc (s : State) (q v : Nat) : State := s.wf (qreg q 0x060) 19 0 v
/-- A status bit of FLAGS: 8 FAIL, 9 LATE, 10 MATCHED, 11 TIMEOUT, 12 Z. -/
def qflag (s : State) (q n : Nat) : Bool := s.rb (qreg q 0x064) n
def setQflag (s : State) (q n : Nat) (b : Bool) : State := s.wb (qreg q 0x064) n b
def qdom (s : State) (q : Nat) : Nat := fld (s.qcfg q) 7 4
/-- CLOCK = POSITION. -/
def qpos (s : State) (q : Nat) : Bool := bit (s.qcfg q) 2
def vperiod (s : State) (q : Nat) : Nat := (s.rd (qreg q 0x044)).toNat * timeStep
def vinc (s : State) (q : Nat) : Int := (s.rf (qreg q 0x048) 23 0 : Int) * posUnit
/-- Every pin of the span. -/
def spanPins (s : State) (q : Nat) : List Nat := (s.spanGroups q).flatMap fun g => (List.range 64).map (64 * g + ·)

/-! ### Codes at the pin (R67 to R72) -/

/-- The code of pin `i` in the vector memory entry `a` of its group (R138). -/
def vecCode (s : State) (a i : Nat) : Nat :=
  fld (s.memWord (vecBase (i / 64) + 32 * a + 4 * (i % 64 / 8))) (4 * (i % 8) + 3) (4 * (i % 8))

/-- Edge `w` of the vector's timing set on a pin, `sign` the direction in which TRACE_COMP moves it (R65, R86). A
position-unit edge of a time-clocked vector counts as disabled. -/
def edgeAt (s : State) (v : Vec) (i w : Nat) (sign : Int) : Option When :=
  let e := s.tsWord i v.tset w
  let tc := sign * s.traceComp i
  if !bit e 31 then none
  else if bit e 30 then
    v.bpos.map fun b => .pos (s.grpDomain (i / 64)) (b + (fld e 27 0 : Int) * posUnit) tc
  else some (v.at ((fld e 27 0 * timeStep : Nat) + tc))

/-- A position-unit edge that a time-clocked vector does not use raises TS_UNIT (R65). -/
def edgeUnit (v : Vec) (i : Nat) (ws : List Nat) (s : State) : State :=
  forEach ws (fun w s =>
    let e := s.tsWord i v.tset w
    s.raiseIf (bit e 31 && bit e 30 && v.bpos.isNone) (pGrp (i / 64)) 3) s

/-- What a drive code with data `d` does at D1, D2 and D3 (Table 3.4). -/
def driveActs (fmt : Nat) (d : Bool) : List (Nat × EdgeAct) :=
  let d3 : List (Nat × EdgeAct) :=
    if fmt = 1 then [(2, .level false)] else if fmt = 2 then [(2, .level true)]
    else if fmt = 3 then [(2, .level (!d))] else []
  (0, if fmt = 3 then .onLevel (!d) else .on) :: (1, .level d) :: d3

/-- Edges join those that wait for their commit. -/
def addEdges (s : State) (i : Nat) (es : List Edge) : State :=
  s.setPin i { s.pin i with edges := (s.pin i).edges ++ es }

/-- The edges of a list of acts at the vector's D edges. (DEDUCED: assumption 34) -/
def edgesOf (s : State) (v : Vec) (i own : Nat) (acts : List (Nat × EdgeAct)) : List Edge :=
  acts.filterMap fun a => (s.edgeAt v i a.1 (-1)).map fun w => { due := w, act := a.2, own := own }

/-- The instant of C1, or the vector start where C1 is disabled (R70). -/
def c1At (s : State) (v : Vec) (i : Nat) : When := (s.edgeAt v i 3 1).getD (v.at (s.traceComp i))

/-- What stood open to the end of the previous vector ends at this one's start; the window of a Keep runs on to the
C1 of a compare code, which is compare `id` of the pin (R70). -/
def closeOpen (s : State) (v : Vec) (i code id : Nat) : State :=
  let x := s.pin i
  let start := v.at (s.traceComp i)
  let keepEnd := if isCompare code then s.c1At v i else start
  s.setPin i { x with
    judges := x.judges.map fun j =>
      if j.toEnd && j.close.isNone then
        { j with close := some (if j.keep then keepEnd else start)
                 closeOf := if j.keep && isCompare code then some id else none }
      else j
    wins := (x.wins.map fun w => if w.close.isNone then { w with close := some start } else w).filter
      fun w => match w.close with | some c => (s.resolve c 0).isNone | none => true }

/-- Serial bits of a vector with code 0xB (R72), the receive burst being number `id` of the pin: its samples follow its C1,
which is committed like any edge. -/
def serialBits (s : State) (v : Vec) (i own id : Nat) : State :=
  let cfg := s.cfgNow i
  let n := fld (s.tsWord i v.tset 6) 15 8
  let per := if bit cfg 10 then 640 else 1280
  if bit cfg 11 then
    let y := (s.edgeUnit v i [3]).addEdges i [{ due := s.c1At v i, act := .burst id, own := own }]
    y.setPin i { y.pin i with rxPend := (y.pin i).rxPend ++ [.wait id n per own] }
  else
    let base := (s.edgeAt v i 1 (-1)).getD (v.at (-(s.traceComp i)))
    (s.edgeUnit v i [1]).addEdges i ((List.range n).map fun k => { due := base.plus (k * per), act := .bit, own := own })

/-- One pin of the span accepts its code of the vector; whether it is judged (Table 3.3, R91, R144). -/
def acceptPin (s : State) (q : Nat) (v : Vec) (i raw : Nat) : Bool × State :=
  let own := 0x10 + q
  let code := if s.rf (cfgReg i) 9 8 = 1 then 7 else raw
  let owned : Bool := s.owner i = own
  let id := (s.pin i).ids + 1
  let s00 := s.closeOpen v i code id
  let s0 := s00.setPin i { s00.pin i with ids := id }
  let x := s0.pin i
  let kept := if code = 9 then x.code else code
  let cfg := s.tsWord i v.tset 6
  -- a receive burst that ends here
  let s1 := if x.code = 11 && code != 11 && bit (s.cfgNow i) 11 then
      s0.setPin i { x with rxPend := x.rxPend ++ [.flush] } else s0
  let s2 := s1.setPin i { s1.pin i with code := kept }
  let drive : Bool := code = 0 || code = 1 || code = 8
  let s3 :=
    if !owned then s2
    else if drive then
      let d : Bool := if code = 8 then x.lastData else code = 1
      let acts := driveActs (fld cfg 2 0) d
      let y := (s2.edgeUnit v i (acts.map (·.1))).addEdges i (s2.edgesOf v i own acts)
      y.setPin i { y.pin i with lastData := d }
    else if code = 7 || code = 9 then s2
    else if code = 11 then
      let a : EdgeAct := if bit (s.cfgNow i) 11 then .off else .on
      ((s2.edgeUnit v i [0]).addEdges i (s2.edgesOf v i own [(0, a)])).serialBits v i own id
    else (s2.edgeUnit v i [0]).addEdges i (s2.edgesOf v i own [(0, .off)])
  if isCompare code then
    let win : Bool := fld cfg 5 4 = 1
    let c2 := s.edgeAt v i 4 1
    let j : Judge := { id := id, code := code, seq := q, vec := v.vid, open_ := s.c1At v i, window := win
                       close := if win then c2 else none, toEnd := win && c2.isNone }
    let two : Bool := win || fld (s.cfgNow i) 18 16 = 2
    let y := s3.edgeUnit v i (if two then [3, 4] else [3])
    let es := { due := j.open_, act := .strobe id false, own := own } ::
      (if two then c2.toList else []).map fun c => { due := c, act := .strobe id true, own := own }
    let z := y.addEdges i es
    (true, z.setPin i { z.pin i with
      judges := (z.pin i).judges ++ [j], wins := (z.pin i).wins ++ [{ id := id, open_ := j.open_, close := c2 }] })
  else if code = 9 && isCompare kept then
    let j : Judge := { id := id, code := kept, seq := q, vec := v.vid, open_ := v.at (s.traceComp i), window := true
                       toEnd := true, keep := true }
    (true, s3.setPin i { s3.pin i with
      judges := (s3.pin i).judges ++ [j], wins := (s3.pin i).wins ++ [{ id := id, open_ := j.open_ }] })
  else if code = 10 then
    let j : Judge := { id := id, code := 10, seq := q, vec := v.vid, open_ := s.c1At v i }
    let y := (s3.edgeUnit v i [3]).addEdges i [{ due := j.open_, act := .strobe id false, own := own }]
    (false, y.setPin i { y.pin i with judges := (y.pin i).judges ++ [j] })
  else (false, s3)

/-- The pins of a list accept their codes; how many are judged. -/
def acceptPins (s : State) (q : Nat) (v : Vec) (codes : Nat → Nat) : List Nat → Nat × State
  | [] => (0, s)
  | i :: r =>
    let a := s.acceptPin q v i (codes i)
    let b := a.2.acceptPins q v codes r
    (b2n a.1 + b.1, b.2)

/-! ### Results (R145 to R149) -/

/-- Fail bits of span group `j` of a result. -/
def failBits (q : Nat) (r : VRes) (j : Nat) : Nat :=
  ((r.fails.filter (· / 64 = q + j)).map fun i => 2 ^ (i % 64)).sum

/-- A fail record goes to the ring of the leader's result memory (R148). Its SEQ counts from 0, over enables and GOs.
(DESIGN CHOICE: assumption 197) -/
def failRecord (s : State) (q : Nat) (r : VRes) : State :=
  if !bit (s.qcfg q) 15 then s
  else
    let size := s.rf (qreg q 0x084) 7 0 * 1024
    let wr := s.rf (qreg q 0x088) 16 0
    let rd := s.rf (qreg q 0x08C) 16 0
    let next := if size ≤ wr + 64 then 0 else wr + 64
    if size = 0 then s
    else if next = rd && !bit (s.qcfg q) 16 then s.raise (pSeq q) 5
    else
      let s0 := if next = rd then s.wr (qreg q 0x08C) (word (if size ≤ rd + 64 then 0 else rd + 64)) else s
      let x := s0.sq q
      let dt := (r.start - s.resetEnd) / timeStep
      let fails := (List.range 4).flatMap fun j => [word (failBits q r j), word (failBits q r j / 2 ^ 32)]
      let ws := [word (4 * 2 ^ 28 + x.flogSeq), word r.num, word (r.tset * 65536 + r.vaddr), word r.caddr,
                 word r.pos, word (r.pos / 2 ^ 32), word dt, word (dt / 2 ^ 32)] ++ fails
      ((s0.setSq q { x with flogSeq := (x.flogSeq + 1) % 65536 }).resPut q (s.rf (qreg q 0x080) 16 6 * 64 + wr) ws).wr
        (qreg q 0x088) (word next)

/-- What stood open to the end of the last vector of a run ends one period, or one boundary, after it, moved by TRACE_COMP
(R70, R86). -/
def endVectors (s : State) (q : Nat) : State :=
  let x := s.sq q
  match x.lastS with
  | none => s
  | some l =>
    let end_ (tc : Int) : When := if s.qpos q then
        (match x.b0 with
         | some b => .pos (s.qdom q) (b + (x.k : Int) * s.vinc q) tc
         | none => .time ((l + s.vperiod q : Nat) + tc).toNat)
      else .time ((l + s.vperiod q : Nat) + tc).toNat
    forEach (s.spanPins q) (fun i s =>
      let y := s.pin i
      let e := end_ (s.traceComp i)
      if y.judges.any (fun j => j.toEnd && j.close.isNone) || y.wins.any (·.close.isNone) then
        s.setPin i { y with
          judges := y.judges.map fun j => if j.toEnd && j.close.isNone then { j with close := some e } else j
          wins := y.wins.map fun w => if w.close.isNone then { w with close := some e } else w }
      else s) s

/-- No further vector issues. -/
def stopIssue (s : State) (q : Nat) : State :=
  let s1 := s.endVectors q
  s1.setSq q { s1.sq q with issuing := false }

/-- A fault stops the instruction unit at the instruction PC names; vectors already enqueued still issue (R136). -/
def faultAt (s : State) (q code : Nat) : State :=
  let x := s.sq q
  let run := setFld (setFld (setFld (s.rd (qreg q 0x05C)) 15 12 code) 11 8 5) 2 0 5
  let s1 := (((s.setSq q { x with busy := .idle, step := false, spanFault := false }).wr
    (qreg q 0x05C) run).raise (pSeq q) 1).logRelease q
  if x.fifo.isEmpty then s1.stopIssue q else s1

/-- The sequencer halts with a cause (Table 5.12). -/
def haltAt (s : State) (q cause : Nat) : State :=
  let x := s.sq q
  let run := setFld (setFld (s.rd (qreg q 0x05C)) 11 8 cause) 2 0 4
  (((s.setSq q { x with busy := .idle, step := false, armed := none }).wr (qreg q 0x05C) run).raise (pSeq q) 0).logRelease q

/-- The instruction at PC retires, and `next` is executed next. -/
def retire (s : State) (q next : Nat) : State :=
  let x := s.sq q
  let s1 := (s.setSq q { x with busy := .idle, retired := s.pcOf q, retiredAt := some s.now, miss := none }).setPc q
    (next % 2 ^ 20)
  if x.spanFault then s1.faultAt q 6
  else if x.step then (if x.fifo.isEmpty then (s1.haltAt q 3).stopIssue q else s1.haltAt q 3)
  else if s1.runOf q = 3 then s1.setRun q 2 else s1

/-- The instruction at PC retires and the next in sequence follows. -/
def retireNext (s : State) (q : Nat) : State := s.retire q (s.pcOf q + 1)

/-- The grid that a RESYNC has set comes into force once no command of the old grid is left (R151). -/
def regridSync (s : State) (q : Nat) : State :=
  let x := s.sq q
  match x.regrid with
  | some t => if x.regLeft = 0 then s.setSq q { x with t0 := t, k := 0, regrid := none } else s
  | none => s

/-- The head of the command FIFO leaves it. -/
def popCmd (s : State) (q : Nat) : State :=
  let x := s.sq q
  let s1 := (s.setSq q { x with fifo := x.fifo.tail, regLeft := x.regLeft - 1 }).regridSync q
  let y := s1.sq q
  if y.fifo.isEmpty then
    if s1.runOf q = 4 || s1.runOf q = 5 then s1.stopIssue q
    else if y.busy = .vectors then s1.retireNext q
    else s1
  else s1

/-- A MATCH loop ends (R149). -/
def matchEnd (s : State) (q : Nat) (pass : Bool) (copy issued : Nat) : State :=
  let x := s.sq q
  let s1 := (s.setQflag q 10 pass).setQflag q 11 (!pass)
  let s2 := s1.wr (qreg q 0x074) (word ((if pass then issued - copy else 0) * 2 ^ 20 + copy % 2 ^ 20))
  let s3 := (s2.raiseIf (!pass) (pSeq q) 10).setSq q { x with
    fifo := x.fifo.tail, regLeft := x.regLeft - 1, mats := x.mats + 1, busy := .idle }
  (s3.regridSync q).retireNext q

/-- A complete result takes effect. -/
def applyResult (s : State) (q : Nat) (r : VRes) : State :=
  let x := s.sq q
  if r.epoch != x.epoch then s
  else match r.copy with
    | some n =>
      (match x.busy with
       | .matching a lim issued judged =>
         if r.mat != x.mats then s
         else if r.fails.isEmpty then s.matchEnd q true n issued
         else if lim ≤ n then s.matchEnd q false n issued
         else s.setSq q { x with busy := .matching a lim issued (judged + 1) }
       | _ => s)
    | none =>
      let s1 := if r.fails.isEmpty then s else (s.setQflag q 8 true).failRecord q r
      let bytes := (List.range (fld (s.qcfg q) 1 0 + 1)).flatMap fun j => natBytes 8 (failBits q r j)
      s1.wr (qreg q 0x070) (word (bytes.foldl crcByte (s1.rd (qreg q 0x070)).toNat))

/-- The first complete result with no open one of its kind before it: the copies of a MATCH are a kind of their own, since
neither FAIL nor SIGACC sees them (R147, R149). -/
def nextResult : List VRes → Bool → Bool → Option VRes
  | [], _, _ => none
  | r :: rest, open_, openCopy =>
    let held := if r.copy.isSome then openCopy else open_
    if r.left = 0 && !held then some r
    else nextResult rest (open_ || r.copy.isNone) (openCopy || r.copy.isSome)

/-- Complete results take effect in issue order (R147). -/
def takeResults (q : Nat) : Nat → State → State
  | 0, s => s
  | n + 1, s =>
    match nextResult (s.sq q).res false false with
    | none => s
    | some r => takeResults q n ((s.setSq q { s.sq q with res := (s.sq q).res.erase r }).applyResult q r)

/-- A judged pin delivers its bit to its sequencer. -/
def deliver (s : State) (q vid i : Nat) (fail : Bool) : State :=
  let x := s.sq q
  let res := x.res.map fun r =>
    if r.id = vid then { r with left := r.left - 1, fails := if fail then r.fails ++ [i] else r.fails } else r
  takeResults q res.length (s.setSq q { x with res := res })

/-! ### Judgements at a pin (R70, R71, R74, R144) -/

/-- The input that sequencer `q` judges on pin `i` at instant `t`: the comparators while it owns the pin, else the
value frozen when it lost it, else 0 and 0. -/
def judgedAt (s : State) (q i t : Nat) : Bool × Bool := s.seenAt (0x10 + q) i t

/-- The comparators are undefined somewhere in instants `a` to `b` after a THRESH write (R75).
(DESIGN CHOICE: assumption 37) -/
def cmpUndef (s : State) (q i a b : Nat) : Bool :=
  let x := s.pin i
  let last := match x.seen.find? (·.1 = 0x10 + q) with
    | some (_, since, _) => if s.owner i = 0x10 + q then b + 1 else min (b + 1) since
    | none => if s.owner i = 0x10 + q then b + 1 else 0
  decide (a < last) && decide (a < x.undefTo) && decide (x.undefFrom < last) && decide (x.undefFrom < x.undefTo)

/-- The instants of a judgement: its strobe, or its window. -/
def judgeSpan (s : State) (j : Judge) : Option (Nat × Option Nat) :=
  match s.resolve j.open_ 0 with
  | none => none
  | some a =>
    if !j.window then some (a, none)
    else match j.close with
      | none => none
      | some c =>
        match s.resolve c 0 with
        | none => none
        | some b => some (a, if b ≤ a then none else some b)

/-- Fail bit of a judgement, or none where the manual leaves it open: undefined comparators, a violation shorter
than 200 ps, a pin whose trims software wrote (R85). (DESIGN CHOICE: assumption 38) -/
def judgeFail (s : State) (i : Nat) (j : Judge) (a : Nat) (b : Option Nat) : Option Bool :=
  let q := j.seq
  match b with
  | none => if s.cmpUndef q i a a || s.trimmed i then none else some (!codePass j.code (s.judgedAt q i a))
  | some b =>
    if s.cmpUndef q i a (b - 1) || s.trimmed i then none
    else
      let bad (v : Bool × Bool) : Bool := !codePass j.code v
      let run := longestRun bad (s.seenSpans (0x10 + q) i a b) 0 0
      if run = 0 then some false else if 205 ≤ run then some true else none

/-- The first judgement of a pin that has delivered by now. -/
def judgeDue (s : State) : List Judge → Option (Judge × Nat × Option Nat)
  | [] => none
  | j :: r =>
    match s.judgeSpan j with
    | some (a, b) => if b.getD a + ns 10 ≤ s.now then some (j, a, b) else s.judgeDue r
    | none => s.judgeDue r

/-- PIN_RESULT: the pin's oldest judgement that is due delivers its bit, or a level is captured (R71, R76).
(DEDUCED: assumption 41) -/
def pinResult (s : State) (i : Nat) : State :=
  let x := s.pin i
  let g := i / 64
  match s.judgeDue x.judges with
  | none => s
  | some (j, a, b) =>
    let s0 := s.setPin i { x with judges := x.judges.erase j }
    let mode := fld (s.cfgNow i) 18 16
    if j.code = 10 then
      let v := histAt x.hist a
      if mode = 1 && s.rf (cfgReg i) 9 8 = 0 then s0.snareRec i 1 v.1 v.2 a (s.cmpUndef j.seq i a a) else s0
    else
      let r := s.judgeFail i j a b
      let fail := r.getD s.freeBool
      let s1 := if r.isNone then s0.drew else s0
      let s2 := if fail then
          let y := (s1.wb (greg g (0x068 + 4 * (i % 64 / 32))) (i % 32) true).raise (pGrp g) 4
          if mode = 4 && s.rf (cfgReg i) 9 8 = 0 then
            y.snareRec i 3 false false (b.getD a) (s.cmpUndef j.seq i a (b.getD a))
          else y
        else s1
      s2.deliver j.seq j.vec i fail

/-! ### Issue (R141 to R143) -/

/-- Boundary 0: the first crossing of the VSTART of the last GO beyond the position found there, or homed to (R33, R142). -/
def firstBoundary (s : State) (q : Nat) : Int :=
  let d := s.qdom q
  let mf := s.modFine d
  let p : Int := ((s.sq q).vstart : Int)
  let pv := p * posUnit % mf
  let base := max (s.sq q).bref (s.dom d).refBase
  pv + mf * ((base - pv) / mf + 1)

/-- Nominal start of the next vector, whether it is known to be LATE, and its boundary; none before its issue point. A
time-clocked vector's entry is read as it stands when the sequencer cycle of that point is over (R139).
(DESIGN CHOICE: assumption 196) -/
def issuePoint (s : State) (q : Nat) : Option (Nat × Bool × Option Int) :=
  let x := s.sq q
  if s.qpos q then
    let d := s.qdom q
    let b0 := if x.k = 0 then s.firstBoundary q else x.b0.getD (s.firstBoundary q)
    let b := b0 + (x.k : Int) * s.vinc q
    let ahead := match (s.dom d).evTraj.lim with | none => ns 20 | some l => l - s.now
    if !s.homedOk d || s.domStopped d then none
    else match s.resolve (.pos d b 0) ahead with
      | none => none
      | some r => some (if r < s.now + ns 10 then s.now + ns 10 else s.roundStep r, decide (r < s.now + ns 10), some b)
  else
    let n := x.t0 + x.k * s.vperiod q
    let st := match x.lastS with | none => n | some l => max n (l + seqCycle)
    if nextAfter seqCycle (st - ns 20) ≤ s.now then some (n, false, none) else none

/-- What the issue unit issues next: a command's vector (with its copy number for a MATCH), an idle fill, or an idle
fill that raises no UNDERRUN. -/
def issuePick (s : State) (q : Nat) : Option VCmd × Option Nat :=
  let x := s.sq q
  match x.fifo with
  | [] => (none, none)
  | c :: _ =>
    if !c.mat then (some c, none)
    else match x.busy with
      | .matching _ lim issued judged =>
        if issued < lim && issued - judged < fld (s.qcfg q) 31 28 then (some c, some (issued + 1)) else (none, none)
      | _ => (none, none)

/-- The instruction unit waits in WAITP, WAITT, WAITE or HALT, or in a MATCH, so an idle fill raises no UNDERRUN. -/
def quietFill (x : Seq) : Bool :=
  match x.busy with
  | .halt | .waitT .. | .waitP .. | .waitE .. | .matching .. => true
  | _ => false

/-- After a vector of a command, the command moves on. -/
def cmdStep (s : State) (q : Nat) (c : VCmd) (copy : Option Nat) : State :=
  let x := s.sq q
  match copy with
  | some n =>
    (match x.busy with
     | .matching a lim _ judged => s.setSq q { x with
         busy := .matching a lim n judged, fifo := { c with capt := 0 } :: x.fifo.tail }
     | _ => s)
  | none =>
    if c.left ≤ 1 then s.popCmd q
    else
      let c' : VCmd := { c with left := c.left - 1, addr := if c.rep then c.addr else (c.addr + 1) % 16384, capt := 0 }
      s.setSq q { x with fifo := c' :: x.fifo.tail }

/-- Converters named by CAPT start at the start `at_` of their vector; MASK bits beyond the span name none (R158). One whose
page is not ON then does not start (R96). (DEDUCED: assumption 55) -/
def captFire (q mask at_ : Nat) (s : State) : State :=
  forEach ((bitList 8 mask).filter (· / 2 ≤ s.rf (qreg q 0x040) 1 0)) (fun n s =>
    let g := q + n / 2
    let u := s.captSync g (n % 2)
    let x := u.adc g (n % 2)
    u.setAdc g (n % 2) { x with capts := x.capts ++ [at_] }) s

/-- VECTOR_ISSUE: at an issue point the issue unit hands the next vector to the groups of the span (R143). -/
def vectorIssue (s : State) (q : Nat) : State :=
  let x := s.sq q
  let gs := s.spanGroups q
  let drained : Bool := x.fifo.isEmpty && (x.busy = .halt || s.runOf q = 4 || s.runOf q = 5)
  if !s.isOn (pSeq q) || !x.issuing || drained || gs.any (fun g => (s.grp g).stalled) then s
  else match s.issuePoint q with
    | none => s
    | some (n, lateB, b) =>
      let pick := s.issuePick q
      let st := match x.lastS with | none => n | some l => max n (l + seqCycle)
      let late : Bool := lateB || decide (n < st)
      let num := ((s.rd (qreg q 0x068)).toNat + 1) % 2 ^ 32
      let live := gs.filter fun g => !s.inSelftest (pGrp g)
      let tset := match pick.1 with | some c => c.tset | none => x.tset
      let code (i : Nat) : Nat := match pick.1 with | some c => s.vecCode c.addr i | none => 7
      let v : Vec := { start := st, bpos := b, exact := !late, dom := s.qdom q, tset := tset, vid := x.vid }
      let codes := gs.flatMap fun g => (List.range 8).map fun w =>
        match pick.1 with | some c => s.memWord (vecBase g + 32 * c.addr + 4 * w) | none => word 0x77777777
      let s1 := (s.wr (qreg q 0x068) (word num)).setSq q { x with
        lastS := some st, lastNum := some num, lastCodes := codes, vid := x.vid + 1, k := x.k + 1
        b0 := b.map (· - (x.k : Int) * s.vinc q), spanFault := x.spanFault || live.length < gs.length }
      let a := s1.acceptPins q v code (live.flatMap fun g => (List.range 64).map (64 * g + ·))
      let s2 := if late then (a.2.setQflag q 9 true).raise (pSeq q) 4 |>.raiseIf lateB (pDom (s.qdom q)) 4 else a.2
      let s3 := match pick.1 with
        | none => s2.raiseIf (!quietFill x) (pSeq q) 3
        | some c =>
          let pos := match b with | some b => (b / posUnit % s.mod4096 (s.qdom q)).toNat | none => 0
          let r : VRes := { id := x.vid, num := num, epoch := x.epoch, caddr := c.caddr, tset := c.tset, vaddr := c.addr
                            start := st, pos := pos, left := a.1, copy := pick.2, mat := x.mats }
          let y := if 0 < a.1 || pick.2.isSome then s2.setSq q { s2.sq q with res := (s2.sq q).res ++ [r] } else s2
          takeResults q ((y.sq q).res.length) ((captFire q c.capt st y).cmdStep q c pick.2)
      if (s3.sq q).spanFault && (s3.sq q).busy = .idle && s3.runOf q = 2 then s3.faultAt q 6 else s3

/-- A boundary already issued whose crossing a new segment moves into the past fires LATE, and its vector with it
(R143), which the domain's LATE shows too (R45): `old` is the state before the segment. -/
def boundaryLate (old : State) (d : Nat) (s : State) : State :=
  forEach (List.range 48) (fun q s =>
    let x := s.sq q
    match x.b0 with
    | none => s
    | some b =>
      if x.k = 0 || !s.qpos q || s.qdom q != d || !s.isOn (pSeq q) then s
      else
        let w : When := .pos d (b + ((x.k : Int) - 1) * s.vinc q) 0
        if (old.resolve w (ns 10)).isNone && (s.resolve w (ns 10 - 1)).isSome then
          ((s.setQflag q 9 true).raise (pSeq q) 4).raise (pDom d) 4
        else s) s

end State

/-! ### The commands -/

/-- PIN_RESULT (R71). -/
def execPinResult (t i : Nat) : State → Host.Outcome State Fault Refusal := run t (·.pinResult i)

end Sys2Proof.Machine
end

