-- ==== Sys2Proof/Machine/SeqRun.lean ====
section
/-! DEFINITION. Machine/SeqRun.lean: enable and run control of a Roll sequencer (R128 to R132, R163 to R168). -/
namespace Sys2Proof.Machine
namespace State

/-! ### Firings that a GO or WAITP waits for (R446) -/

/-- The first firing of a mark after instant `t` that is committed or has happened: its instant and LATE. -/
def firingAfter (s : State) (d m t : Nat) : Option (Nat × Bool) :=
  match (tabGet [] (s.dom d).fired m).find? (fun e => t < e.1) with
  | some e => some e
  | none => ((s.dom d).committed.find? fun f => f.mark = m && t < f.due).map fun f => (f.due, f.late)

/-- A GO by mark starts the sequencer once the firing is committed (R141, R142, R163). -/
def goSync (s : State) (q : Nat) : State :=
  let x := s.sq q
  match x.armed with
  | none => s
  | some (d, m, t) =>
    match s.firingAfter d m t with
    | none => s
    | some (due, _) =>
      let c := s.qdom q
      let x' : Seq := { x with armed := none, issuing := true, t0 := due + ns 20
                               bref := max (s.dom c).frontier (s.totalAt c due - 1) }
      (s.setSq q x').setRun q 2

/-! ### GO, STOP and STEP (R163) -/

/-- An accepted GO: R132 applies, PC is START_ADDR, and the vectors of the run start anew; results of vectors issued before it
concern nobody but their pins (R145). -/
def goAccept (s : State) (q : Nat) (v : Word) : State :=
  let x := s.sq q
  let d := s.qdom q
  let mark := bit v 28
  let s1 := (((s.wr (qreg q 0x180) 0).wr (qreg q 0x068) 0).wr (qreg q 0x070) 0xFFFFFFFF).wf (qreg q 0x064) 12 8 0
  let st := setFld (setFld (setFld (s1.rd (qreg q 0x05C)) 15 12 0) 11 8 0) 2 0 (if mark then 1 else 2)
  let s2 := (s1.wr (qreg q 0x05C) st).setPc q (s.rf (qreg q 0x054) 19 0)
  goSync (s2.setSq q { x with
    vstart := s.posPair (qreg q 0x04C) (qreg q 0x050), res := [], torn := []
    fifo := [], tset := 0, t0 := s.now + ns 40, k := 0, lastS := none, regrid := none, regLeft := 0, b0 := none
    bref := max (s.frontierNow d) (s.totalAt d s.now), issuing := !mark, epoch := x.epoch + 1, busy := .idle
    step := false, armed := if mark then some (fld v 27 24, fld v 21 16, s.now) else none, spanFault := false
    lastNum := none, lastCodes := [], logRefused := false }) q

/-- STOP, a Gong and a disable: whatever is under way is abandoned, the FIFO is emptied, and the sequencer halts. A RESYNC that
old vectors still held up has set the grid (R163). -/
def stopRun (s : State) (q cause : Nat) : State :=
  let x := s.sq q
  let s1 := match x.busy with
    | .log _ => (match x.logQueued, x.logClaim with
        | true, some c => s.unclaim c
        | _, _ => s)
    | _ => s
  let y := { s1.sq q with
    fifo := [], t0 := x.regrid.getD x.t0, k := if x.regrid.isSome then 0 else x.k, regrid := none, regLeft := 0
    mats := x.mats + 1, spanFault := false
    logClaim := if x.logQueued then none else x.logClaim, logQueued := false }
  ((s1.setSq q y).stopIssue q).haltAt q cause

/-- A write of RUN_CTRL. (DEDUCED: assumption 53) -/
def runCtrl (q : Nat) (v : Word) (s0 : State) : State :=
  let s := s0.goSync q
  let n := b2n (bit v 31) + b2n (bit v 30) + b2n (bit v 29)
  if n = 0 then s
  else if 2 ≤ n then s.refuseAns (pSeq q) .range
  else if bit v 30 then (if s.running q then s.stopRun q 2 else s)
  else if !s.isOn (pSeq q) || s.gong then s.refuseAns (pSeq q) .dependency
  else if bit v 31 then (if s.running q then s.refuseAns (pSeq q) .conflict else s.goAccept q v)
  else if s.runOf q = 4 || s.runOf q = 5 then
    (s.setSq q { s.sq q with step := true, stepAt := s.now }).setRun q 2
  else s.refuseAns (pSeq q) .conflict

/-- A Gong stops every sequencer (R164): RUN reads HALTED with CAUSE GONG where it was active. -/
def gongStop (s : State) : State :=
  forEach (List.range 48) (fun q s0 =>
    let s := s0.goSync q
    if s.running q then s.stopRun q 4 else s) s

/-! ### Host registers (R132, R150, Table 5.13) -/

/-- A write of DOORBELL. -/
def doorbell (q : Nat) (v : Word) (s : State) : State := if bit v 0 then s.wb (qreg q 0x05C) 16 true else s

/-- The F bits as the fabric and the host have set them in the present sequencer cycle: the bits that the fabric set, and whether
the host wrote them (R132). -/
def flagsNow (s : State) (q : Nat) : Nat × Bool :=
  match (s.sq q).flagCyc with
  | some (c, m, h) => if c = s.now / seqCycle then (m, h) else (0, false)
  | none => (0, false)

/-- What has set F bits in the present cycle. -/
def flagsNote (s : State) (q m : Nat) (host : Bool) : State :=
  s.setSq q { s.sq q with flagCyc := some (s.now / seqCycle, m, host) }

/-- A write of FLAGS sets the F bits, and prevails in its cycle. -/
def flagsWrite (q : Nat) (v : Word) (s : State) : State :=
  (s.wf (qreg q 0x064) 3 0 (fld v 3 0)).flagsNote q 0 true

/-- A set of F bits by the fabric: sets of one cycle combine by OR (R177), and give way to a host write of it. -/
def flagsFabric (q m : Nat) (s : State) : State :=
  let n := s.flagsNow q
  if n.2 then s
  else (s.wf (qreg q 0x064) 3 0 (Nat.lor (s.rf (qreg q 0x064) 3 0) (m % 16))).flagsNote q (Nat.lor n.1 (m % 16)) false

/-- A write of FLOG_RD. -/
def flogRd (q : Nat) (v : Word) (s : State) : State :=
  let n := fld v 16 0
  if n % 64 != 0 || s.rf (qreg q 0x084) 7 0 * 1024 ≤ n then s.refuseAns (pSeq q) .range
  else s.wr (qreg q 0x08C) (word n)

/-- A write of G, LC or LS takes effect only while RUN is IDLE, HALTED or FAULT. -/
def gprWrite (q off : Nat) (mask v : Word) (s0 : State) : State :=
  let s := s0.goSync q
  if s.running q then s else s.wr (qreg q off) (v &&& mask)

/-! ### Enable and disable (R128 to R130, R161, R165) -/

/-- A group lies in the span of sequencer `p`. -/
def inSpan (s : State) (p g : Nat) : Bool := (s.spanGroups p).contains g

/-- The checks of a SEQ enable, in the order of Table 16.5. -/
def seqCheck (s : State) (q : Nat) : Option Reason :=
  let c := s.qcfg q
  let gs := s.spanGroups q
  let kib := s.rf (qreg q 0x084) 7 0
  let area := s.rd (qreg q 0x090)
  let cnt := if fld area 31 22 = 0 then 1024 else fld area 31 22
  if 48 < q + gs.length || (!bit c 2 && (s.rd (qreg q 0x044)).toNat < 128) || (bit c 2 && s.rf (qreg q 0x048) 23 0 = 0)
      || fld c 31 28 = 0
      || (bit c 15 && (kib = 0 || 128 < kib || 131072 < s.rf (qreg q 0x080) 16 6 * 64 + kib * 1024))
      || 1024 < fld area 21 12 + cnt then some .range
  else if bit c 2 && gs.any (fun g => s.grpDomain g != s.qdom q) then some .inconsistent
  else if gs.any (fun g => !s.isOn (pGrp g)) || (bit c 2 && !s.isOn (pDom (s.qdom q)))
      || (bit c 11 && !s.isOn (pRecord (fld c 14 12))) then some .dependency
  else if (List.range 48).any (fun p => p != q && s.isOn (pSeq p) && (gs.contains p || (s.spanGroups p).any gs.contains))
    then some .conflict
  else none

/-- The enable sets LOG_PTR to the start of the area, and FULL falls. (DESIGN CHOICE: assumption 198) -/
def seqStart (s : State) (q : Nat) : State :=
  ((s.wr (qreg q 0x094) (word (s.rf (qreg q 0x090) 21 12 * 65536))).wb (qreg q 0x098) 19 false).setSq q
    { s.sq q with logRec := 0, logEnd := false }

/-- A disable (R165): as STOP where it is active; the pins it owns stay owned and it drives them no more. -/
def seqStop (s0 : State) (q : Nat) : State :=
  let s := s0.goSync q
  let s1 := if s.running q then s.stopRun q 2 else s.stopIssue q
  undrive ((s1.pins.map (·.1)).filter fun i => s1.owner i = 0x10 + q) s1

/-! ### Sampling (R168) -/

/-- SAMPLE_INTERRUPT: an interrupt of a counter preset has reached the sequencer. -/
def sampleInterrupt (s : State) (q : Nat) : State :=
  match s.ctr.samples.find? (fun e => e.2 = q && e.1 ≤ s.now) with
  | none => s
  | some e =>
    let x := s.sq q
    let same := x.retiredAt.any fun t => t / seqCycle = s.now / seqCycle
    let pc := if same then x.retired else s.pcOf q
    ((({ s with ctr := { s.ctr with samples := s.ctr.samples.erase e } }).wr (qreg q 0x09C) (word pc)).wr
      (qreg q 0x0A0) (s.rd (qreg q 0x068))).raise (pSeq q) 11

end State

/-! ### The commands -/

/-- VECTOR_ISSUE (R143). -/
def execVectorIssue (t q : Nat) : State → Host.Outcome State Fault Refusal :=
  run t (fun s => (s.goSync q).vectorIssue q)
/-- GO (R163). -/
def execGo (t : Nat) (a : Agent) (q : Nat) (v : Word) : State → Host.Outcome State Fault Refusal :=
  run t (gateW a (pSeq q) (State.runCtrl q v))
/-- STOP (R163). -/
def execStop (t : Nat) (a : Agent) (q : Nat) (v : Word) : State → Host.Outcome State Fault Refusal :=
  run t (gateW a (pSeq q) (State.runCtrl q v))
/-- STEP (R163). -/
def execStep (t : Nat) (a : Agent) (q : Nat) (v : Word) : State → Host.Outcome State Fault Refusal :=
  run t (gateW a (pSeq q) (State.runCtrl q v))
/-- DOORBELL (R150). -/
def execDoorbell (t : Nat) (a : Agent) (q : Nat) (v : Word) : State → Host.Outcome State Fault Refusal :=
  run t (gateW a (pSeq q) (State.doorbell q v))
/-- FLAGS_WRITE (R132). -/
def execFlagsWrite (t : Nat) (a : Agent) (q : Nat) (v : Word) : State → Host.Outcome State Fault Refusal :=
  run t (gateW a (pSeq q) (State.flagsWrite q v))
/-- FLOG_RD_WRITE (R148). -/
def execFlogRdWrite (t : Nat) (a : Agent) (q : Nat) (v : Word) : State → Host.Outcome State Fault Refusal :=
  run t (gateW a (pSeq q) (State.flogRd q v))
/-- SAMPLE_INTERRUPT (R168). -/
def execSampleInterrupt (t q : Nat) : State → Host.Outcome State Fault Refusal := run t (·.sampleInterrupt q)

end Sys2Proof.Machine
end

