-- ==== Sys2Proof/Machine/Fabric.lean ====
section
/-! DEFINITION. Machine/Fabric.lean: the regions' hardened ports, memory blocks and deep memories
(06_fabric_memories.md), the logic that a frame configures and the clocks that it runs on. What the logic of a region asks of
its ports arrives as commands. -/
namespace Sys2Proof.Machine

/-! ### What the fabric's resources compute (R171, R172) -/

/-- A number from its bits, bit 0 first. -/
def natOf (f : Nat → Bool) (n : Nat) : Nat := ((List.range n).map fun i => b2n (f i) * 2 ^ i).sum

/-- A LUT6 as one function of 6 inputs: the table bit that the inputs select (R171). -/
def lut6 (table : BitVec 64) (i : Nat → Bool) : Bool := table.getLsbD (natOf i 6)

/-- A LUT6 as two functions of the same 5 inputs: each has half of the table (R171). -/
def lut5 (table : BitVec 64) (second : Bool) (i : Nat → Bool) : Bool := table.getLsbD (natOf i 5 + 32 * b2n second)

/-- One accumulation of an arithmetic slice in mode `m` (`Config.sliceMode`): the product of two 27-bit operands, each signed or
unsigned, added to or subtracted from the 64-bit accumulator, with OVF (R172). -/
def sliceStep (m : BitVec 6) (a b : BitVec 27) (acc : BitVec 64) : BitVec 64 × Bool :=
  let v (k w x : Nat) : Int := if m.getLsbD k then signed w x else x
  let prod := v 0 27 a.toNat * v 1 27 b.toNat
  let sum := v 2 64 acc.toNat + (if m.getLsbD 4 then -prod else prod)
  let lo : Int := if m.getLsbD 2 then -(2 ^ 63 : Int) else 0
  let hi : Int := if m.getLsbD 2 then 2 ^ 63 - 1 else 2 ^ 64 - 1
  (BitVec.ofInt 64 (if m.getLsbD 3 then max lo (min hi sum) else sum), decide (sum < lo) || decide (hi < sum))

namespace State

/-! ### Clocks (R173, Table 8.2) -/

/-- PLL word `p` and the byte of global network `n` of a clock section. -/
def pllWord (c : List Word) (p : Nat) : Word := c.getD p 0
def gclkByte (c : List Word) (n : Nat) : Nat := fld (c.getD (8 + n / 4) 0) (8 * (n % 4) + 7) (8 * (n % 4))

/-- The divisor of a DIV code; 0: output off (Table 8.2). -/
def divisor (d : Nat) : Nat := if d ≤ 40 then d else 40 + 8 * (d - 40)

/-- The DIV code of PLL output 4p + o. -/
def divOf (c : List Word) (i : Nat) : Nat := fld (pllWord c (i / 4)) (6 * (i % 4) + 5) (6 * (i % 4))

/-- The period of global network `n` in units of time; none while its source does not run.
(DESIGN CHOICE: assumption 16) -/
def gclkPeriod (s : State) (n : Nat) : Option Nat :=
  let b := gclkByte s.store.clocks n
  let i := bits b 4 0
  match bits b 7 6 with
  | 0 =>
    let w := pllWord s.store.clocks (i / 4)
    let d := divisor (divOf s.store.clocks i)
    if bit w 31 && d != 0 then some (d * 10240 / max 1 (fld w 30 24)) else none
  | 1 => some seqCycle
  | 2 => some pageCycle
  | _ => some (Config.laneClock i)

/-- GCLK_RUN, one register shown on every REGION page. -/
def gclkReg : Nat := reg (pReg 0) 0x068
def gclkRuns (s : State) (n : Nat) : Bool := s.rb gclkReg n

def rreg (r off : Nat) : Nat := reg (pReg r) off

/-- The networks whose source is the receive clock of lane `k` run, or stop, with the lane's lock (R173). -/
def laneClocks (k : Nat) (up : Bool) (s : State) : State :=
  let of (n : Nat) : Bool := bits (gclkByte s.store.clocks n) 7 6 = 3 && bits (gclkByte s.store.clocks n) 4 0 = k
  forEach ((List.range 32).filter of) (fun n s => s.wb gclkReg n up) s

/-- PORT_CLK.GCLK, and the period T of a port cycle (R174), never below 2 ns (R173). -/
def portClk (s : State) (r : Nat) : Nat := s.rf (rreg r 0x04C) 4 0
def portT (s : State) (r : Nat) : Nat := max (ns 2) ((s.gclkPeriod (s.portClk r)).getD 0)

/-! ### The sub-ports of the user lanes (R314) -/

def lreg (k off : Nat) : Nat := reg (pUlane k) off
def lane (s : State) (k : Nat) : Lane := tabGet {} s.lanes k
def setLane (s : State) (k : Nat) (x : Lane) : State := { s with lanes := tabPut s.lanes k x }
def laneRegion (s : State) (k : Nat) : Nat := s.rf (lreg k 0x040) 30 24
def laneEth (s : State) (k : Nat) : Bool := s.rb (lreg k 0x040) 31

/-- The user lanes that region `r` serves. -/
def regionLanes (s : State) (r : Nat) : List Nat :=
  (List.range 16).filter fun k => s.isOn (pUlane k) && !s.laneEth k && s.laneRegion k = r

/-- The received words of a lane that its port has not presented yet. -/
def laneHeld (s : State) (k : Nat) : List (Nat × BitVec 72) := (s.lane k).rx.filter fun e => e.1 = 0 || decide (s.now < e.1)

/-- Received words are given the next free port cycles, one each, in which lane `k` presents them to region `r`. -/
def lanePresent (r k : Nat) : List (BitVec 72) → State → State
  | [], s => s
  | w :: ws, s =>
    let x := s.lane k
    let due := nextAfter (s.portT r) (max s.now x.last)
    lanePresent r k ws ((s.setLane k { x with rx := x.rx ++ [(due, w)], last := due }).emit (.laneWord r k due w))

/-- The ports of region `r` park: its lanes present no more, and what they have not presented waits (R314). -/
def lanesPark (r : Nat) (s : State) : State :=
  forEach (s.regionLanes r) (fun k s => s.setLane k { s.lane k with rx := (s.laneHeld k).map fun e => (0, e.2) })
    { s with out := s.out.filter fun o =>
        match o with
        | .laneWord r' _ due _ => !(r' = r && decide (s.now < due))
        | _ => true }

/-- The ports of region `r` leave their park values: its lanes present the words that waited. -/
def lanesResume (r : Nat) (s : State) : State :=
  forEach (s.regionLanes r) (fun k s =>
    lanePresent r k ((s.laneHeld k).map (·.2)) (s.setLane k { s.lane k with rx := [] })) s

/-- What waited for region `r` while its ports parked goes out (R216, R278, R314). -/
def regionUp (s : State) (r : Nat) : State :=
  if s.regionParked r then s.regionDeliver r else lanesResume r (s.regionDeliver r)

/-! ### Requests and responses (R175 to R179) -/

/-- A port's response; each but OK and RANGE raises its REGION event (R176). -/
def portAns (s : State) (r : Nat) (a : Resp) : State :=
  let s1 := s.answer a
  match a with
  | .denied => s1.raise (pReg r) 0
  | .notOwned => s1.raise (pReg r) 1
  | .selftest => s1.raise (pReg r) 2
  | .refused => s1.raise (pReg r) 7
  | _ => s1

/-- HOLD_WINDOW in port cycles (R179). -/
def holdWindow (s : State) (r : Nat) : Nat := s.rf (reg (pReg r) oCtrl) 15 8 * 256 + s.rf (rreg r 0x050) 7 0

/-- The port has taken a request in the present port cycle (R175). Port-clock edges lie at multiples of T.
(DESIGN CHOICE: assumption 182) -/
def portBusy (s : State) (r port : Nat) : Bool :=
  (s.region r).took.any fun e => e.1 = port && decide (s.now < nextAfter (s.portT r) e.2)

/-- A port that took the request has used its port cycle. -/
def portTook (r port : Nat) (s : State) : State :=
  if s.resp = .retry then s
  else s.setRegion r { s.region r with took := tabPut (s.region r).took port s.now }

/-- A request `q` of region `r` at a port, to page `p`: not taken while the ports park (R178) or in a port cycle that has taken one
(R175); answered SELFTEST or held while the target is under self-test (R179), one request of a port for each target; else served by
`f`. Ports: 0 pin, 1 PDU, 2 sequencer, 3 register, 4 store, 5 deep memory, 6 protocol, 7 streams, 8 + k user lane k.
(DEDUCED: assumption 73) -/
def portReq (r port p : Nat) (q : PortReq) (f : State → State) (s : State) : State :=
  if s.regionParked r then s
  else if s.portBusy r port then s.answer .retry
  else if s.inSelftest p then
    let w := s.holdWindow r * s.portT r
    if s.rb (reg (pReg r) oCtrl) 3 && w != 0 then
      (if (s.region r).holds.any fun h => h.page = p && h.port = port then s
       else s.setRegion r { s.region r with
         holds := (s.region r).holds ++ [{ port := port, page := p, until_ := s.now + w, req := q }] }).answer .retry
    else (s.portAns r .selftest).portTook r port
  else (f (s.answer .ok)).portTook r port

/-- HOLD_WINDOW_EXPIRY: the requests whose window is over receive SELFTEST (R179). -/
def holdExpiry (s : State) (r : Nat) : State :=
  let past (h : Hold) : Bool := decide (h.until_ ≤ s.now) && s.inSelftest h.page
  let s1 := s.setRegion r { s.region r with holds := (s.region r).holds.filter fun h => !past h }
  forEach ((s.region r).holds.filter past) (fun _ s => s.portAns r .selftest) s1

/-- A word to the logic of region `r`. -/
def toRegion (s : State) (r w : Nat) : State := s.emit (.toRegion r w)

/-! ### Pin port (R180 to R183) -/

/-- The FABRIC-owned pins that region `r` serves and that hold a record. -/
def fabricPins (s : State) (r : Nat) : List Nat :=
  (s.pins.map (·.1)).filter fun i => pinRegion i = r && s.owner i = 1

/-- A drive request taken at a port-clock edge (R181): NOT_OWNED, refused entry while the queue is full (R62), or to be committed
2T later, for the first pin-cycle boundary from then on plus the X1 offset. -/
def pinDrive (s : State) (r i : Nat) (oe lvl : Bool) : State :=
  let g := i / 64
  if s.owner i != 1 then s.portAns r .notOwned
  else if 16 ≤ (s.pin i).queue.length then s.answer .retry
  else
    let x1 := s.tsWord i (fld (s.cfgNow i) 4 0) 5
    let s0 := s.raiseIf (bit x1 31 && bit x1 30) (pGrp g) 3
    let off := if bit x1 31 && !bit x1 30 then fld x1 27 0 * timeStep else 0
    let c := s.now + 2 * s.portT r
    let e : Edge := { due := .time (atOrAfter pinCycle c + off), act := .both oe lvl, own := 1, at_ := some c }
    s0.setPin i { s0.pin i with edges := (s0.pin i).edges ++ [e] }

/-- A pop of region `r`. -/
def pinPop (s : State) (r i : Nat) : State := let x := s.rxPop i; x.2.toRegion r x.1

/-- What the pin port presents for a served pin (R182): 0 and 0 while the region's ports park.
(DESIGN CHOICE: assumption 199) -/
def portInput (s : State) (i : Nat) : Bool × Bool :=
  if s.regionParked (pinRegion i) then (false, false) else s.inputOf i 1

/-! ### PDU and sequencer ports (R184 to R186) -/

/-- A preset request of region `r`, which has the fabric's place among those of a pin cycle, in order of the regions (R184, R37,
R177). -/
def portPreset (s : State) (r d k : Nat) : State :=
  let bad : Bool := s.srcType d != 2 || !s.isOn (pDom d) || decide (maxRate < s.presetRate d k)
  let s1 := s.presetRequest d k (1 + r) none
  if bad then s1.portAns r .refused else s1

/-- An increment strobe of region `r`: one request of its PDU port, without a response (R175, R184). -/
def incStrobe (s : State) (r : Nat) (inc : Int) : State :=
  if s.regionParked r then s
  else if s.portBusy r 1 then s.answer .retry
  else portTook r 1 ((forEach (List.range 16) (fun d s => s.strobeCount d r inc) s).answer .ok)

/-- What position tap `k` samples: whole part, fraction and STOPPED of the domain it follows (R184). -/
def tapOut (s : State) (r k : Nat) : Option (Nat × Nat × Bool) :=
  let f := s.rf (rreg r 0x054) (5 * k + 4) (5 * k)
  if nbit f 4 && !s.regionParked r then
    let p := s.posAt (f % 16) s.now
    some (p / 4096, p % 4096, s.domStopped (f % 16))
  else none

/-- A port-clock edge at tap `k`: it samples, and presents the sample of two edges ago (R184). -/
def tapEdge (r k : Nat) (s : State) : State :=
  let x := s.region r
  match s.tapOut r k with
  | none => s.setRegion r { x with taps := tabDel x.taps k }
  | some v =>
    match tabGet [] x.taps k with
    | a :: b :: rest =>
      (s.setRegion r { x with taps := tabPut x.taps k ((b :: rest) ++ [v]) }).emit (.tap r k a.1 a.2.1 a.2.2)
    | l => s.setRegion r { x with taps := tabPut x.taps k (l ++ [v]) }

/-- A mark's firing starts on its way to the notices that follow the mark: two port cycles after the first port-clock edge from
then on (R185). (DESIGN CHOICE: assumption 182) -/
def noticeMark (d m : Nat) (late : Bool) (s : State) : State :=
  forEach (List.range 96) (fun r s =>
    forEach (List.range 16) (fun n s =>
      let w := s.rd (rreg r (0x080 + 4 * n))
      if bit w 31 && fld w 9 6 = d && fld w 5 0 = m && s.isOn (pReg r) then
        s.setRegion r { s.region r with notices := (s.region r).notices ++ [(atOrAfter (s.portT r) s.now + 2 * s.portT r, n, late)] }
      else s) s) s

/-- MARK_NOTICE: the oldest firing on its way to notice `n` pulses, unless the ports park (R185, Table 6.4). -/
def markNotice (s : State) (r n : Nat) : State :=
  match (s.region r).notices.find? fun e => e.2.1 = n && e.1 ≤ s.now with
  | some e =>
    let s1 := s.setRegion r { s.region r with notices := (s.region r).notices.erase e }
    if s.regionParked r then s1 else s1.emit (.notice r n e.2.2)
  | none => s

/-- A strobe at the sequencer port sets RUN_STAT.FAB_PEND (R186). -/
def portStrobe (q : Nat) (s : State) : State := s.wb (qreg q 0x05C) 17 true

/-- The page that a vector memory write is for: the sequencer's, or that of the group whose memory it names. -/
def vecPage (s : State) (q g : Nat) : Nat :=
  if s.inSelftest (pSeq q) || !(s.spanGroups q).contains (q + g) then pSeq q else pSeq (q + g)

/-- A vector memory word written by region `r` (R186, R139). A group beyond the span is a reserved value. -/
def portVec (s : State) (r q g entry w : Nat) (v : Word) : State :=
  if !(s.spanGroups q).contains (q + g) then s.portAns r .range
  else
    let x := vecPutBy (1 + r) s (q + g) (32 * entry + 4 * w) v
    if x.1 then x.2.portAns r .refused else x.2

/-- A pulse of EVENT line `l` of sequencer `q` starts on its way to the taps that name the sequencer: it appears two port cycles
after the first port-clock edge from then on (R159, R186). (DESIGN CHOICE: assumption 182) -/
def evPulse (q l : Nat) (s : State) : State :=
  forEach (List.range 96) (fun r s =>
    if s.regionParked r then s
    else forEach (List.range 4) (fun n s =>
      if s.rb (rreg r 0x058) (28 + n) && s.rf (rreg r 0x058) (6 * n + 5) (6 * n) = q then
        s.emit (.evline r n l (atOrAfter (s.portT r) s.now + 2 * s.portT r))
      else s) s) s

/-! ### Store port (R177, R216) -/

/-- How far region `r` stands behind the region whose descriptor the FABRIC queue took last. -/
def portTurn (s : State) (r : Nat) : Nat := (r + 96 - ((s.store.portLast.map (·.2)).getD 95 + 1)) % 96

/-- A region's store port takes a descriptor while READY = 1 and its ports are not parked. The FABRIC queue takes one in a
page-clock cycle; regions turned away take their turns before others (R177). (DEDUCED: assumption 164) -/
def storePort (s : State) (r : Nat) (ws : List Word) : State :=
  let c := s.now / pageCycle
  if s.regionParked r then s
  else if s.portBusy r 4 || 64 ≤ s.dqHeld 2 then s.answer .retry
  else
    let wait := s.store.portWait.filter fun e => c ≤ e.2 + 1
    if s.store.portLast.any (·.1 = c) || wait.any fun e => e.1 != r && decide (s.portTurn e.1 < s.portTurn r) then
      { s with store := { s.store with portWait := tabPut wait r c } }.answer .retry
    else
      (({ s with store := { s.store with portWait := tabDel wait r, portLast := some (c, r) } }.enqueue 2
        { src := .region r, ws := ws }).answer .ok).portTook r 4

/-! ### Memory blocks (R189 to R193) -/

/-- Even parity of a byte: the ninth bit that mode PARITY keeps. (PRESUMED: assumption 71) -/
def parity8 (b : Nat) : Bool := popCount 8 b % 2 = 1

/-- Key of word `w` of block `b` of region `r`. -/
def blkKey (r b w : Nat) : Nat := (24 * r + b) * 1024 + w

/-- A word of a memory block: 32 data bits, and the ninth bits above them. A word not written since its block was
initialised holds the frame's content, or 0 after the volatile wipe (R193). (DESIGN CHOICE: assumption 15) -/
def blkWord (s : State) (r b w : Nat) : Nat :=
  let d := match (s.region r).base.find? (·.1 = b) with
    | some (_, id, ver) => (Config.blockInit id ver r b w).toNat
    | none => 0
  tabGet d s.blocks (blkKey r b w)

/-- Byte `i` of the whole block and its ninth bit. -/
def blkByte (s : State) (r b i : Nat) : Nat × Bool :=
  let w := s.blkWord r b (i / 4)
  (bits w (8 * (i % 4) + 7) (8 * (i % 4)), nbit w (32 + i % 4))

/-- Byte `i` of the block and its ninth bit replaced. -/
def blkPut (s : State) (r b i v : Nat) (ninth : Bool) : State :=
  let w := s.blkWord r b (i / 4)
  let w1 := putBits (putBits w (8 * (i % 4) + 7) (8 * (i % 4)) v) (32 + i % 4) (32 + i % 4) (b2n ninth)
  { s with blocks := tabPut s.blocks (blkKey r b (i / 4)) w1 }

/-- The bytes that an access of shape `sh` at address `a` covers: block, byte of the block, in rising order. -/
def blkCover (sh a b : Nat) : List (Nat × Nat) :=
  if sh = 6 then
    (List.range 8).map fun i => (2 * (b / 2) + i / 4, a % 1024 * 4 + i % 4)
  else if 3 ≤ sh then (List.range (2 ^ (sh - 3))).map fun i => (b, (a * 2 ^ (sh - 3) + i) % 4096)
  else [(b, a * 2 ^ sh / 8 % 4096)]

/-- One port's write: whole bytes with their ninth bits, or 1, 2 or 4 bits of a byte, whose parity is kept
internally. -/
def blkWrite (s : State) (r b : Nat) (parity : Bool) (x : BlockAccess) : State :=
  let cov := blkCover x.shape x.addr b
  if x.shape.val < 3 then
    match cov with
    | [] => s
    | (k, i) :: _ =>
      let w := 2 ^ x.shape.val
      let lo := x.addr * w % 8
      let v := putBits (s.blkByte r k i).1 (lo + w - 1) lo x.data.toNat
      s.blkPut r k i v (parity8 v)
  else
    forEach cov.zipIdx (fun e s =>
      if x.be.getLsbD e.2 then
        let v := bits x.data.toNat (8 * e.2 + 7) (8 * e.2)
        s.blkPut r e.1.1 e.1.2 v (if parity then parity8 v else x.ninth.getLsbD e.2)
      else s) s

/-- One port's read, after the writes of the same cycle (R191): the data with the ninth bits above them goes to the
region's logic, and a byte that fails its parity check sets PERR, PARITY_INFO and PARITY. -/
def blkRead (s : State) (r b : Nat) (parity portB : Bool) (x : BlockAccess) : State :=
  let cov := blkCover x.shape x.addr b
  let got := cov.map fun e => s.blkByte r e.1 e.2
  let data :=
    if x.shape.val < 3 then
      let lo := x.addr * 2 ^ x.shape.val % 8
      bits ((got.map (·.1)).headD 0) (lo + 2 ^ x.shape.val - 1) lo
    else (got.map (·.1)).foldr (fun v n => v + 256 * n) 0 + 2 ^ 64 * (got.map (·.2)).foldr (fun v n => b2n v + 2 * n) 0
  let s1 := s.toRegion r data
  if parity || x.shape.val < 3 then
    match (cov.zip got).find? fun e => parity8 e.2.1 != e.2.2 with
    | some e =>
      let info := 2 ^ 31 + e.1.1 * 2 ^ 21 + b2n portB * 2 ^ 20 + x.addr % 32768
      ((s1.emit (.perr r e.1.1 portB)).wr (rreg r 0x064) (word info)).raise (pReg r) 3
    | none => s1
  else s1

/-- One cycle of a memory block: both writes, port B's bytes prevailing, then what each port reads, a port that writes too (R191,
R192). -/
def blkCycle (s : State) (r b : Nat) (parity : Bool) (pa pb : Option BlockAccess) : State :=
  if !s.isOn (pReg r) || s.rb (rreg r 0x040) 6 then s
  else
    let w (p : Option BlockAccess) (s : State) : State :=
      match p with | some x => if x.write then s.blkWrite r b parity x else s | none => s
    let rdp (p : Option BlockAccess) (portB : Bool) (s : State) : State :=
      match p with | some x => s.blkRead r b parity portB x | none => s
    rdp pb true (rdp pa false (w pb (w pa s)))

/-! ### Deep memories (R194 to R197) -/

/-- DEEP_STAT.OWNER of deep memory `k`: the ON region whose frame owns its port A; 0xFF: none (R194, R199). -/
def deepOwner (s : State) (k : Nat) : Nat :=
  ((List.range 96).find? fun r => s.isOn (pReg r) && nbit (s.region r).deep k).getD 0xFF

/-- An access taken at port A by the owning region `r`: its response comes 3 port cycles later (R194). -/
def deepPortA (s : State) (r k : Nat) (x : MemAccess) : State :=
  let w := x.addr % 65536
  let s1 := s.emit (.deepA r k w (s.now + 3 * s.portT r) 0 false)
  if s.deepHeld k then s.portAns r .selftest
  else if x.write then s1.deepWr k w x.data.toNat x.be.toNat false
  else let g := s1.deepRd k w false .none; g.2.deepOut k w fun _ c => (g.1, c)

/-- An access at port B, whoever asks. -/
def deepPortB (s : State) (k : Nat) (x : MemAccess) : State :=
  let w := x.addr % 65536
  if s.deepHeld k then (s.ret 0).answer .selftest
  else if x.write then (s.answer .ok).deepWr k w x.data.toNat x.be.toNat true
  else let g := (s.answer .ok).deepRd k w true .word; g.2.ret g.1

/-- DEEP_ACCESS: port A serves its owning region, port B whoever asks; both sample at the present instant. The words of dump
records that port B has written by then are in place. -/
def deepAccess (s0 : State) (k : Nat) (pa pb : Option MemAccess) : State :=
  let s := s0.dumpSync
  let r := s.deepOwner k
  let s1 := match pa with
    | some a => if r < 96 then portReq r 5 (pReg (deepHost k)) (.deep k a) (·.deepPortA r k a) s else s
    | none => s
  match pb with | some b => s1.deepPortB k b | none => s1

/-! ### The logic of a region (R171 to R173) -/

/-- The served pins' comparators are signals 0 to 63 of a region's logic; the others are not told apart.
(DESIGN CHOICE: assumption 186) -/
def portSig (s : State) (r k : Nat) : Bool :=
  if k < 64 then
    let v := s.portInput (64 * (r / 2) + 32 * (r % 2) + k / 2)
    if k % 2 = 0 then v.1 else v.2
  else Config.portNet s.free r k

/-- The value of a flip-flop: what it holds, its initial value where no entry is listed, and 0 without a frame (R171). -/
def ffVal (s : State) (r n : Nat) : Bool :=
  let x := (s.region r).logic
  tabGet (match x.frame with | some (i, v) => Config.ffInit i v r n | none => false) x.ffs n

/-- A slice of a region. -/
def sliceOf (s : State) (r n : Nat) : Slice := tabGet {} (s.region r).logic.slices n

/-- The level of a net of region `r` under frame `i`, version `v`. A chain of more LUT6s than the region has is a loop, whose level
is free. (DESIGN CHOICE: assumption 186) -/
def netVal (s : State) (r : Nat) (i v : Word) : Nat → NetSrc → Bool
  | 0, _ => s.freeBool
  | _ + 1, .port k => s.portSig r k
  | _ + 1, .ff n => s.ffVal r n
  | _ + 1, .slice n b => if b = 64 then (s.sliceOf r n).ovf else (s.sliceOf r n).acc.getLsbD b
  | f + 1, .lut n second =>
    let x (k : Nat) : Bool := s.netVal r i v f (Config.lutIn i v r n k)
    if Config.lutTwo i v r n then lut5 (Config.lutTable i v r n) second x else lut6 (Config.lutTable i v r n) x

/-- LUT6s, flip-flops and slices of a region (Table 6.1). -/
def regionLuts : Nat := 12800
def regionFfs : Nat := 25600
def regionSlices : Nat := 16

/-- What a flip-flop holds after an edge of the region clock networks in `live`: 0 under its reset, which an asynchronous one
obeys without an edge; its data where its clock enable is 1 (R171). (DESIGN CHOICE: assumption 186) -/
def ffNext (s : State) (r : Nat) (i v : Word) (live : Nat → Bool) (n : Nat) : Bool :=
  let net (k : Nat) : Bool := s.netVal r i v (regionLuts + 1) (Config.ffIn i v r n k)
  let edge := live (Config.ffClock i v r n).val
  if net 2 && (edge || Config.ffAsync i v r n) then false else if edge && net 1 then net 0 else s.ffVal r n

/-- A slice after an edge of its clock: a result leaves it three cycles after its operands entered, and its accumulator may be
fed by that of the slice before it (R172). -/
def sliceNext (s : State) (r : Nat) (i v : Word) (n : Nat) : Slice :=
  let x := s.sliceOf r n
  let m := Config.sliceMode i v r n
  let op (o : Nat) : BitVec 27 :=
    BitVec.ofNat 27 (natOf (fun k => s.netVal r i v (regionLuts + 1) (Config.sliceIn i v r n (o + k))) 27)
  let pipe := ((op 0, op 27) :: x.pipe).take 3
  let from_ := if m.getLsbD 5 && n != 0 then (s.sliceOf r (n - 1)).acc else x.acc
  match x.pipe[2]? with
  | some p => let y := sliceStep m p.1 p.2 from_; { acc := y.1, ovf := y.2, pipe := pipe }
  | none => { x with pipe := pipe }

/-- An edge of global network `g` in the logic of region `r`: each region clock network that carries it gives an edge after its
divisor's number of them (R173), and the flip-flops and slices on those networks take their next values at once. -/
def logicEdge (r g : Nat) (s : State) : State :=
  let x := (s.region r).logic
  match x.frame with
  | none => s
  | some (i, v) =>
    let carries (c : Nat) : Bool := (Config.regionClock i v r c).1.val = g
    let count (c : Nat) : Nat := (tabGet 0 x.edges c + 1) % 8
    let live (c : Nat) : Bool := carries c && count c % 2 ^ (Config.regionClock i v r c).2.val = 0
    let edges := (List.range 8).foldl (fun m c => if carries c then tabPut m c (count c) else m) x.edges
    let ffs := (List.range regionFfs).filterMap fun n =>
      let b := s.ffNext r i v live n
      if b = Config.ffInit i v r n then none else some (n, b)
    let slices := (List.range regionSlices).map fun n =>
      (n, if live (Config.sliceClock i v r n).val then s.sliceNext r i v n else s.sliceOf r n)
    s.setRegion r { s.region r with logic := { x with ffs := ffs, slices := slices, edges := edges } }

/-- One global network gives an edge in every region that is ON and not being loaded, or none does and only asynchronous resets
act. Which network is free. (DESIGN CHOICE: assumption 186) -/
def tickRegion (g r : Nat) (s : State) : State :=
  if !s.isOn (pReg r) || s.rb (rreg r 0x040) 6 then s
  else if g < 32 && !s.gclkRuns g then s
  else
    let s1 := s.logicEdge r g
    if s.portClk r = g then forEach (List.range 4) (tapEdge r) s1 else s1

/-- What happens in the device while no command waits: the fabric's clocks run. -/
def tick (s : State) : State := (forEach (List.range 96) (tickRegion (s.freeNat % 33)) s).drew

/-! ### The port clock (R174) -/

/-- The port clock of a region has stopped: its ports park (R174, Table 6.4). -/
def clockLost (s : State) (r : Nat) : State :=
  if !s.isOn (pReg r) || (s.region r).parkedAt.isSome then s
  else
    let park := fun (s : State) =>
      let s1 := forEach (s.fabricPins r) (fun i s => s.parkStart i) s
      lanesPark r (s1.setRegion r { s1.region r with parkedAt := some s1.now, holds := [] })
    let s2 := lagPins (s.fabricPins r) park s
    ((s2.wb gclkReg (s2.portClk r) false).wb (rreg r 0x040) 7 false).raise (pReg r) 4

/-- The port clock runs again: the ports leave their park values (R174). -/
def clockResume (s : State) (r : Nat) : State :=
  if (s.region r).parkedAt.isNone then s
  else
    let leave := fun (s : State) =>
      let s1 := s.setRegion r { s.region r with parkedAt := none }
      let s2 := (s1.wb gclkReg (s1.portClk r) true).wb (rreg r 0x040) 7 true
      forEach (s2.fabricPins r) (fun i s => s.parkRest i) s2
    (lagPins (s.fabricPins r) leave s).regionUp r

/-! ### Enable and disable (R199) -/

/-- A deep memory whose port A region `r` owns belongs to another ON region. -/
def deepConflict (s : State) (r : Nat) : Bool :=
  (List.range 96).any fun e => e != r && s.isOn (pReg e) && Nat.land (s.region e).deep (s.region r).deep != 0

/-- The checks of a REGION enable (R199, Table 16.5). -/
def regionCheck (s : State) (r : Nat) : Option Reason :=
  if (List.range 4).any fun n => 48 ≤ s.rf (rreg r 0x058) (6 * n + 5) (6 * n) then some .range
  else if !s.rb (rreg r 0x040) 5 || s.slotState r (s.rf (rreg r 0x040) 1 0) != 1 then some .image
  else if !s.gclkRuns (s.portClk r) then some .clock
  else if s.deepConflict r then some .conflict
  else none

/-- A region goes ON: its ports leave their park values (R178, R199). -/
def regionStart (s : State) (r : Nat) : State :=
  let s1 := (s.setRegion r { s.region r with parkedAt := none }).wb (rreg r 0x040) 7 true
  (forEach (s1.fabricPins r) (fun i s => s.parkRest i) s1).regionUp r

/-- A region goes OFF: its state is held and its ports park (R199). Called while its STATE still reads ON. -/
def regionStop (s : State) (r : Nat) : State :=
  let s1 := forEach (s.fabricPins r) (fun i s => s.parkStart i) s
  lanesPark r ((s1.setRegion r { s1.region r with notices := [], holds := [], taps := [] }).wb (rreg r 0x040) 7 false)

end State

/-! ### The commands -/

/-- INCREMENT_STROBE (R42, R184). -/
def execIncrementStrobe (t r : Nat) (inc : BitVec 24) : State → Host.Outcome State Fault Refusal :=
  run t (·.incStrobe r inc.toInt)
/-- PIN_DRIVE_REQUEST (R181). -/
def execPinDriveRequest (t r i : Nat) (oe lvl : Bool) : State → Host.Outcome State Fault Refusal :=
  run t fun s =>
    if pinRegion i = r then State.portReq r 0 (pGrp (i / 64)) (.drive i oe lvl) (·.pinDrive r i oe lvl) s else s
/-- SERIAL_PUSH (R183). -/
def execSerialPush (t r i : Nat) (w : BitVec 64) : State → Host.Outcome State Fault Refusal :=
  run t fun s => if pinRegion i = r then State.portReq r 0 (pGrp (i / 64)) (.push i w) (·.txPush i w) s else s
/-- SERIAL_POP (R183). -/
def execSerialPop (t r i : Nat) : State → Host.Outcome State Fault Refusal :=
  run t fun s => if pinRegion i = r then State.portReq r 0 (pGrp (i / 64)) (.pop i) (·.pinPop r i) s else s
/-- PRESET_REQUEST (R184). -/
def execPresetRequest (t r d k : Nat) : State → Host.Outcome State Fault Refusal :=
  run t (State.portReq r 1 (pDom d) (.preset d k) (·.portPreset r d k))
/-- MARK_NOTICE (R185). -/
def execMarkNotice (t r n : Nat) : State → Host.Outcome State Fault Refusal := run t (·.markNotice r n)
/-- FLAG_SET (R186, R177). -/
def execFlagSet (t r q : Nat) (mask : BitVec 4) : State → Host.Outcome State Fault Refusal :=
  run t (State.portReq r 2 (pSeq q) (.flags q mask) (State.flagsFabric q mask.toNat))
/-- STROBE (R186). -/
def execStrobe (t r q : Nat) : State → Host.Outcome State Fault Refusal :=
  run t (State.portReq r 2 (pSeq q) (.strobe q) (State.portStrobe q))
/-- VECTOR_MEMORY_WRITE (R186). -/
def execVectorMemoryWrite (t r q g entry w : Nat) (v : Word) : State → Host.Outcome State Fault Refusal :=
  run t fun s => State.portReq r 2 (s.vecPage q g) (.vec q g entry w v) (·.portVec r q g entry w v) s
/-- STORE_PORT_SUBMIT (R216). -/
def execStorePortSubmit (t r : Nat) (ws : List Word) : State → Host.Outcome State Fault Refusal :=
  run t (·.storePort r ws)
/-- DEEP_ACCESS (R194 to R197). -/
def execDeepAccess (t row : Nat) (east : Bool) (pa pb : Option MemAccess) : State → Host.Outcome State Fault Refusal :=
  run t (·.deepAccess (deepNo row east) pa pb)
/-- MEMORY_BLOCK_ACCESS (R191). -/
def execMemoryBlockAccess (t r b : Nat) (parity : Bool) (pa pb : Option BlockAccess) :
    State → Host.Outcome State Fault Refusal := run t (·.blkCycle r b parity pa pb)
/-- CLOCK_LOST (R174). -/
def execClockLost (t r : Nat) : State → Host.Outcome State Fault Refusal := run t (·.clockLost r)
/-- PORT_CLOCK_RESUME (R174). -/
def execPortClockResume (t r : Nat) : State → Host.Outcome State Fault Refusal := run t (·.clockResume r)
/-- HOLD_WINDOW_EXPIRY (R179). -/
def execHoldWindowExpiry (t r : Nat) : State → Host.Outcome State Fault Refusal := run t (·.holdExpiry r)

end Sys2Proof.Machine
end

