-- ==== Sys2Proof/Machine/Images.lean ====
section
/-! DEFINITION. Machine/Images.lean: image headers and frames as flash holds them, the COMMIT, REVOKE and SET_BOOT
commands, the load at start, and swaps (08_images_swaps.md). -/
namespace Sys2Proof.Machine

/-! ### Header block (Tables 8.1, 8.2) -/

/-- The word of a header block at a byte offset. -/
def hdr (h : List Word) (off : Nat) : Word := h.getD (off / 4) 0

/-- Bytes `a` to `b - 1` of a header block. -/
def hdrBytes (h : List Word) (a b : Nat) : List Byte := ((h.flatMap wordBytes).drop a).take (b - a)

/-- The regions of a mask of three words. -/
def maskOf (w : Nat → Word) : List Nat := (List.range 96).filter fun r => bit (w (r / 32)) (r % 32)

/-- The region mask of an image, ascending. -/
def hdrMask (h : List Word) : List Nat := maskOf fun k => hdr h (0x020 + 4 * k)

/-- The clock section: PLL0 to PLL7, then the 32 network bytes in 8 words. -/
def hdrClocks (h : List Word) : List Word := (List.range 16).map fun i => hdr h (0x040 + 4 * i)

/-- Every word from byte `a` to `b - 1` is 0. -/
def hdrZero (h : List Word) (a b : Nat) : Bool := (List.range ((b - a) / 4)).all fun i => hdr h (a + 4 * i) = 0

/-- A clock section keeps to Table 8.2, with no PLL output above 400 MHz in speed grade 1 (R427). -/
def clocksOk (c : List Word) : Bool :=
  ((List.range 8).all fun p =>
    let w := State.pllWord c p
    let mul := fld w 30 24
    !bit w 31 || (decide (16 ≤ mul) && decide (mul ≤ 40) && (List.range 4).all fun o =>
      let d := State.divisor (State.divOf c (4 * p + o))
      d = 0 || (decide (10 * d ≤ 100 * mul) && (decide (100 * mul ≤ 400 * d) || (decide (100 * mul ≤ 500 * d) && decide (speedGrade ≠ 1))))))
  && (List.range 32).all fun n =>
    let b := State.gclkByte c n
    !nbit b 5 && (bits b 7 6 = 0 || (if bits b 7 6 = 3 then decide (bits b 4 0 < 16) else bits b 4 0 = 0))

/-- Check 2 of Table 8.4. -/
def headerOk (h : List Word) : Bool :=
  hdr h 0x000 = 0x36394E43 && hdr h 0x004 = 1 && hdr h 0x014 = 0x0096B000 && hdr h 0x01C = 0
    && !(hdrMask h).isEmpty && hdrZero h 0x02C 0x040 && hdrZero h 0x080 0x100 && hdrZero h 0x310 0x400
    && clocksOk (hdrClocks h)

namespace State

def ireg (off : Nat) : Nat := reg pImg off

/-! ### Frames in flash (R242, R245) -/

/-- Word at byte `off` (a multiple of 4, below 4,032) of the frame of region `r` in a slot. -/
def frameWord (s : State) (r slot off : Nat) : Word :=
  let w := (s.flashWord r (96 * slot) (off / 8)).data
  if off % 8 = 0 then w.extractLsb' 0 32 else w.extractLsb' 32 32

/-- The 387,072 frame bytes. -/
def frameBytes (s : State) (r slot : Nat) : List Byte :=
  (List.range 96).flatMap fun k => (List.range 504).flatMap fun w =>
    natBytes 8 (s.flashWord r (96 * slot + k) w).data.toNat

/-- Some word of the frame reads undefined. -/
def frameUndef (s : State) (r slot : Nat) : Bool :=
  (s.store.words.any fun e => e.2.undef && decide (secKey r (96 * slot) ≤ e.1 / 512)
      && decide (e.1 / 512 < secKey r (96 * slot) + 96) && decide (e.1 % 512 < 504))
    || (s.store.sectors.any fun e => e.2.undef && decide (secKey r (96 * slot) ≤ e.1)
      && decide (e.1 < secKey r (96 * slot) + 96))

/-- The frame's computed CRC-32C equals the header's CRCk. `bad` lists the regions whose reads had errors that ECC
did not correct. An undefined word leaves the outcome open. (DESIGN CHOICE: assumption 89) -/
def crcOk (s : State) (h : List Word) (bad : List (Fin 96)) (r slot : Nat) : Bool :=
  !(bad.any (·.val = r)) &&
    (if s.frameUndef r slot then Config.freeBool (s.free + r)
     else crc32c (s.frameBytes r slot) = hdr h (0x100 + 4 * r))

/-- A frame header keeps to Table 8.3 (check 7, one frame). -/
def frameOk (s : State) (h : List Word) (r slot : Nat) : Bool :=
  let w := s.frameWord r slot
  w 0x000 = 0x4D524652 && w 0x004 = word r && w 0x008 = hdr h 0x008 && w 0x00C = hdr h 0x00C
    && fld (w 0x01C) 31 24 = 0 && fld (w 0x020) 31 16 = 0
    && ((List.range 7).all fun i => w (0x024 + 4 * i) = 0)
    && ((List.range 32).all fun i => w (0x080 + 4 * i) = 0)

/-- DEEP_OWN of a frame. -/
def frameDeep (s : State) (r slot : Nat) : Nat := fld (s.frameWord r slot 0x020) 15 0

/-- Lowest region of a mask whose frame fails check 7; a deep memory owned by two frames fails the higher one. -/
def badFrame (s : State) (h : List Word) (slot : Nat) : Option Nat :=
  (hdrMask h).find? fun r => !s.frameOk h r slot
    || (hdrMask h).any fun e => decide (e < r) && Nat.land (s.frameDeep e slot) (s.frameDeep r slot) != 0

/-! ### Keys (R380) -/

/-- ROOT_DIGEST of the factory row. -/
def rootDigest : BitVec 384 :=
  BitVec.ofNat 384 ((List.range 6).foldr (fun i n => (factoryWord (8 + i)).toNat + 2 ^ 64 * n) 0)

/-- STATE of key slot `k`: 0 EMPTY, 1 VALID, 2 REVOKED. -/
def keyState (s : State) (k : Nat) : Nat :=
  if k = 0 then 1
  else
    let x := tabGet ({} : KeySlot) s.life.keys k
    if !x.commit then 0 else if x.revoked then 2 else 1

/-- The public key that a KEY_ID names, whatever the state of its slot is now (R380). -/
def namedKey (s : State) (id : Word) : Option (List Byte) :=
  if id = 0 then if sha384 Config.rootKey = rootDigest then some Config.rootKey else none
  else
    (List.range 8).findSome? fun k =>
      if k != 0 && s.keyState k != 0 then
        match (tabGet ({} : KeySlot) s.life.keys k).value with
        | some (i, p) => if i = id then some p else none
        | none => none
      else none

/-- The life-cycle state allows signing key slot `k` (Table 13.4). In BLANK and SCRAPPED the commit ends with LIFECYCLE
instead. -/
def keyAllowed (s : State) (k : Nat) : Bool :=
  match s.lcState with
  | 1 => k = 0
  | 2 => k != 0
  | 3 => k != 0
  | _ => true

/-- The public key that a KEY_ID names, when it names a usable one. -/
def usableKey (s : State) (id : Word) : Option (List Byte) :=
  if id = 0 then if s.keyAllowed 0 then s.namedKey 0 else none
  else
    (List.range 8).findSome? fun k =>
      if k != 0 && s.keyState k = 1 && s.keyAllowed k then
        match (tabGet ({} : KeySlot) s.life.keys k).value with
        | some (i, p) => if i = id then some p else none
        | none => none
      else none

/-! ### Checks of a commit (Table 8.4) -/

/-- Checks 7 to 10, with the result code and the region. Check 10 takes the key of KEY_ID, usable now or not: whether a key is
usable counts only when an image is committed, in check 3 (R380). -/
def verify (s : State) (h : List Word) (slot : Nat) (bad : List (Fin 96)) : Option (Nat × Nat) :=
  match s.badFrame h slot with
  | some r => some (0x02, r)
  | none =>
    match (hdrMask h).find? fun r => !s.crcOk h bad r slot with
    | some r => some (0x03, r)
    | none =>
      let d := sha384 (hdrBytes h 0 0x280 ++ (hdrMask h).flatMap fun r => s.frameBytes r slot)
      if d.toNat != bytesNat (hdrBytes h 0x280 0x2B0) then some (0x04, 0)
      else match s.namedKey (hdr h 0x018) with
        | some k => if ecdsaVerify k d (hdrBytes h 0x2B0 0x310) then none else some (0x05, 0)
        | none => some (0x05, 0)

/-- A slot holds a sector in state ERASE_INCOMPLETE (R229). -/
def slotIncomplete (s : State) (b slot : Nat) : Bool :=
  s.store.sectors.any fun e => e.2.listed && decide (secKey b (96 * slot) ≤ e.1)
    && decide (e.1 < secKey b (96 * slot) + 96)

/-- Checks 5 to 11. (DEDUCED: assumption 90) -/
def commitFail (s : State) (h : List Word) (slot : Nat) (bad : List (Fin 96)) : Option (Nat × Nat) :=
  if (hdrMask h).any fun r => s.slotState r slot = 1 then some (0x07, 0)
  else if (hdrMask h).any fun r => s.slotIncomplete r slot then some (0x08, 0)
  else match s.verify h slot bad with
    | some x => some x
    | none => if s.lcState = 0 || s.lcState = 5 then some (0x0B, 0) else none

/-! ### Commands of the page (R247 to R251) -/

/-- A command ends with a result (Table 8.4). -/
def imgEnd (s : State) (res region : Nat) : State :=
  let s1 := match s.store.cmd.bind (·.claim) with | some n => s.unclaim n | none => s
  let s2 := { s1 with store := { s1.store with cmd := none } }
  let s3 := (s2.wb (ireg 0x040) 29 false).wr (ireg 0x048) (word (res * 0x1000000 + 2 ^ 23 + region))
  (s3.raise pImg 0).raiseIf (res != 0) pImg 1

def setCmd (s : State) (c : ImgCmd) : State := { s with store := { s.store with cmd := some c } }

/-- Slot record of a bank replaced. -/
def setSlotRec (s : State) (b slot : Nat) (x : SlotRec) : State :=
  { s with store := { s.store with slots := tabPut s.store.slots (4 * b + slot) x } }

/-- The boot slot of a region (R250). -/
def bootSlot (s : State) (r : Nat) : Nat := tabGet 0 s.store.boots r
def setBootSlot (s : State) (r slot : Nat) : State :=
  metaPut r 0 { s with store := { s.store with boots := tabPut s.store.boots r slot } }

/-- The running slot of a region, if it runs a frame. -/
def running? (s : State) (r : Nat) : Option Nat :=
  if s.rb (rreg r 0x040) 5 then some (s.rf (rreg r 0x040) 1 0) else none

/-- Anchor and commit sequence of the image that a slot of a bank names. -/
def imageOf (s : State) (b slot : Nat) : Nat × Nat := ((s.slotRec b slot).anchor, (s.slotRec b slot).seq)

/-- The header of the committed image in a slot of a bank. -/
def slotHeader (s : State) (b slot : Nat) : List Word := ((s.anchorRec b slot).map (·.header)).getD []

/-- SWAP_STATn.STATE. -/
def swapReg (n off : Nat) : Nat := ireg (0x080 + 16 * n + off)
def swapStat (n : Nat) : Nat := ireg (0x100 + 4 * n)
def swapState (s : State) (n : Nat) : Nat := s.rf (swapStat n) 31 29
def swapMask (s : State) (n : Nat) : List Nat := maskOf fun k => s.rd (swapReg n (4 * k))
def swapSlot (s : State) (n : Nat) : Nat := s.rf (swapReg n 0xC) 1 0

/-- The image is in use (R251): a region of it runs it or boots from it, or stands in the mask of an armed request
for the slot. -/
def imageInUse (s : State) (h : List Word) (slot : Nat) : Bool :=
  (hdrMask h).any fun r => s.running? r = some slot || s.bootSlot r = slot
    || (List.range 8).any fun n => s.swapState n = 2 && s.swapSlot n = slot && (s.swapMask n).contains r

/-- The steward or REVOKE revokes the image in a slot of a bank. -/
def revokeImage (s : State) (b slot : Nat) : State :=
  let a := (s.slotRec b slot).anchor
  metaPut a 0 (s.setSlotRec a slot { s.slotRec a slot with revoked := true })

/-- CMD_MASK0 to CMD_MASK2; a command keeps what they held when it was written. -/
def cmdMask (s : State) : List Nat := maskOf fun k => s.rd (ireg (0x058 + 4 * k))

/-- What a REVOKE or SET_BOOT finds before its claim: a result that ends it. -/
def metaFail (s : State) (c : ImgCmd) : Option Nat :=
  if c.op = 2 then
    if s.slotState c.region c.slot != 1 then some 0x0C
    else if s.imageInUse (s.slotHeader c.region c.slot) c.slot then some 0x0D else none
  else if c.mask.all fun r => s.slotState r c.slot = 1 then none else some 0x0C

/-- A REVOKE or SET_BOOT with its claim granted. -/
def metaWrite (s : State) (c : ImgCmd) : State :=
  match s.metaFail c with
  | some r => s.imgEnd r 0
  | none =>
    (if c.op = 2 then s.revokeImage c.region c.slot
     else forEach c.mask (fun r s => s.setBootSlot r c.slot) s).imgEnd 0 0

/-- A COMMIT reads its header block from host memory, unless the function is in D3hot or the read is out (R308, R309). -/
def imgAsk (s : State) : State :=
  match s.store.cmd with
  | some c =>
    if !c.fetch || c.asked then s
    else if !s.ep.busMaster then (s.dmaErr 2 1).imgEnd 0x0A 0
    else if s.ep.d3hot then s
    else (s.setCmd { c with asked := true, since := s.now }).emit
      (.hostRead ((s.rd (ireg 0x050)).toNat + 2 ^ 32 * (s.rd (ireg 0x054)).toNat) 1024)
  | none => s

/-- A COMMIT, REVOKE or SET_BOOT is written to IMG_CMD. (DEDUCED: assumption 25) -/
def imgCmd (v : Word) (s : State) : State :=
  let op := fld v 31 28
  let c : ImgCmd := { op := op, slot := fld v 1 0, region := fld v 14 8, since := s.now, mask := s.cmdMask }
  if s.rb (ireg 0x040) 29 then s.refuseAns pImg .conflict
  else if op = 0 || 3 < op || (op = 2 && 96 ≤ c.region) then s.refuseAns pImg .range
  else
    let s1 := (s.wb (ireg 0x040) 29 true).setCmd c
    if op = 1 then
      (s1.setCmd { c with fetch := true }).imgAsk
    else match s1.metaFail c with
      | some r => s1.imgEnd r 0
      | none =>
        let banks := if op = 2 then [(s1.slotRec c.region c.slot).anchor] else c.mask
        let r := s1.claim actMeta agStw (banks.map (resBank bMeta)) 100
        match r.1 with
        | .refused _ => r.2.imgEnd 0x09 0
        | .queued n => r.2.setCmd { c with claim := some n }
        | .granted n =>
          let s2 := r.2.setCmd { c with claim := some n }
          if s2.metaStopped then s2 else s2.metaWrite { c with claim := some n }

/-- The header block has come from host memory: checks 2 to 4 of Table 8.4. -/
def imgHeader (s : State) (bs : List Byte) : State :=
  match s.store.cmd with
  | none => s
  | some c =>
    let h := (List.range 256).map fun i => bytesWord (bs.drop (4 * i))
    let c1 := { c with fetch := false, header := h, since := s.now }
    if !(c.fetch && c.asked) then s
    else if !headerOk h then s.imgEnd 0x01 0
    else if (s.usableKey (hdr h 0x018)).isNone then s.imgEnd 0x06 0
    else
      let r := s.claim actCommit agStw ((hdrMask h).map (resBank bLoad)) 500
      match r.1 with
      | .refused _ => r.2.imgEnd 0x09 0
      | .queued n => r.2.setCmd { c1 with claim := some n }
      | .granted n => r.2.setCmd { c1 with claim := some n }

/-- The fetch of the header block has failed (R309). -/
def imgFetchFail (s : State) (kind : Nat) : State :=
  match s.store.cmd with
  | some c => if c.fetch && c.asked then (s.dmaErr 2 kind).imgEnd 0x0A 0 else s
  | none => s

/-- The commit is written, the anchor's flag last (R248). -/
def commitWrite (s : State) (h : List Word) (slot : Nat) : State :=
  let seq := (s.store.slots.map (·.2.seq)).foldl max 0 + 1
  let a := (hdrMask h).headD 0
  let s1 := forEach (hdrMask h) (fun r s =>
    metaPut r 0 (s.setSlotRec r slot { flag := true, seq := seq, anchor := a })) s
  let s2 := s1.setSlotRec a slot { flag := true, seq := seq, anchor := a, image := true, header := h }
  s2.wr (ireg 0x04C) (word seq)

/-- The steward reaches the end of a command whose claim is granted: a COMMIT runs checks 5 to 11, a REVOKE or
SET_BOOT that waited for its claim writes. (DEDUCED: assumption 88) -/
def cmdEnd (s : State) (bad : List (Fin 96)) : State :=
  match s.store.cmd with
  | none => s
  | some c =>
    if c.fetch || !(c.claim.any s.claimGranted) || s.metaStopped then s
    else if c.op = 1 then
      match s.commitFail c.header c.slot bad with
      | some (r, k) => (s.drewN 96).imgEnd r k
      | none => ((s.drewN 96).commitWrite c.header c.slot).imgEnd 0 0
    else s.metaWrite c

/-- A COMMIT, REVOKE or SET_BOOT whose claim has stayed queued for more than 10 ms (R247, R251). -/
def imgTimeout (s : State) : State :=
  match s.store.cmd with
  | some c =>
    if (c.claim.any fun n => (s.claimOf n).any (·.queued)) && decide (c.since + ms 10 < s.now) then s.imgEnd 0x09 0
    else s
  | none => s

/-- REGION_SLOTk (Table 8.8). -/
def regionSlot (s : State) (k : Nat) : Word :=
  word ((match s.running? k with | some r => 2 ^ 20 + r * 2 ^ 18 | none => 0) + s.bootSlot k * 2 ^ 16
    + ((List.range 4).map fun n => (4 * b2n (s.slotIncomplete k n) + s.slotState k n) * 16 ^ n).sum)

/-! ### A frame enters a region (R193, R245, R257 step 3) -/

/-- MB_MODE of memory block `b`: KEEP; a pair takes the bit of block 2j (R190). (DESIGN CHOICE: assumption 15) -/
def blockKeeps (s : State) (r slot b : Nat) : Bool :=
  let pair := Config.framePair (s.frameWord r slot 0x008) (s.frameWord r slot 0x00C) r (b / 2)
  bit (s.frameWord r slot 0x01C) (if pair then 2 * (b / 2) else b)

/-- The region's registers, logic, memory blocks and deep memory ownership take what the frame holds. -/
def loadFrame (s : State) (r slot : Nat) : State :=
  let w := s.frameWord r slot
  let x := s.region r
  let fresh := (List.range 24).filter fun b => !s.blockKeeps r slot b
  let base := x.base.filter (fun e => !fresh.contains e.1) ++ fresh.map fun b => (b, w 0x008, w 0x00C)
  let blocks := s.blocks.filter fun e => !(e.1 / 1024 / 24 = r && fresh.contains (e.1 / 1024 % 24))
  let s2 := ({ s with blocks := blocks }).setRegion r
    { s.region r with base := base, deep := s.frameDeep r slot, logic := { frame := some (w 0x008, w 0x00C) } }
  let s3 := (((s2.wb (rreg r 0x040) 5 true).wf (rreg r 0x040) 1 0 slot).wr (rreg r 0x044) (w 0x008)).wr
    (rreg r 0x048) (w 0x00C)
  let s4 := ((s3.wr (rreg r 0x04C) (w 0x010 &&& 0x1F)).wr (rreg r 0x054) (w 0x014 &&& 0xFFFFF)).wr (rreg r 0x058)
    (w 0x018 &&& 0xF0FFFFFF)
  forEach (List.range 16) (fun k s => s.wr (rreg r (0x080 + 4 * k)) (w (0x040 + 4 * k) &&& 0x800003FF)) s4

/-! ### Loading at start (R252 to R254) -/

def load (s : State) : Load := s.store.load
def setLoad (s : State) (x : Load) : State := { s with store := { s.store with load := x } }

/-- `x` put into a list of descending keys. -/
def insDesc (key : Nat → Nat) (x : Nat) : List Nat → List Nat
  | [] => [x]
  | y :: r => if key y ≤ key x then x :: y :: r else y :: insDesc key x r

/-- The slots a region may load, in order (R252). -/
def candidates (s : State) (r : Nat) : List Nat :=
  let ok := (List.range 4).filter fun k => s.slotState r k = 1 && !s.slotIncomplete r k
    && !(s.load.revokes.any fun e => e.2 = k && s.imageOf e.1 e.2 = s.imageOf r k)
  let boot := ok.filter (· = s.bootSlot r)
  let rest := ok.filter (· != s.bootSlot r)
  boot ++ rest.foldr (insDesc fun k => (s.slotRec r k).seq) []

/-- The steward rewrites a boot slot at the load or for PERSIST, or revokes an image: at once, or when PWRFAIL_N lets the store
write again (R398). -/
def bootRewrite (s : State) (r k : Nat) : State :=
  if s.metaStopped then s.setLoad { s.load with boots := s.load.boots ++ [(r, k)] } else s.setBootSlot r k
def imgRevoke (s : State) (r k : Nat) : State :=
  if s.metaStopped then s.setLoad { s.load with revokes := s.load.revokes ++ [(r, k)] }
  else (s.revokeImage r k).raise pImg 7

/-- The writes that waited. -/
def owedWrites (s : State) : State :=
  let s1 := s.setLoad { s.load with boots := [], revokes := [] }
  forEach s.load.revokes (fun e s => (s.revokeImage e.1 e.2).raise pImg 7)
    (forEach s.load.boots (fun e s => s.setBootSlot e.1 e.2) s1)

/-- The present first candidate of a region. -/
def firstCand (s : State) (r : Nat) : Option Nat := (tabGet [] s.load.lists r).head?

/-- The lists of the other regions, formed against the clock section of REGION0's first candidate. -/
def formLists (s : State) (own : List Nat) : State :=
  let clk := own.head?.map fun k => hdrClocks (s.slotHeader 0 k)
  let ls := (List.range 96).map fun r =>
    (r, if r = 0 then own else (s.candidates r).filter fun k => clk.all fun c => hdrClocks (s.slotHeader r k) = c)
  s.setLoad { s.load with lists := ls }

/-- The PLLs and the network sources are programmed from the clock section in force (R252).
(DEDUCED: assumption 91) -/
def programClocks (s : State) : State :=
  let k := s.firstCand 0
  let h := (k.map fun k => s.slotHeader 0 k).getD []
  let s1 := { s with store := { s.store with clocks := if k.isSome then hdrClocks h else [] } }
  let run := ((List.range 32).map fun n =>
    let b := gclkByte s1.store.clocks n
    b2n ((s1.gclkPeriod n).isSome && (bits b 7 6 != 3 || s1.rf (reg (pUlane (bits b 4 0)) 0x044) 31 30 != 0)) * 2 ^ n).sum
  ((s1.wr gclkReg (word run)).wr (ireg 0x06C) (hdr h 0x008)).wr (ireg 0x070) (hdr h 0x00C)

/-- The unit of a region is held SAFE or UNTESTED: it is not loaded (R352). -/
def regionHeld (s : State) (r : Nat) : Bool := s.unitState (pReg r) = 5 || s.unitState (pReg r) = 6

/-- A region is left OFF with IMAGE, and runs no frame (R254, R259). -/
def swapDrop (r : Nat) (s : State) : State :=
  let s0 := s.regionStop r
  let s1 := (s0.setRegion r { s0.region r with logic := {} }).wb (rreg r 0x040) 6 false
  (((s1.setUnitState (pReg r) 0).wb (reg (pReg r) oCtrl) 0 false).wb (rreg r 0x040) 5 false).refuse (pReg r) .image

/-- A region without a further candidate stays OFF with IMAGE; one that ran the image revoked goes OFF. -/
def noImage (r : Nat) (s : State) : State := if s.isOn (pReg r) then swapDrop r s else s.refuse (pReg r) .image

/-- Every region that is to load joins the queue; those without a candidate stay OFF with IMAGE. A load of the whole grid, or one
that finds no other under way, begins its waves now, or, with `pll`, once the PLLs are locked. -/
def queueLoads (s : State) (rs : List Nat) (pll : Bool) : State :=
  let go := rs.filter fun r => !s.regionHeld r && (s.firstCand r).isSome
  let full : Bool := rs.length = 96
  let l := s.load
  let l1 := if full || l.queue.isEmpty then
      { l with since := some s.now, first := if pll then none else some s.now, full := full, waves := 0 }
    else l
  let s1 := s.setLoad { l1 with queue := ((List.range 96).filter fun r => l.queue.contains r || go.contains r) }
  forEach (rs.filter fun r => !s.regionHeld r && (s.firstCand r).isNone) noImage s1

/-- The load begins (R252). In SCRAPPED the steward loads no frame (R378). -/
def loadBegin (s : State) : State :=
  if s.lcState = 5 then s
  else ((s.formLists (s.candidates 0)).programClocks).queueLoads (List.range 96) true

/-- A region whose frame matched is enabled by the loader (R199, R253). -/
def enableLoaded (s : State) (r : Nat) : State :=
  let p := pReg r
  match s.regionCheck r with
  | some e => (s.setUnitState p 3).refuse p e
  | none => ((s.setUnitState p 2).wb (reg p oCtrl) 0 true).regionStart r

/-- The regions `rs` move to their next candidates (R254). When REGION0 is one of them, the lists of the others are formed again;
if its image has another clock section, the PLLs are programmed again and every region is loaded again. -/
def nextCand (rs : List Nat) (s : State) : State :=
  let l := s.load
  let ls := rs.foldl (fun ls r => tabPut ls r (tabGet [] ls r).tail) l.lists
  let s1 := s.setLoad { l with lists := ls, retry := l.retry.filter fun e => !rs.contains e }
  if rs.contains 0 then
    let s2 := (s1.formLists (tabGet [] ls 0)).programClocks
    if s2.store.clocks = s.store.clocks then s2.queueLoads rs false else s2.queueLoads (List.range 96) true
  else s1.queueLoads rs false

/-- A region loads in 3.84 µs (R24). -/
def loadTime : Nat := 3932160

/-- One region of a wave: its frame crosses the configuration path and its CRC is compared. -/
def loadRegion (bad : List (Fin 96)) (r : Nat) (s : State) : State :=
  match s.firstCand r with
  | none => s
  | some k =>
    if s.crcOk (s.slotHeader r k) bad r k then
      let s0 := if s.isOn (pReg r) then (s.regionStop r).setUnitState (pReg r) 0 else s
      let s1 := s0.loadFrame r k
      let s2 := if k = s.bootSlot r then s1
        else ((s1.bootRewrite r k).wb (ireg 0x040) 30 true).raise pImg 6
      (s2.setLoad { s2.load with retry := s2.load.retry.erase r }).enableLoaded r
    else if s.load.retry.contains r then nextCand [r] s
    else s.setLoad { s.load with failed := s.load.failed ++ [r] }

/-- The regions of the next wave, and its place k: 24k to 24k + 23 in a load of the whole grid, else the next 24 at most, in
ascending order (R24, R254). -/
def nextWave (s : State) : List Nat × Nat :=
  let q := s.load.queue
  if s.load.full then (q.filter fun r => r / 24 = q.headD 0 / 24, q.headD 0 / 24) else (q.take 24, s.load.waves)

/-- LOAD_WAVE: a wave ends 3.84 µs after its start, and wave k starts 4.0 µs × k after wave 0 (R24, R253). When the PLLs are being
programmed, the first wave to end shows when wave 0 started. The RETEST tests come first (R397). -/
def loadWave (s : State) (bad : List (Fin 96)) : State :=
  let w := s.nextWave
  let later := us 4 * w.2 + loadTime
  let start := s.load.first.getD (s.now - later)
  if s.pwr.phase != .starting || !s.bist.tests.isEmpty || !s.bist.todo.isEmpty then s
  else if s.now < s.load.since.getD 0 + later || s.now < start + later then s
  else
    let s1 := s.setLoad { s.load with
      queue := s.load.queue.filter fun r => !w.1.contains r, waves := s.load.waves + 1, first := some start }
    { (forEach w.1 (loadRegion bad) { s1 with now := start + later }).drewN 96 with now := s.now }

/-- The re-verification of the image of the first region that failed ends (R254). -/
def startVerifyEnd (s : State) (bad : List (Fin 96)) : State :=
  match s.load.failed with
  | [] => s
  | r :: rest =>
    let k := (s.firstCand r).getD 0
    let h := s.slotHeader r k
    let id := s.imageOf r k
    let same (s : State) (e : Nat) : Bool := (s.firstCand e).any fun j => s.imageOf e j = id
    let s0 := s.drewN 96
    if (s.verify h k bad).isNone then
      let s1 := s0.setLoad { s0.load with failed := rest, retry := s0.load.retry ++ [r] }
      s1.queueLoads [r] false
    else
      let s1 := s0.imgRevoke r k
      let gone := (List.range 96).filter fun e => same s e
      let s2 := s1.setLoad { s1.load with
        failed := s1.load.failed.filter fun e => !gone.contains e, queue := s1.load.queue.filter fun e => !gone.contains e }
      nextCand gone s2

/-! ### Swaps (R255 to R260) -/

def swap (s : State) (n : Nat) : Swap := tabGet {} s.store.swaps n
def setSwap (s : State) (n : Nat) (x : Swap) : State :=
  { s with store := { s.store with swaps := tabPut s.store.swaps n x } }

/-- RUN_COMPAT (R255). -/
def runCompat (s : State) : Word := if s.isOn pCar then s.rd (reg pCar 0x048) else s.rd (ireg 0x064)

def swapForce (s : State) (n : Nat) : Bool := s.rb (swapReg n 0xC) 29

/-- The request's claim ends, and its state returns to IDLE with an outcome and a reason. -/
def swapEnd (s : State) (n outcome : Nat) (why : Reason) : State :=
  let x := s.swap n
  let s1 := match x.claim with | some c => s.unclaim c | none => s
  let s2 := s1.setSwap n { s1.swap n with claim := none }
  let st := swapStat n
  (((s2.wf st 31 29 0).wb st 28 false).wf st 27 24 outcome).wf st 23 16 why.code

/-- Disarming (R255, R260). -/
def swapDisarm (n : Nat) (s : State) : State :=
  if s.swapState n = 1 || s.swapState n = 2 then (s.swapEnd n 4 .none).wb (swapReg n 0xC) 30 false else s

/-- A start reaches the request, with its trigger instant (R256). -/
def swapTrig (s : State) (n t : Nat) (late : Bool) : State :=
  s.setSwap n { s.swap n with trigs := (s.swap n).trigs ++ [(t, late)] }

/-- A write of a request's CTRL register (Table 8.8). -/
def swapCtrl (n : Nat) (v : Word) (s : State) : State :=
  let st := s.swapState n
  let r := swapReg n 0xC
  let s1 :=
    if st = 0 then
      let s0 := s.wr r (v &&& 0x30000003)
      if bit v 30 then
        if s.lcState = 5 then
          ((s0.wf (swapStat n) 27 24 2).wf (swapStat n) 23 16 Reason.lifecycle.code).raise pImg 3
        else ((s0.wb r 30 true).wf (swapStat n) 31 29 1).setSwap n { s0.swap n with since := s.now }
      else s0
    else if !bit v 30 then swapDisarm n s
    else s
  if bit v 31 then s1.swapTrig n (s.now + ns 100) false else s1

/-- A write of a request's mask (R255). -/
def swapMaskWrite (n k : Nat) (v : Word) (s : State) : State :=
  if s.swapState n = 0 then s.wr (swapReg n (4 * k)) v else s

/-- The first arming check that fails, without the claim (Table 8.6). -/
def armFail (s : State) (n : Nat) : Option Reason :=
  let m := s.swapMask n
  let k := s.swapSlot n
  if m.isEmpty then some .range
  else if m.any fun r => s.slotState r k != 1 || s.slotIncomplete r k then some .image
  else if m.any fun r => hdrClocks (s.slotHeader r k) != (List.range 16).map (fun i => s.store.clocks.getD i 0) then
    some .inconsistent
  else if !s.swapForce n && m.any fun r => hdr (s.slotHeader r k) 0x010 != s.runCompat then some .version
  else if m.any fun r => !s.gclkRuns (fld (s.frameWord r k 0x010) 4 0) then some .clock
  else if m.any fun r =>
      ((List.range 96).any fun e => !m.contains e && s.isOn (pReg e)
        && Nat.land (s.region e).deep (s.frameDeep r k) != 0)
      || m.any fun e => decide (e < r) && Nat.land (s.frameDeep e k) (s.frameDeep r k) != 0 then some .conflict
  else none

/-- Arming ends in IDLE with a reason. -/
def armRefuse (s : State) (n : Nat) (r : Reason) : State :=
  ((s.swapEnd n 2 r).wb (swapReg n 0xC) 30 false).raise pImg 3

/-- ARMING_END: the checks and the claim, or the grant of the claim that waited. -/
def armingEnd (s : State) (n : Nat) : State :=
  if s.swapState n != 1 then s
  else match (s.swap n).claim with
    | some c => if s.claimGranted c then (s.wf (swapStat n) 31 29 2).wb (swapStat n) 28 false else s
    | none =>
      match s.armFail n with
      | some r => s.armRefuse n r
      | none =>
        let m := s.swapMask n
        let q := s.claim actSwap (agSwap n) (m.map (fun r => resUnit (pReg r)) ++ m.map (resBank bLoad)) (200 * m.length)
        match q.1 with
        | .refused r => q.2.armRefuse n r
        | .queued c => (q.2.setSwap n { q.2.swap n with claim := some c }).wb (swapStat n) 28 true
        | .granted c => (q.2.setSwap n { q.2.swap n with claim := some c }).wf (swapStat n) 31 29 2

/-- Waves of a swap of the request's mask, and how long its loads take (R257). -/
def swapSpan (s : State) (n : Nat) : Nat := loadTime + us 4 * (((s.swapMask n).length + 23) / 24 - 1)

/-- The ports and pins of the regions `m` of a swap park (R257 step 1). -/
def swapPark (m : List Nat) (s : State) : State :=
  forEach m (fun r s =>
    let s1 := forEach (s.fabricPins r) (fun i s => s.parkStart i) s
    lanesPark r (deepDiscard r (storeDiscard r ((s1.setRegion r { s1.region r with holds := [] }).wb (rreg r 0x040) 6 true)))) s

/-- SWAP_START: the trigger instant of the request's oldest start has come (R256, R257 step 1). -/
def swapStart (s : State) (n : Nat) : State :=
  match (s.swap n).trigs.find? (atOrAfter pinCycle ·.1 ≤ s.now) with
  | none => s
  | some (t, late) =>
    let s0 := s.setSwap n { s.swap n with trigs := (s.swap n).trigs.erase (t, late) }
    let m := s.swapMask n
    let k := s.swapSlot n
    if s.swapState n != 2 then s0.raise pImg 5
    else if !s.swapForce n && m.any fun r => hdr (s.slotHeader r k) 0x010 != s.runCompat then s0.armRefuse n .version
    else
      let st := swapStat n
      let old := m.map fun r => (r, (s.running? r).isSome, (s.running? r).getD 0)
      let s2 := lagPins (m.flatMap s0.fabricPins) (swapPark m) s0
      let s3 := s2.setSwap n { s2.swap n with at_ := atOrAfter pinCycle t, old := old }
      (((s3.wf st 31 29 3).wb st 15 late).wf st 7 0 (s3.rf st 7 0 + 1)).wb (swapReg n 0xC) 30 false

/-- A region leaves a swap at instant `t`: its ports leave their park values unless its port clock stands still (R257, R258). -/
def swapLeave (t r : Nat) (s : State) : State :=
  let run := s.gclkRuns (s.portClk r)
  let s1 := (s.wb (rreg r 0x040) 6 false).wb (rreg r 0x040) 7 run
  let s2 := s1.setRegion r { s1.region r with parkedAt := if run then none else some s1.now }
  (forEach (s2.fabricPins r) (fun i s => s.parkRestAt t i) s2).regionUp r

/-- SWAP_RELEASE: at R the frames' CRCs decide (R257, R259). -/
def swapRelease (s : State) (n : Nat) (bad : List (Fin 96)) : State :=
  if s.swapState n != 3 || s.now < (s.swap n).at_ + s.swapSpan n then s
  else
    let m := s.swapMask n
    let k := s.swapSlot n
    let at_ := (s.swap n).at_ + s.swapSpan n
    match m.find? fun r => !s.crcOk (s.slotHeader r k) bad r k with
    | some r => ((s.drewN 96).wf (swapStat n) 31 29 4).wf (swapStat n) 14 8 r
    | none =>
      let s1 := forEach m (fun r s => swapLeave at_ r (s.loadFrame r k)) (s.drewN 96)
      let s2 := if s.rb (swapReg n 0xC) 28 then forEach m (fun r s => s.bootRewrite r k) s1 else s1
      (s2.swapEnd n 1 .none).raise pImg 2

/-- SWAP_REVERT: every masked region is back on the frame it ran before S (R259). The claim, and with it the state
REVERTING, stays for the re-verification. -/
def swapRevert (s : State) (n : Nat) (bad : List (Fin 96)) : State :=
  if s.swapState n != 4 || (s.swap n).verify || s.now < (s.swap n).at_ + 2 * s.swapSpan n then s
  else
    let at_ := (s.swap n).at_ + 2 * s.swapSpan n
    let ok (e : Nat × Bool × Nat) : Bool := e.2.1 && s.crcOk (s.slotHeader e.1 e.2.2) bad e.1 e.2.2
    let s1 := forEach (s.swap n).old (fun e s =>
      if ok e then swapLeave at_ e.1 (s.loadFrame e.1 e.2.2) else swapDrop e.1 s) (s.drewN 96)
    ((s1.wf (swapStat n) 27 24 3).setSwap n { s1.swap n with verify := true }).raise pImg 4

/-- The re-verification after a reverted swap ends: the image is revoked if it fails, and the claim ends. -/
def swapVerifyEnd (s : State) (n : Nat) (bad : List (Fin 96)) : State :=
  if !(s.swap n).verify || s.metaStopped then s
  else
    let k := s.swapSlot n
    let imgs := ((s.swapMask n).filter fun r => s.slotState r k = 1).map fun r => s.imageOf r k
    let s1 := forEach imgs.eraseDups (fun e s =>
      if (s.verify (s.slotHeader e.1 k) k bad).isSome then (s.revokeImage e.1 k).raise pImg 7 else s) (s.drewN 96)
    let s2 := match (s1.swap n).claim with | some c => s1.unclaim c | none => s1
    (s2.setSwap n { s2.swap n with claim := none, verify := false }).wf (swapStat n) 31 29 0

/-- A mark with a SWAP action fires (R52, R256). -/
def swapMarkFire (s : State) (n due : Nat) (late : Bool) : State := s.swapTrig n due late

/-- Every armed or arming request is disarmed (R260, R399). -/
def disarmAll (s : State) : State := forEach (List.range 8) swapDisarm s

end State

/-! ### The commands -/

/-- COMMIT (R247). -/
def execCommit (t : Nat) (a : Agent) (v : Word) : State → Host.Outcome State Fault Refusal :=
  run t (gateP a pImg (when (fld v 31 28 = 1) (State.imgCmd v)))
/-- COMMIT_COMPLETE (R248): also the end of a REVOKE or SET_BOOT that waited for its claim (R251). -/
def execCommitComplete (t : Nat) (bad : List (Fin 96)) : State → Host.Outcome State Fault Refusal :=
  run t (·.cmdEnd bad)
/-- REVOKE (R251). -/
def execRevoke (t : Nat) (a : Agent) (v : Word) : State → Host.Outcome State Fault Refusal :=
  run t (gateP a pImg (when (fld v 31 28 = 2) (State.imgCmd v)))
/-- SET_BOOT (R251). -/
def execSetBoot (t : Nat) (a : Agent) (v : Word) : State → Host.Outcome State Fault Refusal :=
  run t (gateP a pImg (when (fld v 31 28 = 3) (State.imgCmd v)))
/-- LOAD_WAVE (R253). -/
def execLoadWave (t : Nat) (bad : List (Fin 96)) : State → Host.Outcome State Fault Refusal := run t (·.loadWave bad)
/-- RE_VERIFY_END (R254, R259). -/
def execReVerifyEnd (t : Nat) (n : Option (Fin 8)) (bad : List (Fin 96)) : State → Host.Outcome State Fault Refusal :=
  run t fun s => match n with | some k => s.swapVerifyEnd k bad | none => s.startVerifyEnd bad
/-- SWAP_ARM (R255). -/
def execSwapArm (t : Nat) (a : Agent) (n : Nat) (v : Word) : State → Host.Outcome State Fault Refusal :=
  run t (gateP a pImg (State.swapCtrl n v))
/-- ARMING_END (R255). -/
def execArmingEnd (t n : Nat) : State → Host.Outcome State Fault Refusal := run t (·.armingEnd n)
/-- SWAP_DISARM (R255). -/
def execSwapDisarm (t : Nat) (a : Agent) (n : Nat) (v : Word) : State → Host.Outcome State Fault Refusal :=
  run t (gateP a pImg (State.swapCtrl n v))
/-- SWAP_GO (R256). -/
def execSwapGo (t : Nat) (a : Agent) (n : Nat) (v : Word) : State → Host.Outcome State Fault Refusal :=
  run t (gateP a pImg (State.swapCtrl n v))
/-- SWAP_START (R257). -/
def execSwapStart (t n : Nat) : State → Host.Outcome State Fault Refusal := run t (·.swapStart n)
/-- SWAP_RELEASE (R257). -/
def execSwapRelease (t n : Nat) (bad : List (Fin 96)) : State → Host.Outcome State Fault Refusal :=
  run t (·.swapRelease n bad)
/-- SWAP_REVERT (R259). -/
def execSwapRevert (t n : Nat) (bad : List (Fin 96)) : State → Host.Outcome State Fault Refusal :=
  run t (·.swapRevert n bad)

end Sys2Proof.Machine
end

