-- ==== Sys2Proof/Machine/Lattice.lean ====
section
/-! DEFINITION. Machine/Lattice.lean: the links and the router of the Slaeg lattice, routing, streams and the census
(R262 to R281, R298). -/
namespace Sys2Proof.Machine
namespace State

def rtr (off : Nat) : Nat := reg pRtr off
def preg (n off : Nat) : Nat := reg (pPort n) off

/-- Times `x` / `y` as a whole number. The spec does not say to which side a fraction goes.
(DESIGN CHOICE: assumption 109) -/
def roundFree (s : State) (x y : Int) : Int × State :=
  if x % y = 0 then (x / y, s) else (x / y + (if s.freeBool then 1 else 0), s.drew)

/-! ### Addresses (R12, R262 to R264) -/

/-- The device's own address. -/
def ownAddr (s : State) : BitVec 16 := BitVec.ofNat 16 (s.rf (rtr 0x040) 15 0)

/-- Coordinate `d` of an address: 0 W, 1 X, 2 Y, 3 Z. -/
def coord (a : BitVec 16) (d : Nat) : Nat := bits a.toNat (15 - 4 * d) (12 - 4 * d)

/-- Extent of dimension `d`. -/
def extent (s : State) (d : Nat) : Nat := s.rf (rtr 0x044) (15 - 4 * d) (12 - 4 * d) + 1

/-- The address `a` with coordinate `d` moved by `k`. -/
def shift (s : State) (a : BitVec 16) (d k : Nat) : BitVec 16 :=
  BitVec.ofNat 16 (putBits a.toNat (15 - 4 * d) (12 - 4 * d) ((coord a d + k) % s.extent d))

/-- The neighbour of device `a` that port `n` faces (Table 9.1). -/
def neighbour (s : State) (a : BitVec 16) (n : Nat) : BitVec 16 :=
  s.shift a (n / 2) (if n % 2 = 1 then 1 else s.extent (n / 2) - 1)

/-- The neighbours of device `a`. -/
def neighbours (s : State) (a : BitVec 16) : List (BitVec 16) :=
  (((List.range 8).filter fun n => s.extent (n / 2) != 1).map (s.neighbour a)).eraseDups

/-! ### Links (R265 to R268) -/

/-- The link of port `n` is UP. -/
def linkUp (s : State) (n : Nat) : Bool := s.rf (preg n 0x044) 31 28 = 2
def inTraining (s : State) (n : Nat) : Bool := s.isOn (pPort n) && s.rf (preg n 0x044) 31 28 = 1

/-- PORT_STAT.LINK and REASON set. -/
def setLink (s : State) (n link reason : Nat) : State := (s.wf (preg n 0x044) 31 28 link).wf (preg n 0x044) 27 24 reason

/-- What this end of port `n` sends in training: its address, port number, LAT_SIZE and protocol levels (R264, R268). -/
def ownId (s : State) (n : Nat) : PeerId :=
  { addr := s.ownAddr, port := ⟨n % 8, Nat.mod_lt _ (by decide)⟩, size := BitVec.ofNat 16 (s.rf (rtr 0x044) 15 0)
    pmin := s.rf (rtr 0x800) 3 0, pmax := s.rf (rtr 0x800) 7 4 }

/-- Training of port `n` begins, with `reason` shown: this end's identity goes out (R265). -/
def train (s : State) (n reason : Nat) : State := (s.setLink n 1 reason).emit (.train n (s.ownId n))

/-- What the far end sent matches R264 and Table 9.1. -/
def wired (s : State) (n : Nat) (id : PeerId) : Bool :=
  id.addr = s.neighbour s.ownAddr n && id.port.val = (if n % 2 = 1 then n - 1 else n + 1)
    && id.size.toNat = s.rf (rtr 0x044) 15 0

/-- The highest protocol level that both ranges hold (R268). -/
def level (s : State) (id : PeerId) : Option Nat :=
  let hi := min id.pmax (s.rf (rtr 0x800) 7 4)
  if max id.pmin (s.rf (rtr 0x800) 3 0) ≤ hi then some hi else none

/-- PEER shows the identity received. -/
def setPeer (s : State) (n : Nat) (id : PeerId) : State := s.wr (preg n 0x048) (word (id.port.val * 65536 + id.addr.toNat))

/-- A link that must not come UP stays DOWN (R264, R268). (DEDUCED: assumption 93) -/
def badPeer (s : State) (n : Nat) (id : PeerId) : Option Nat :=
  if !s.wired n id then some 3 else if (s.level id).isNone then some 4 else none

/-- Training ends (R265). Flits that wait for the link keep it (R273). -/
def trained (s : State) (n : Nat) (id : PeerId) : State :=
  if !s.inTraining n then s
  else match s.badPeer n id with
    | some why => (s.setPeer n id).setLink n 0 why
    | none =>
      let s1 := (s.setPort n { lastSync := s.now, outq := (s.port n).outq }).wr (preg n 0x044)
        (word (2 * 2 ^ 28 + (s.level id).getD 0 * 2 ^ 20))
      (s1.setPeer n id).raise (pPort n) 0

/-- Training has lasted 2 ms (R265): NO_SIGNAL without an identity, else the reason of the mismatch; with a good
identity the spec names no reason. (DEDUCED: assumption 92) -/
def trainingTimeout (s : State) (n : Nat) (id : Option PeerId) : State :=
  if !(s.inTraining n && (s.port n).since + ms 2 ≤ s.now) then s
  else
    let s1 := s.setPort n { s.port n with since := s.now }
    match id with
    | none => s1.train n 2
    | some p => match s.badPeer n p with
      | some why => (s1.setPeer n p).setLink n 0 why
      | none => (s1.train n ([2, 5, 7].getD (s.freeNat % 3) 2)).drew

/-- Flits outside the link sequence: SYNC, ECHO and BEAT are never resent (R267). (DEDUCED: assumption 95) -/
def unsequenced (f : Flit) : Bool := f.cls = 2 && (f.typ = 1 || f.typ = 2 || f.typ = 3)

/-- Priority of a flit at an output port, 1 the highest (Table 9.3). -/
def priority (f : Flit) : Nat := if f.cls = 7 then 5 else if f.cls = 8 then 7 else f.cls

/-- A flit takes its place among those that wait at an output port: behind all of its own or a higher priority (R270). -/
def lineUp (q : List Flit) (f : Flit) : List Flit :=
  q.takeWhile (fun g => decide (priority g ≤ priority f)) ++ f :: q.dropWhile (fun g => decide (priority g ≤ priority f))

/-- The retry window of a port's link (R267). -/
def window (s : State) (n : Nat) : Nat := if s.rf (preg n 0x044) 23 20 = 1 then 32 else 128

/-- A flit of the link sequence leaves on port `n`, and stays in the retry buffer until it is acknowledged. -/
def transmit (n : Nat) (f : Flit) (s : State) : State :=
  let x := s.port n
  let f' := { f with lseq := BitVec.ofNat 16 x.lseqTx }
  (s.setPort n { x with lseqTx := (x.lseqTx + 1) % 65536, retry := x.retry ++ [(f', 0)] }).emit (.flit n f')

/-- The flits `q` leave on port `n` in turn while the retry window has room; the others wait. Whether the far end has
acknowledged the oldest flit of a full window by now is free. (DESIGN CHOICE: assumption 96) -/
def sendWaiting (n : Nat) : List Flit → State → State
  | [], s => s.setPort n { s.port n with outq := [] }
  | f :: q, s =>
    if (s.port n).retry.length < s.window n then sendWaiting n q (transmit n f s)
    else if s.freeBool then sendWaiting n q (transmit n f (s.drew.setPort n { s.port n with retry := (s.port n).retry.drop 1 }))
    else s.drew.setPort n { s.port n with outq := f :: q }

/-- A flit leaves on port `n`, if its link is UP, in its turn behind those that wait (R267, R270). -/
def send (n : Nat) (f : Flit) (s : State) : State :=
  if !s.linkUp n then s
  else if unsequenced f then
    sendWaiting n (s.port n).outq (s.emit (.flit n { f with lseq := BitVec.ofNat 16 (s.port n).lseqTx }))
  else sendWaiting n (lineUp (s.port n).outq f) s

/-- A flit leaves on every UP port but `ex`. -/
def flood (ex : Option Nat) (f : Flit) (s : State) : State :=
  forEach ((List.range 8).filter fun n => ex != some n) (fun n s => send n f s) s

/-- The link is in the Carillon tree. -/
def inTree (s : State) (n : Nat) : Bool := s.linkUp n && s.rb (preg n 0x044) 18

/-- A tree stands at this device: FOLLOWER or ROOT. -/
def treeStands (s : State) : Bool := s.isOn pCar && 2 ≤ s.rf (reg pCar 0x044) 31 29

/-- A flit leaves along the Carillon tree but for port `ex`. -/
def sendTree (ex : Option Nat) (f : Flit) (s : State) : State :=
  forEach ((List.range 8).filter fun n => ex != some n && s.inTree n) (fun n s => send n f s) s

/-- A flit forwarded: HOPS rises by 1 (R274). -/
def hopped (f : Flit) : Flit := { f with hops := min 63 (f.hops + 1) }

/-- A flit that comes in on port `n`: one of a reserved class is discarded (R270), one out of sequence too (R267). -/
def receive (n : Nat) (f : Flit) (g : State → State) (s : State) : State :=
  if !s.linkUp n then s
  else if unsequenced f then g s
  else
    let x := s.port n
    if f.lseq.toNat != x.lseqRx then s.raise (pPort n) 2
    else
      let s1 := s.setPort n { x with lseqRx := (x.lseqRx + 1) % 65536 }
      if f.cls = 0 || 8 < f.cls then s1.raise (pPort n) 4 else g s1

/-! ### The census (R279) -/

/-- The census lists the device present. -/
def present (s : State) (a : BitVec 16) : Bool := s.lat.census.any (·.1 = a.toNat)

/-- The census lists the device absent from now on. -/
def censusDrop (s : State) (a : Nat) : State :=
  if s.lat.census.any (·.1 = a) then
    ({ s with lat := { s.lat with census := tabDel s.lat.census a } }).raise pRtr 2
  else s

/-- A device's census flit. (DEDUCED: assumption 99) -/
def censusPut (s : State) (c : CensusInfo) : State :=
  let a := c.addr.toNat
  let old := (s.lat.census.find? (·.1 = a)).map (·.2)
  let since := match old with | some o => if o.info.eligible then o.since else s.now | none => s.now
  let e : Census := { info := c, seen := s.now, since := since }
  ({ s with lat := { s.lat with census := tabPut s.lat.census a e } }).raiseIf old.isNone pRtr 2

/-- LAT_DIAM: the largest HOPS of a census flit received in the last 30 ms. -/
def latDiam (s : State) : Nat := ((s.lat.diam.filter fun e => s.now < e.2 + ms 30).map (·.1)).foldl max 0

/-- A census flit came in over `hops` hops. -/
def diamPut (s : State) (hops : Nat) : State := { s with lat := { s.lat with diam := tabPut s.lat.diam hops s.now } }

/-- D_MAX. -/
def dMax (s : State) : Nat := (s.lat.census.map (·.2.info.delay)).foldl max 0

/-- What the device's own census flit says. A LONG link has no part in the delay, which is that of the lead (R283).
(DEDUCED: assumption 205) -/
def ownInfo (s : State) : CensusInfo :=
  { addr := s.ownAddr, eligible := s.rb (reg pCar 0x040) 0, protoMax := s.rf (rtr 0x800) 7 4
    epochs := BitVec.ofNat 16 (s.rf (rtr 0x05C) 15 0)
    delay := (((List.range 8).filter fun n => s.linkUp n && !s.rb (preg n 0x044) 19).map fun n => s.rf (preg n 0x04C) 23 0).foldl max 0
    role := s.rf (reg pCar 0x044) 31 29 }

/-- CENSUS_SEND: every 10 ms, along the tree, or on every UP port while no tree stands. -/
def censusSend (s : State) : State :=
  if !(s.isOn pRtr && (s.lat.lastCensus = 0 || s.lat.lastCensus + ms 10 ≤ s.now)) then s
  else
    let f : Flit := { cls := 4, dest := 0xFFFF, src := s.ownAddr, body := .census s.ownInfo }
    let s1 := ({ s with lat := { s.lat with lastCensus := max 1 s.now } }).censusPut s.ownInfo
    if s1.treeStands then sendTree none f s1 else flood none f s1

/-- A flit of the tree goes on; while no tree stands it goes on every other UP port if it is `new`.
(DEDUCED: assumption 98) -/
def passOn (s : State) (n : Nat) (f : Flit) (new : Bool) : State :=
  if f.hops = 63 then s
  else if s.treeStands then sendTree (some n) (hopped f) s
  else if new then flood (some n) (hopped f) s else s

/-- CENSUS_TIMEOUT: 30 ms without the device's census flit. -/
def censusTimeout (s : State) (a : BitVec 16) : State :=
  match s.lat.census.find? (·.1 = a.toNat) with
  | some (_, e) => if e.seen + ms 30 ≤ s.now then s.censusDrop a.toNat else s
  | none => s

/-- A link notice of `from_` for its link to `peer`: once every listed neighbour has sent one, the device is absent. -/
def noticeLink (s : State) (from_ peer : BitVec 16) : State :=
  match s.lat.census.find? (·.1 = peer.toNat) with
  | none => s
  | some (_, e) =>
    let ns := if e.notices.contains from_ then e.notices else e.notices ++ [from_]
    let s1 := { s with lat := { s.lat with census := tabPut s.lat.census peer.toNat { e with notices := ns } } }
    if (s.neighbours peer).all (fun a => !s.present a || ns.contains a) then s1.censusDrop peer.toNat else s1

/-- A link leaves UP: LINK_DOWN, and a link notice at once (R265, R279). -/
def linkLost (s : State) (n link reason : Nat) : State :=
  let peer := BitVec.ofNat 16 (s.rf (preg n 0x048) 15 0)
  let s1 := ((if link = 1 then s.train n reason else s.setLink n link reason).wf (preg n 0x044) 19 18 0).raise (pPort n) 1
  let s2 := (s1.setPort n { s1.port n with since := s.now, syncOut := none, exchanges := 0, delays := [], beatIn := false }).noticeLink
    s.ownAddr peer
  if !s.isOn pRtr then s2
  else
    let f : Flit := { cls := 4, typ := 1, dest := 0xFFFF, src := s.ownAddr, body := .notice peer }
    if s2.treeStands then sendTree none f s2 else flood none f s2

/-- LINK_DOWN: the link fails and returns to TRAINING by itself. CLOCK where its reference is gone; else the spec does
not say which reason shows. (DESIGN CHOICE: assumption 94) -/
def linkFail (s : State) (n : Nat) (clock : Bool) : State :=
  if !s.linkUp n then s
  else if clock then s.linkLost n 1 7
  else (s.linkLost n 1 ([0, 2, 5].getD (s.freeNat % 3) 0)).drew

/-- CRC_ERR: a bad flit came in and is discarded; or the far end lacks flit `q`, which is resent with all after it. The
16th resend of one flit that fails too takes the link DOWN (R267). -/
def crcErr (s : State) (n : Nat) (q : Option (BitVec 16)) : State :=
  if !s.linkUp n then s
  else match q with
    | none => s.raise (pPort n) 2
    | some l =>
      let x := s.port n
      match x.retry.dropWhile (·.1.lseq != l) with
      | [] => s
      | (f, k) :: q =>
        if 16 ≤ k then s.linkLost n 1 5
        else
          let rest := (f, k) :: q
          let s1 := (s.setPort n { x with retry := rest.map fun e => (e.1, e.2 + 1) }).raise (pPort n) 3
          forEach rest (fun e s => s.emit (.flit n e.1)) s1

/-- Every port goes DOWN for a router self-test (R281), or for a disable of the port. -/
def portDown (n reason : Nat) (s : State) : State :=
  if s.linkUp n then s.linkLost n 0 reason else s.setLink n 0 reason

/-- The checks of a PORT enable (R301, R264); `lref`: its lane reference pair stands. -/
def portCheck (s : State) (n : Nat) (lref : Bool) : Option Reason :=
  if s.extent (n / 2) = 1 then some .inconsistent
  else if !s.isOn pRtr then some .dependency
  else if !lref then some .clock
  else none

/-- A PORT goes ON: training begins. -/
def portStart (s : State) (n : Nat) : State := (s.setPort n { since := s.now }).train n 0

/-- The checks of a ROUTER enable (R262). -/
def routerCheck (s : State) : Option Reason :=
  if (List.range 4).any fun d => s.extent d ≤ coord s.ownAddr d then some .range else none

/-! ### Undeliverable flits (R275, Table 9.5) -/

/-- A stream channel stops with a reason (R278). -/
def streamStop (s : State) (ch reason : Nat) : State :=
  let r := rtr (0x140 + 4 * ch)
  if s.rb (rtr (0x100 + 4 * ch)) 31 && !s.rb r 31 then
    ((s.wb r 31 true).wf r 23 16 reason).raise pRtr 4
  else s

/-- A remote access failed: REMOTE_ERR (R276, R444). -/
def remoteErr (s : State) (reason off : Nat) : State :=
  (s.wr (rtr 0x058) (word (2 ^ 31 + reason * 65536 + off / 1024 % 65536))).raise pRtr 3

/-- Reads complete to the host in the order in which they were issued (R276). -/
def remoteFlush : Nat → State → State
  | 0, s => s
  | n + 1, s =>
    match s.lat.remotes with
    | [] => s
    | r :: _ =>
      let mine := s.lat.remotes.filter (·.read = r.read)
      if mine.all (·.got.isSome) then
        let v := bytesNat (mine.flatMap fun m => m.got.getD [])
        let s1 := { s with lat := { s.lat with remotes := s.lat.remotes.filter (·.read != r.read) } }
        remoteFlush n (((s1.ret v).answer .ok).emit (.answer .host true v))
      else s

/-- A read is complete with all bytes 0xFF. -/
def remoteFail (s : State) (read : Nat) : State :=
  let f (m : Remote) : Remote := if m.read = read then { m with got := some (List.replicate m.len 0xFF) } else m
  let s1 := { s with lat := { s.lat with remotes := s.lat.remotes.map f } }
  remoteFlush (s1.lat.remotes.length) s1

/-- The end of a flit of this device that could not be delivered: a REQUEST with a TAG, or a STREAM flit of a channel. -/
def failed (s : State) (reason cls tag typ : Nat) : State :=
  if cls = 6 then
    match s.lat.remotes.find? (fun m => m.tag = tag && m.got.isNone) with
    | some m => (s.remoteErr reason m.off).remoteFail m.read
    | none => s.remoteErr reason (tabGet 0 s.lat.remoteOffs tag)
  else if cls = 8 && typ < 16 then s.streamStop typ reason
  else s

/-! ### Routing (R272 to R274) -/

/-- The direction in dimension `d` towards `dest`: none where no offset is left; else the port, and whether the other
direction is as short. -/
def dirTo (s : State) (dest : BitVec 16) (d : Nat) : Option (Nat × Bool) :=
  let e := s.extent d
  let off := (coord dest d + e - coord s.ownAddr d) % e
  if off = 0 then none
  else if 2 * off ≤ e then some (2 * d + 1, 2 * off = e)
  else some (2 * d, false)

/-- The choices of a detour, in the order of R273, when the next link in dimension order is that of dimension `d0`. -/
def detours (s : State) (dest : BitVec 16) (d0 : Nat) : List Nat :=
  let ds := List.range 4
  let half := ds.filterMap fun d => match s.dirTo dest d with | some (p, true) => some (p - 1) | _ => none
  let next := ((ds.filterMap fun d => if d0 < d then (s.dirTo dest d).map (·.1) else none)).take 1
  let free := match ds.find? (fun d => s.extent d != 1 && (s.dirTo dest d).isNone) with
    | some d => [2 * d + 1, 2 * d]
    | none => []
  half ++ next ++ free

/-- The next hop of a flit to another device, and whether it is a detour; none where no choice leads to an UP link. -/
def nextHop (s : State) (dest : BitVec 16) : Option (Nat × Bool) :=
  match (List.range 4).findSome? (fun d => (s.dirTo dest d).map (d, ·)) with
  | none => none
  | some (d, p, _) =>
    if s.linkUp p && s.present (s.neighbour s.ownAddr p) then some (p, false)
    else ((s.detours dest d).find? s.linkUp).map (·, true)

/-- The link of port `p` crosses the dateline (R270). -/
def dateline (s : State) (p : Nat) : Bool :=
  let c := coord s.ownAddr (p / 2)
  if p % 2 = 1 then c + 1 = s.extent (p / 2) else c = 0

/-- A flit of a routed class leaves towards DEST. -/
def route (f : Flit) (s : State) : State :=
  match s.nextHop f.dest with
  | none => s
  | some (p, det) =>
    let d := f.detour || det
    send p { f with detour := d, vc := f.vc || d || s.dateline p } (s.raiseIf det pRtr 5)

/-- The three header words of a flit (Table 9.2). -/
def flitHead (f : Flit) : Word × Word × Word :=
  (word (f.cls % 16 * 2 ^ 28 + f.epoch % 16 * 2 ^ 24 + f.typ % 256 * 65536 + f.lseq.toNat)
   , word (f.dest.toNat * 65536 + f.src.toNat)
   , word (f.hops % 64 * 2 ^ 26 + b2n f.detour * 2 ^ 25 + b2n f.vc * 2 ^ 24 + f.tag.toNat))

/-- The UNDELIVERABLE for a flit goes back to SRC; an UNDELIVERABLE is never answered (R275).
(DEDUCED: assumption 100) -/
def undeliver (s : State) (f : Flit) (reason : Nat) : State :=
  if f.cls = 7 then s
  else if f.src = s.ownAddr then (s.raise pRtr 7).failed reason f.cls f.tag.toNat f.typ
  else route { cls := 7, dest := f.src, src := s.ownAddr, tag := f.tag
               body := .undeliv reason (flitHead f).1 (flitHead f).2.1 (flitHead f).2.2 } s

/-- A routed flit at this device: delivered by `g` if it is the device's own, else forwarded, or discarded at
HOPS = 63 (R274). -/
def routed (f : Flit) (g : State → State) (s : State) : State :=
  if f.dest = s.ownAddr then g s
  else if f.hops = 63 then (s.raise pRtr 6).undeliver f 3
  else route (hopped f) s

/-- A flit of one of the classes of epoch 1 at its destination: another epoch is returned with VERSION (R298). -/
def epoch1 (f : Flit) (g : State → State) (s : State) : State :=
  if f.epoch = 1 then g s else s.undeliver f 1

/-- A flit of this device enters the lattice: ABSENT and NO_ROUTER are answered locally (R274, Table 9.5), a flit to
the device itself is `g`'s. -/
def launch (f : Flit) (g : State → State) (s : State) : State :=
  if !s.isOn pRtr then s.failed 6 f.cls f.tag.toNat f.typ
  else if f.dest = s.ownAddr then g s
  else if !(List.range 8).any s.linkUp then s.failed 6 f.cls f.tag.toNat f.typ
  else if !s.present f.dest then s.failed 2 f.cls f.tag.toNat f.typ
  else route f s

/-- An UNDELIVERABLE at its source: the failed flit's CLASS, TAG and TYPE stand in its header. -/
def undelivered (f : Flit) (s : State) : State :=
  match f.body with
  | .undeliv reason w0 _ w2 => (s.raise pRtr 7).failed reason (fld w0 31 28) (fld w2 15 0) (fld w0 23 16)
  | _ => s

/-! ### Remote reads and writes (R276) -/

/-- The chunks of an access: offset and length, at most 32 bytes each. -/
def chunks : Nat → Nat → Nat → List (Nat × Nat)
  | 0, _, _ => []
  | n + 1, off, len => if len = 0 then [] else (off, min 32 len) :: chunks n (off + 32) (len - 32)

/-- A REQUEST for one chunk, under TAG `t`. -/
def requestFor (s : State) (write : Bool) (t off len : Nat) (data : List Byte) : Flit :=
  { cls := 6, dest := BitVec.ofNat 16 (s.rf (rtr 0x050) 15 0), src := s.ownAddr
    tag := BitVec.ofNat 16 t, body := .request write off len data }

/-- The chunks of an access, each under its TAG, are listed: those of a read `read` await their bytes. -/
def remoteList (s : State) (write : Bool) (read : Nat) (cs : List (Nat × Nat × Nat)) : State :=
  let m (e : Nat × Nat × Nat) : Remote := { read := read, tag := e.1, off := e.2.1, len := e.2.2, since := s.now }
  { s with lat := { s.lat with
      remotes := s.lat.remotes ++ (if write then [] else cs.map m)
      remoteTag := (s.lat.remoteTag + cs.length) % 65536
      remoteOffs := cs.foldl (fun o e => tabPut o e.1 e.2.1) s.lat.remoteOffs } }

/-- One chunk is sent; `base` is the access's offset. A read that has failed sends no more. -/
def remoteChunk (g : Flit → State → State) (write : Bool) (base : Nat) (data : List Byte) (c : Nat × Nat × Nat) (s : State) :
    State :=
  let f := s.requestFor write c.1 c.2.1 c.2.2 ((data.drop (c.2.1 - base)).take c.2.2)
  if write || s.lat.remotes.any (fun m => m.tag = c.1 && m.got.isNone) then launch f (g f) s else s

/-- A BAR4 offset that the window lists (R443). -/
def bar4Ok (off : Nat) : Bool := off < 0x200000 || (0x400000 ≤ off && off < 0x4000000)

/-- A host access through BAR4; `g` serves a REQUEST for the device's own address. -/
def remoteAccess (g : Flit → State → State) (write : Bool) (off len : Nat) (data : List Byte) (s : State) : State :=
  if !s.pwr.serving then s.answer .ur
  else if !bar4Ok off then
    (if write then s.answer .ok
     else ((s.ret (256 ^ len - 1)).answer .ok).emit (.answer .host true (256 ^ len - 1)))
  else
    let n := s.lat.remoteReads
    let s1 := { s with lat := { s.lat with remoteReads := if write then n else n + 1 } }
    let cs := (chunks (len / 32 + 1) off len).zipIdx.map fun e => ((s.lat.remoteTag + e.2) % 65536, e.1)
    forEach cs (remoteChunk g write off data) ((s1.answer .ok).remoteList write n cs)

/-- A RESPONSE at its destination. -/
def responded (f : Flit) (s : State) : State :=
  match f.body with
  | .response data =>
    let hit (m : Remote) : Bool := m.tag = f.tag.toNat && m.got.isNone
    match s.lat.remotes.find? hit with
    | none => s
    | some m =>
      let rs := s.lat.remotes.map fun x => if x = m then { x with got := some (data.take m.len) } else x
      remoteFlush rs.length { s with lat := { s.lat with remotes := rs } }
  | _ => s

/-- REMOTE_TIMEOUT: a read without its RESPONSE within REMOTE_TMO. -/
def remoteTimeout (s : State) : State :=
  match s.lat.remotes.find? (fun m => m.got.isNone && m.since + us (s.rf (rtr 0x054) 15 0) ≤ s.now) with
  | none => s
  | some m => (s.remoteErr 5 m.off).remoteFail m.read

/-! ### Streams (R278) -/

def stream (s : State) (ch : Nat) : Stream := tabGet {} s.lat.streams ch
def setStream (s : State) (ch : Nat) (x : Stream) : State :=
  { s with lat := { s.lat with streams := tabPut s.lat.streams ch x } }
def strCfg (s : State) (ch : Nat) : Word := s.rd (rtr (0x100 + 4 * ch))

/-- Units that stand in turn are delivered, from the window of those received ahead. -/
def streamDrain : Nat → Nat → State → State
  | 0, _, s => s
  | n + 1, ch, s =>
    let x := s.stream ch
    match x.buf.find? (·.1 = x.rxNext) with
    | none => s.setStream ch { x with gapSince := if x.buf.isEmpty then none else some (x.gapSince.getD s.now) }
    | some (_, ws) =>
      streamDrain n ch (s.setStream ch { x with
        buf := x.buf.filter (·.1 != x.rxNext), rxNext := (x.rxNext + 1) % 65536, gapSince := none, ready := x.ready ++ [ws] })

/-- A STREAM flit at its destination. -/
def streamIn (f : Flit) (s : State) : State :=
  let ch := f.typ
  let c := s.strCfg ch
  if 15 < ch || !bit c 31 || fld c 15 0 != f.src.toNat then s.undeliver f 4
  else if !nbit (s.rf (rtr 0x05C) 15 0) f.epoch then s.undeliver f 1
  else if s.rb (rtr (0x140 + 4 * ch)) 31 then s
  else match f.body with
    | .words ws =>
      let x := s.stream ch
      let ahead := (f.tag.toNat + 65536 - x.rxNext) % 65536
      if 16 ≤ ahead || x.buf.any (·.1 = f.tag.toNat) then s
      else (streamDrain 17 ch (s.setStream ch { x with buf := x.buf ++ [(f.tag.toNat, ws)] })).streamDeliver (fld c 26 20)
    | _ => s

/-- A unit pushed at the lane port: READY reads 0 while no credit is left. When a used credit comes back is not stated: beyond the
first 16 units a push is taken or not. (DESIGN CHOICE: assumption 104) -/
def streamSend (r ch : Nat) (ws : List Word) (s : State) : State :=
  let c := s.strCfg ch
  let x := s.stream ch
  if !bit c 31 || fld c 26 20 != r || s.rb (rtr (0x140 + 4 * ch)) 31 then s.answer .retry
  else if x.credits = 0 && !s.freeBool then s.drew.answer .retry
  else
    let q := s.rf (rtr (0x140 + 4 * ch)) 15 0
    let f : Flit := { cls := 8, epoch := fld c 19 16, typ := ch, dest := BitVec.ofNat 16 (fld c 15 0), src := s.ownAddr
                      tag := BitVec.ofNat 16 q, body := .words ((ws ++ List.replicate 12 0).take 12) }
    let s1 := ((if x.credits = 0 then s.drew else s).setStream ch { x with credits := x.credits - 1 }).wf
      (rtr (0x140 + 4 * ch)) 15 0 (q + 1)
    (launch f (streamIn f) s1).answer .ok

/-- STREAM_PUSH, a request of the lane port for the router (R175, R179). -/
def streamPush (s : State) (r ch : Nat) (ws : List Word) : State := portReq r 7 pRtr (.stream ch ws) (streamSend r ch ws) s

/-- STREAM_GAP_TIMEOUT: the spec names no reason code for a gap. (DESIGN CHOICE: assumption 105) -/
def streamGap (s : State) (ch : Nat) : State :=
  if (s.stream ch).gapSince.any (fun t => t + us 100 ≤ s.now) then
    ((s.setStream ch { s.stream ch with gapSince := none }).streamStop ch (1 + s.freeNat % 6)).drew
  else s

/-- A write of STREAM_CFGn: EN going from 0 to 1 starts the channel from sequence 0. (DEDUCED: assumption 106) -/
def streamCfg (ch : Nat) (v : Word) (s : State) : State :=
  let s1 := s.wr (rtr (0x100 + 4 * ch)) (v &&& 0x87FFFFFF)
  if 96 ≤ fld v 26 20 then s.refuseAns pRtr .range
  else if bit v 31 && !bit (s.strCfg ch) 31 then (s1.setStream ch {}).wr (rtr (0x140 + 4 * ch)) 0
  else s1

end State

/-! ### The commands -/

/-- LINK_UP (R265). -/
def execLinkUp (t n : Nat) (id : PeerId) : State → Host.Outcome State Fault Refusal := run t (·.trained n id)
/-- TRAINING_TIMEOUT (R265). -/
def execTrainingTimeout (t n : Nat) (id : Option PeerId) : State → Host.Outcome State Fault Refusal :=
  run t (·.trainingTimeout n id)
/-- LINK_DOWN (R265). -/
def execLinkDown (t n : Nat) (clock : Bool) : State → Host.Outcome State Fault Refusal := run t (·.linkFail n clock)
/-- CRC_ERR (R267). -/
def execCrcErr (t n : Nat) (q : Option (BitVec 16)) : State → Host.Outcome State Fault Refusal := run t (·.crcErr n q)
/-- A flit of a reserved class, or a GONG or CARILLON flit of a reserved TYPE: it is received and discarded (R270, R297). -/
def reservedFlit (f : Flit) : Bool :=
  f.cls = 0 || 8 < f.cls || (f.cls = 1 && (f.typ = 0 || 2 < f.typ)) || (f.cls = 2 && (f.typ = 0 || 7 < f.typ))

/-- UNKNOWN (R270, R297). -/
def execUnknown (t n : Nat) (f : Flit) : State → Host.Outcome State Fault Refusal :=
  run t (when (reservedFlit f) (State.receive n f id))
/-- RESPONSE_FLIT (R276). -/
def execResponseFlit (t n : Nat) (f : Flit) : State → Host.Outcome State Fault Refusal :=
  run t (when (f.cls = 5) (State.receive n f (State.routed f (State.epoch1 f (State.responded f)))))
/-- UNDELIVERABLE (R275). -/
def execUndeliverable (t n : Nat) (f : Flit) : State → Host.Outcome State Fault Refusal :=
  run t (when (f.cls = 7) (State.receive n f (State.routed f (State.epoch1 f (State.undelivered f)))))
/-- STREAM_FLIT (R278). -/
def execStreamFlit (t n : Nat) (f : Flit) : State → Host.Outcome State Fault Refusal :=
  run t (when (f.cls = 8) (State.receive n f (State.routed f (State.streamIn f))))
/-- STREAM_PUSH (R278). -/
def execStreamPush (t r ch : Nat) (ws : List Word) : State → Host.Outcome State Fault Refusal :=
  run t (·.streamPush r ch ws)
/-- STREAM_GAP_TIMEOUT (R278). -/
def execStreamGapTimeout (t ch : Nat) : State → Host.Outcome State Fault Refusal := run t (·.streamGap ch)
/-- STREAM_ENABLE (R278). -/
def execStreamEnable (t : Nat) (a : Agent) (ch : Nat) (v : Word) : State → Host.Outcome State Fault Refusal :=
  run t (gateW a pRtr (State.streamCfg ch v))
/-- REMOTE_TIMEOUT (R276). -/
def execRemoteTimeout (t : Nat) : State → Host.Outcome State Fault Refusal := run t (·.remoteTimeout)
/-- CENSUS_SEND (R279). -/
def execCensusSend (t : Nat) : State → Host.Outcome State Fault Refusal := run t (·.censusSend)
/-- CENSUS_FLIT (R279). -/
def execCensusFlit (t n : Nat) (f : Flit) : State → Host.Outcome State Fault Refusal :=
  run t (when (f.cls = 4) (State.receive n f fun s =>
    match f.body with
    | .census c =>
      let fresh := (s.lat.census.find? (·.1 = c.addr.toNat)).all fun e => decide (e.2.seen + ms 5 ≤ s.now)
      let s1 := s.diamPut f.hops
      if c.addr = s.ownAddr then s1
      else State.epoch1 f (·.censusPut c) (s1.passOn n f fresh)
    | _ => s))
/-- LINK_NOTICE (R279). -/
def execLinkNotice (t n : Nat) (f : Flit) : State → Host.Outcome State Fault Refusal :=
  run t (when (f.cls = 4) (State.receive n f fun s =>
    match f.body with
    | .notice peer =>
      let fresh := (s.lat.census.find? (·.1 = peer.toNat)).any fun e => !e.2.notices.contains f.src
      if f.src = s.ownAddr then s
      else State.epoch1 f (·.noticeLink f.src peer) (s.passOn n f fresh)
    | _ => s))
/-- CENSUS_TIMEOUT (R279). -/
def execCensusTimeout (t : Nat) (a : BitVec 16) : State → Host.Outcome State Fault Refusal := run t (·.censusTimeout a)

end Sys2Proof.Machine
end

