-- ==== Sys2Proof/Machine/Carillon.lean ====
section
/-! DEFINITION. Machine/Carillon.lean: lattice time, the root and the tree, global domains, the compatibility word, Peal
and Gong (R282 to R297). -/
namespace Sys2Proof.Machine

/-- Word `i` (3 to 14) of a flit's payload (Tables 9.8, 9.9). -/
def flitW (f : Flit) (i : Nat) : Nat :=
  match f.body with
  | .words ws => (ws.getD (i - 3) 0).toNat
  | _ => 0

/-- Two payload words as one number. -/
def flitW2 (f : Flit) (i : Nat) : Nat := flitW f i + 2 ^ 32 * flitW f (i + 1)

/-- 2 µs of lattice time, in time steps. -/
def beatSteps : Nat := 102400

namespace State

def car (off : Nat) : Nat := reg pCar off

/-- CAR_STAT.ROLE: 0 OFF, 1 ELECTING, 2 FOLLOWER, 3 ROOT. -/
def role (s : State) : Nat := s.rf (car 0x044) 31 29
def lockedTime (s : State) : Bool := s.rb (car 0x044) 28
def rootAddr (s : State) : Nat := s.rf (car 0x044) 15 0
def treeHops (s : State) : Nat := s.rf (car 0x044) 23 16
def parent (s : State) : Nat := s.rf (car 0x044) 26 24
def eligible (s : State) : Bool := s.rb (car 0x040) 0

/-- CAR_STAT written whole. -/
def setCar (s : State) (role : Nat) (locked : Bool) (parent hops root : Nat) : State :=
  s.wr (car 0x044) (word (role * 2 ^ 29 + b2n locked * 2 ^ 28 + parent * 2 ^ 24 + hops % 256 * 65536 + root))

/-- A CARILLON flit of this device (Table 9.9). (DEDUCED: assumption 114) -/
def carFlit (s : State) (typ : Nat) (ws : List Nat) : Flit :=
  { cls := 2, epoch := 0, typ := typ, dest := 0xFFFF, src := s.ownAddr
    body := .words ((ws.map word ++ List.replicate 12 0).take 12) }

/-- The device's lattice time (R282). -/
def ltime (s : State) : Int := (s.devTime : Int) + s.lat.ltOff

/-- The two words of a time or of a signed number. -/
def two (x : Int) : List Nat := [unsigned 64 x % 2 ^ 32, unsigned 64 x / 2 ^ 32]

/-! ### Link delay (R283) -/

def carUse (s : State) (n : Nat) : Bool := s.rb (preg n 0x040) 0

/-- Carillon and Peal may use the link. -/
def usable (s : State) (n : Nat) : Bool :=
  s.linkUp n && s.carUse n && !s.rb (preg n 0x044) 19 && decide (64 ≤ (s.port n).exchanges)

def usablePorts (s : State) : List Nat := (List.range 8).filter s.usable

/-- SYNC_SEND: every 2 µs on an UP link with CARILLON_USE. -/
def syncSend (s : State) (n : Nat) : State :=
  if s.linkUp n && s.carUse n && (s.port n).lastSync + us 2 ≤ s.now then
    send n (s.carFlit 2 (two s.devTime))
      (s.setPort n { s.port n with lastSync := s.now, syncOut := some s.devTime })
  else s

/-- A SYNC is answered with an ECHO. (DEDUCED: assumption 110) -/
def syncIn (s : State) (n : Nat) : State :=
  if s.carUse n then send n (s.carFlit 3 (two s.devTime ++ two s.devTime)) s else s

/-- An ECHO ends an exchange: half of the round trip less the turnaround, less half of CABLE_ASYM, in 1/1250 of a time
step; DELAY shows the mean of the last 64. -/
def echoIn (s : State) (n : Nat) (f : Flit) : State :=
  match (s.port n).syncOut with
  | none => s
  | some out =>
    let x := s.port n
    let trip : Int := (s.devTime : Int) - out - ((flitW2 f 5 : Int) - flitW2 f 3)
    let one := 625 * trip - 32 * signed 16 (s.rf (preg n 0x040) 31 16)
    let ds := (one :: x.delays).take 64
    let mean := s.roundFree ds.sum (1250 * ds.length)
    let long : Bool := 25600 * 1250 * (ds.length : Int) < ds.sum
    let was := s.rb (preg n 0x044) 19
    let s1 := mean.2.setPort n { x with syncOut := none, exchanges := x.exchanges + 1, delays := ds }
    ((s1.wr (preg n 0x04C) (word (unsigned 24 mean.1))).wb (preg n 0x044) 19 long).raiseIf (long && !was) (pPort n) 5

/-! ### The tree and the root (R284) -/

/-- A new beat: the tree's links at this device are the parent port and the ports whose far end sent no copy of the last
beat. -/
def formTree (s : State) (parent : Option Nat) : State :=
  forEach (List.range 8) (fun n s =>
    let x := s.port n
    (s.wb (preg n 0x044) 18 (s.usable n && (parent = some n || !x.beatIn))).setPort n { x with beatIn := false }) s

/-- A better copy of the present beat: the parent port changes. -/
def swapParent (s : State) (n : Nat) : State := (s.wb (preg s.parent 0x044) 18 false).wb (preg n 0x044) 18 true

/-- No link is in the tree. -/
def clearTree (s : State) : State := forEach (List.range 8) (fun n s => s.wb (preg n 0x044) 18 false) s

/-- The REROOT claim: granted at once, or refused where another activity holds CARILLON. (DEDUCED: assumption 112) -/
def rerootClaim (s : State) : Bool × State :=
  match s.clashing [resUnit pCar] with
  | some (c, i) => (false, (s.setHolder c.number c.agent c.activity i).raise pLedger 2)
  | none => (true, { s with ledger := { s.ledger with reroot := true } })

/-- The REROOT claim is released. -/
def rerootEnd (s : State) : State :=
  if s.ledger.reroot then ({ s with ledger := { s.ledger with reroot := false } }).raise pLedger 3 else s

/-- The device enters ELECTING after its root is lost: its LATTICE domains hold their velocity (R41), and their LOCKED stays
until LAT_HOLDOVER ends it. (DESIGN CHOICE: assumption 191) -/
def enterElecting (s : State) (lost : Nat) : State :=
  let s1 := s.rerootEnd.clearTree.raiseIf s.lockedTime pCar 3
  let hold (d : Nat) (s : State) : State :=
    if s.isOn (pDom d) && s.srcType d = 4 && (s.dom d).current then s.setDom d { s.dom d with holdover := true } else s
  let s2 := forEach (List.range 16) hold s1
  let s3 := { s2 with lat := { s2.lat with electSince := s.now, lostRoot := some lost, lastLost := some lost } }
  let c := s3.rerootClaim
  if c.1 then (c.2.setCar 1 false 0 0 s.rootAddr).raise pCar 1 else c.2.setCar 0 false 0 0 s.rootAddr

/-- The device stands out of the lattice: it takes no part in an election. -/
def carOut (s : State) : State := ((s.clearTree.raiseIf s.lockedTime pCar 3)).setCar 0 false 0 0 s.rootAddr

/-- A re-root `f` under its claim: the one held, or one made now; where that is refused, the device stands out of the lattice (R23,
R284). -/
def rerooting (f : State → State) (s : State) : State :=
  if s.ledger.reroot then f s
  else
    let c := s.rerootClaim
    if c.1 then f c.2 else c.2.carOut

/-- An eligible device with a lower address than this one, other than `ex`, is listed. -/
def lowerListed (s : State) (ex : Option Nat) : Bool :=
  s.lat.census.any fun e => e.2.info.eligible && e.1 < s.ownAddr.toNat && ex != some e.1

/-- The device becomes root from lattice instant `from_` on. -/
def becomeRoot (s : State) (from_ : Nat) : State :=
  let a := s.ownAddr.toNat
  let old := s.rootAddr
  let was := s.lockedTime
  let s1 := (s.rerootEnd.setCar 3 true 0 0 a).formTree none
  let s2 := { s1 with lat := { s1.lat with beatFrom := from_, lostRoot := none } }
  (s2.raiseIf (old != a) pCar 0).raiseIf (!was) pCar 2

/-- The next 2 µs instant of lattice time. -/
def nextBeat (s : State) : Nat := (s.ltime.toNat / beatSteps + 1) * beatSteps

/-- In ELECTING, the lowest eligible device becomes root. -/
def tryRoot (s : State) : State :=
  if s.role = 1 && s.eligible && s.lat.lostRoot != some s.ownAddr.toNat && !s.lowerListed s.lat.lostRoot then
    s.rerooting (·.becomeRoot s.nextBeat)
  else s

/-- ELECTION_TIMEOUT: no root heard for 8 µs. -/
def electionTimeout (s : State) : State :=
  if s.isOn pCar && s.role = 1 && s.lat.electSince + us 8 ≤ s.now then s.tryRoot else s

/-- BEAT_TIMEOUT: no BEAT for 8 µs; ROOT_LOST is flooded. -/
def beatTimeout (s : State) : State :=
  if s.isOn pCar && s.role = 2 && s.lat.lastBeat + us 8 ≤ s.now then
    let lost := s.rootAddr
    let f := s.carFlit 5 [lost]
    ((forEach s.usablePorts (fun n s => send n f s) s).enterElecting lost).tryRoot
  else s

/-- A ROOT_LOST flit; one that names the root lost last, which is root no more, is a late copy of its flood.
(DEDUCED: assumption 111) -/
def rootLostIn (s : State) (n : Nat) (f : Flit) : State :=
  let lost := flitW f 3 % 65536
  if s.isOn pCar && 1 ≤ s.role && ((2 ≤ s.role && s.rootAddr = lost) || s.lat.lastLost != some lost) then
    let us := s.usablePorts.filter (· != n)
    ((forEach us (fun n s => send n (hopped f) s) s).enterElecting lost).tryRoot
  else s

/-- A BEAT of this device, `hops` from the root. -/
def beatFlit (s : State) (root hops : Nat) : Flit :=
  s.carFlit 1 (two s.ltime ++ [root, (s.rd (car 0x048)).toNat, hops])

/-- BEAT_SEND: the root's BEAT, every 2 µs. -/
def beatSend (s : State) : State :=
  if s.isOn pCar && s.role = 3 && (s.lat.beatFrom : Int) ≤ s.ltime then
    let f := s.beatFlit s.ownAddr.toNat 0
    let s1 := forEach s.usablePorts (fun n s => send n f s) (s.formTree none)
    { s1 with lat := { s1.lat with beatFrom := s.nextBeat } }
  else s

/-- A BEAT of `root` on port `n` is the first copy of a new beat: the root is another, or the port has brought a copy of the
present beat. (DEDUCED: assumption 108) -/
def newBeat (s : State) (n root : Nat) : Bool := s.role != 2 || root != s.rootAddr || (s.port n).beatIn

/-- Whether a BEAT from `root` that would put this device `hops` from it by port `n` is followed: the first copy of a beat, and
within a beat the fewest hops and then the lowest port. (DEDUCED: assumption 108) -/
def beatFollowed (s : State) (n root hops : Nat) : Bool :=
  let fresh : Bool := s.now < s.lat.lastBeat + us 3
  if s.role = 3 then root < s.ownAddr.toNat
  else if s.role = 1 then s.lat.lostRoot != some root
  else if s.role = 2 then
    if root = s.rootAddr then s.newBeat n root || hops < s.treeHops || (hops = s.treeHops && n < s.parent)
    else !fresh || root < s.rootAddr
  else false

/-- The compatibility word changes (R287). -/
def setCompat (s : State) (w : Word) : State :=
  if s.rd (car 0x048) = w then s else (s.wr (car 0x048) w).raise pCar 7

/-- A beat of the root `root` that came in at port `n` over `hops` hops is followed: lattice time, parent and compatibility are
taken from it, and it goes on (R282, R284, R285, R287). -/
def followBeat (n root hops : Nat) (f : Flit) (new : Bool) (s : State) : State :=
  let lt : Int := (flitW2 f 3 : Int) + s.rf (preg n 0x04C) 23 0
  let err := if s.lockedTime then s.roundFree ((s.ltime - lt) * 625) 32 else (0, s)
  let oldRoot := s.rootAddr
  let was := s.lockedTime
  let s0 := err.2.wr (car 0x058) (word (unsigned 32 err.1))
  let s1 := if new then s0.formTree (some n) else s0.swapParent n
  let s2 := { s1 with lat := { s1.lat with
    ltOff := lt - s1.devTime, lastBeat := s.now, beatSeen := true, lostRoot := none } }
  let s3 := ((s2.setCar 2 true n hops root).rerootEnd.raiseIf (oldRoot != root) pCar 0).raiseIf (!was) pCar 2
  let s4 := s3.setCompat (word (flitW f 6))
  let g := { s4.beatFlit root hops with src := f.src, hops := (hopped f).hops }
  forEach (s4.usablePorts.filter (· != n)) (fun n s => send n g s) s4

/-- A BEAT on port `n`. (DEDUCED: assumption 107) -/
def beatIn (s0 : State) (n : Nat) (f : Flit) : State :=
  let root := flitW f 5 % 65536
  let hops := flitW f 7 % 256 + 1
  if !(s0.isOn pCar && s0.usable n) then s0
  else
    let new := s0.newBeat n root
    let brought (s : State) : State := s.setPort n { s.port n with beatIn := true }
    if !s0.beatFollowed n root hops then brought s0
    else if s0.role = 1 || root != s0.rootAddr then brought (s0.rerooting (followBeat n root hops f new))
    else brought (followBeat n root hops f new s0)

/-- ROOT_HANDOVER: a lower eligible device has been listed for 10 ms. ROOT shows it from its first BEAT on. -/
def rootHandover (s : State) : State :=
  let next := (s.lat.census.filter fun e =>
    e.2.info.eligible && decide (e.1 < s.ownAddr.toNat) && decide (e.2.since + ms 10 ≤ s.now)).map (·.1)
  match next with
  | a :: _ =>
    if s.isOn pCar && s.role = 3 then
      s.rerooting fun s =>
        let s1 := sendTree none (s.carFlit 6 ([a] ++ two s.nextBeat)) s
        { s1 with lat := { s1.lat with lastBeat := s.now } }.setCar 2 true 0 0 s.rootAddr
    else s
  | [] => s

/-- A HANDOVER flit: the device it names begins its beats at the instant it carries. -/
def handoverIn (s : State) (n : Nat) (f : Flit) : State :=
  if !(s.isOn pCar && s.role = 2) then s
  else if flitW f 3 % 65536 = s.ownAddr.toNat then s.rerooting (·.becomeRoot (flitW2 f 4))
  else sendTree (some n) (hopped f) s

/-- CARILLON goes ON, and OFF. -/
def carStart (s : State) : State :=
  (({ s with lat := { s.lat with electSince := s.now, lostRoot := none } }).setCar 1 false 0 0 s.rootAddr).raise pCar 1
def carStop (s : State) : State :=
  s.rerootEnd.carOut

/-! ### Global domains (R286) -/

/-- The latest SEGMENT of a global domain. -/
def gseg (s : State) (g : Nat) : Option GSeg := (s.lat.gdoms.find? (·.1 = g)).map (·.2)

def pubEn (s : State) (d : Nat) : Bool := s.rb (car (0x100 + 4 * d)) 31
def pubGdom (s : State) (d : Nat) : Nat := s.rf (car (0x100 + 4 * d)) 7 0

/-- A SEGMENT takes the place of the one kept and feeds the domains that follow it. -/
def segmentHere (s : State) (g : Nat) (x : GSeg) : State :=
  let s1 := { s with lat := { s.lat with gdoms := tabPut s.lat.gdoms g x } }
  forEach (List.range 16) (fun d s =>
    if s.isOn (pDom d) && s.srcType d = 4 && s.srcGdom d = g then s.latticeFeed d x else s) s1

/-- The acceleration a SEGMENT carries: that of a SHAFT domain whose ramp still runs. -/
def segAcc (s : State) (d : Nat) : Int :=
  let j := (s.dom d).traj
  if s.srcType d = 2 && !(j.cap.any fun g => capped j g s.now) then j.acc else 0

/-- SEGMENT_SEND: the present trajectory of a publishing domain, at most once per 2 µs for each global domain.
(PRESUMED: assumption 113) -/
def segmentSend (s : State) (d : Nat) : State :=
  let g := s.pubGdom d
  let rested := match s.lat.segSent.find? (·.1 = g) with | some (_, t) => decide (t + us 2 ≤ s.now) | none => true
  if s.isOn (pDom d) && s.pubEn d && s.treeStands && rested then
    let m := s.modulus d
    let x : GSeg := {
      pos := s.posAt d s.now, cyc := s.cycAt d s.now, vel := s.velNow d
      acc := s.segAcc d
      modulus := if m = 2 ^ 40 then 0 else m, ltime := s.ltime.toNat, publisher := s.ownAddr, arrived := s.now }
    let f := s.carFlit 4 ([g] ++ two x.pos ++ [x.cyc] ++ two x.vel ++ [unsigned 32 x.acc] ++ two (x.modulus * 4096) ++ two x.ltime)
    let s1 := sendTree none f { s with lat := { s.lat with segSent := tabPut s.lat.segSent g s.now } }
    s1.segmentHere g x
  else s

/-- A SEGMENT flit. -/
def segmentIn (s : State) (n : Nat) (f : Flit) : State :=
  if !s.isOn pCar then s
  else
    let g := flitW f 3 % 256
    let x : GSeg := {
      pos := flitW2 f 4, cyc := flitW f 6, vel := signed 64 (flitW2 f 7), acc := signed 32 (flitW f 9)
      modulus := flitW2 f 10 / 4096, ltime := flitW2 f 12, publisher := f.src, arrived := s.now }
    (sendTree (some n) (hopped f) s).segmentHere g x

/-- A write of PUBn. (DEDUCED: assumption 115) -/
def pubWrite (d : Nat) (v : Word) (s : State) : State :=
  let g := fld v 7 0
  let here := (List.range 16).any fun e => e != d && s.pubEn e && s.pubGdom e = g
  let away := s.gdomCurrent g && (s.gseg g).any (·.publisher != s.ownAddr)
  if bit v 31 && (here || away) then
    ((s.wr (car (0x100 + 4 * d)) (v &&& 0xFF)).refuseAns pCar .conflict).raise pCar 8
  else s.wr (car (0x100 + 4 * d)) (v &&& 0x800000FF)

/-- The checks of a CARILLON enable (R300, R286). -/
def carCheck (s : State) : Option Reason :=
  if !s.isOn pRtr then some .dependency
  else if (List.range 16).any (fun d => s.pubEn d && s.gdomCurrent (s.pubGdom d) &&
      (s.gseg (s.pubGdom d)).any (·.publisher != s.ownAddr)) then some .conflict
  else none

/-- GDOM_INFO of the global domain that GDOM_SEL names. (DESIGN CHOICE: assumption 17) -/
def gdomInfo (s : State) : Word :=
  let g := s.rf (car 0x060) 7 0
  match s.gseg g with
  | none => 0
  | some x =>
    let d := if x.publisher = s.ownAddr then ((List.range 16).find? fun d => s.pubEn d && s.pubGdom d = g).getD 0
             else Config.remoteDomain g x.publisher % 16
    word (b2n (s.gdomCurrent g) * 2 ^ 31 + d * 65536 + x.publisher.toNat)

/-! ### The compatibility word (R287) -/

/-- A write of LATTICE_COMPAT: to the root, or before any BEAT into the register. (DEDUCED: assumption 118) -/
def compatWrite (v : Word) (s : State) : State :=
  if !s.isOn pCar then s
  else if s.role = 3 || !s.lat.beatSeen then s.setCompat v
  else if s.role = 2 then send s.parent (s.carFlit 7 [v.toNat]) s
  else s

/-- A COMPAT_SET flit: adopted by the root, passed towards it by the others. -/
def compatIn (s : State) (f : Flit) : State :=
  if !s.isOn pCar then s
  else if s.role = 3 then s.setCompat (word (flitW f 3))
  else if s.role = 2 then send s.parent (hopped f) s
  else s

/-- A read of LTIME_LO latches LTIME_HI. What it reads while the device holds no lattice time is not stated.
(DESIGN CHOICE: assumption 119) -/
def ltimeRead (s : State) : State :=
  let v := if s.lockedTime then unsigned 64 s.ltime else if s.isOn pCar then s.freeNat % 2 ^ 64 else 0
  ((s.drew.wr (car 0x050) (word v)).wr (car 0x054) (word (v / 2 ^ 32))).ret (v % 2 ^ 32)

/-! ### Peal (R288 to R291) -/

def desc (n off : Nat) : Nat := car (0x400 + 16 * n + off)

/-- The lead L of a global domain's SEGMENT, in whole pos (R289). -/
def lead (s : State) (x : GSeg) : Nat :=
  let time := s.latDiam * (ns 36 + s.dMax * timeStep) + us 2
  max 1 ((x.vel.natAbs * time + (1000 * second - 1)) / (1000 * second))

/-- GDOM_LEAD, saturating. -/
def gdomLead (s : State) : Word :=
  match s.gseg (s.rf (car 0x060) 7 0) with
  | none => 0
  | some x => word (min (s.lead x) 0xFFFFFFFF)

/-- A Peal as it is sent: global domain, total position in fine units, mark, target mask and address. -/
def pealOf (s : State) (n : Nat) (total : Int) : HeldPeal :=
  { desc := n, gdom := s.rf (desc n 8) 7 0, total := total, mark := s.rf (desc n 8) 21 16
    mask := BitVec.ofNat 16 (s.rf (desc n 12) 31 16), addr := BitVec.ofNat 16 (s.rf (desc n 12) 15 0) }

/-- The word of PEAL_RESULT after a refusal, whose low half is `low`. -/
def refusal (low n : Nat) (r : Reason) (short : Bool) : Word :=
  word (r.code * 2 ^ 24 + b2n short * 2 ^ 23 + n * 65536 + low)

/-- A sending refused (R290). -/
def pealRefuse (s : State) (n : Nat) (r : Reason) (short : Bool) : State :=
  (s.wr (car 0x204) (refusal (s.rf (car 0x204) 15 0) n r short)).raise pCar 4

/-- The checks of a sending, and the total position T it carries (R288, R290). A Peal accepted while a re-root is under
way has no LOCKED to show. -/
def pealForm (s : State) (n p : Nat) : Except (Reason × Bool) Int :=
  match s.gseg (s.rf (desc n 8) 7 0) with
  | none => .error (.dependency, false)
  | some x =>
    let whole := if x.modulus = 0 then 2 ^ 40 else x.modulus
    let l : Int := (s.lead x * 4096 : Nat) * posUnit
    let pNow := trajAt (s.gsegTraj x) s.now
    let m : Int := (whole * 4096 : Nat) * posUnit
    let pf : Int := (p : Int) * posUnit
    if !s.isOn pCar || !(s.lockedTime || s.ledger.reroot) || !s.gdomCurrent (s.rf (desc n 8) 7 0) then .error (.dependency, false)
    else if whole * 4096 ≤ p then .error (.range, false)
    else if s.rb (desc n 8) 23 then
      (if pf < l then .error (.range, true) else .ok (pNow + pf))
    else .ok (pf + m * ((pNow + l - pf + m - 1) / m))

/-- A Peal at a domain that follows its global domain (R291). A mark armed with TRIGGER POSITION counts as not armed for it.
(DEDUCED: assumption 69, DESIGN CHOICE: assumption 181) -/
def pealMark (w : HeldPeal) (d : Nat) (s : State) : State :=
  if !(s.isOn (pDom d) && s.srcType d = 4 && s.srcGdom d = w.gdom) then s
  else
    let m := w.mark
    let x := s.dom d
    if !(s.armed d m && bit (s.markCtrl d m) 3) then s.raise (pDom d) 15
    else if w.total ≤ s.totalAt d s.now then
      (if fld (s.markCtrl d m) 2 1 = 0 && x.committed.any (·.mark = m) then s else s.commitFiring d m true none)
    else s.setDom d { x with peals := x.peals ++ [{ mark := m, total := w.total }] }

/-- A Peal at this device. -/
def pealHere (w : HeldPeal) (s : State) : State :=
  if s.ownAddr &&& w.mask != w.addr &&& w.mask then s
  else
    let ds := (List.range 16).filter fun d => s.isOn (pDom d) && s.srcType d = 4 && s.srcGdom d = w.gdom
    forEach ds (fun d s => pealMark w d s) ((s.raise pCar 5).raiseIf ds.isEmpty pCar 6)

/-- A Peal goes out along the tree (R290). -/
def pealOut (w : HeldPeal) (s : State) : State :=
  let q := (s.lat.pealSeq + 1) % 65536
  let a := s.ownAddr
  let f : Flit := { cls := 3, dest := 0xFFFF, src := a, body := .peal w.gdom w.total w.mark w.mask w.addr (BitVec.ofNat 16 q) }
  let s1 := { s with lat := { s.lat with pealSeq := q, pealSeen := tabPut s.lat.pealSeen a.toNat q } }
  let s2 := (s1.wf (car 0x204) 15 0 (s.rf (car 0x204) 15 0 + 1)).raise pCar 9
  pealHere w (sendTree none f s2)

/-- A sending of descriptor `n`, with its own position or one that replaces it (R288, R160).
(DEDUCED: assumption 116) -/
def pealSend (n : Nat) (pos : Option Nat) (s : State) : State :=
  match s.pealForm n (pos.getD (s.posPair (desc n 0) (desc n 4))) with
  | .error (r, short) => s.pealRefuse n r short
  | .ok t =>
    let w := s.pealOf n t
    if s.treeStands then pealOut w s else { s with lat := { s.lat with held := s.lat.held ++ [w] } }

/-- A write of PEAL_SEND. -/
def pealWrite (v : Word) (s : State) : State := if bit v 4 then s.pealSend (fld v 3 0) none else s

/-- A held Peal is released: its lead is checked again (R290). -/
def pealFree (w : HeldPeal) (s : State) : State :=
  match s.gseg w.gdom with
  | none => s.pealRefuse w.desc .dependency false
  | some x =>
    if !s.gdomCurrent w.gdom then s.pealRefuse w.desc .dependency false
    else if w.total < trajAt (s.gsegTraj x) s.now + (s.lead x * 4096 : Nat) * posUnit then s.pealRefuse w.desc .range true
    else pealOut w s

/-- PEAL_RELEASE. -/
def pealRelease (s : State) : State :=
  if s.treeStands && s.lockedTime then
    forEach s.lat.held pealFree { s with lat := { s.lat with held := [] } }
  else s

/-- A Peal flit: a sequence already seen from its sender is discarded (R290). -/
def pealIn (s : State) (n : Nat) (f : Flit) : State :=
  match f.body with
  | .peal g total mark mask addr seq =>
    let last := s.lat.pealSeen.find? (·.1 = f.src.toNat)
    let new := match last with
      | none => true
      | some (_, q) => let d := (seq.toNat + 65536 - q) % 65536; decide (0 < d ∧ d < 32768)
    if !s.isOn pCar || !new then s
    else
      let s1 := { s with lat := { s.lat with pealSeen := tabPut s.lat.pealSeen f.src.toNat seq.toNat } }
      pealHere { desc := 0, gdom := g, total := total, mark := mark % 64, mask := mask, addr := addr }
        (sendTree (some n) (hopped f) s1)
  | _ => s

/-! ### Gong (R292 to R296) -/

/-- The device itself pulls ABORT_N low. -/
def drivesAbort (s : State) : Bool := s.gong && s.rb (rtr 0x060) 2

/-- A Gong flit (Table 9.8). -/
def gongFlit (s : State) (typ : Nat) (id : BitVec 32) (cause : Nat) : Flit :=
  { cls := 1, epoch := 0, typ := typ, dest := 0xFFFF, src := s.ownAddr
    body := .words ([word id.toNat, word cause] ++ List.replicate 10 0) }

/-- Every listed pin parks or leaves its park, with what the protocol blocks make of it. -/
def gongPins (f : State → Nat → State) (s : State) : State := forEach (s.pins.map (·.1)) (fun i s => f s i) s

/-- A Gong is in force from now on (R294); the pins park at the first pin-cycle boundary after it (R116). -/
def gongEnter (id : BitVec 32) (cause : Nat) (s : State) : State :=
  let s0 := if s.gong then s
    else lagBy true (s.pins.map (·.1)) (·.wr (rtr 0x064) 1) (s.gongPins parkStart)
  let s1 := (s0.wr (rtr 0x068) (word id.toNat)).wr (rtr 0x06C) (word cause)
  let s2 := { s1 with lat := { s1.lat with
    gongs := (id :: s1.lat.gongs).take 64, cleared := false, clears := s1.lat.clears.filter (· != id) } }
  ((s2.gongStop.disarmAll).quietSync).raise pRtr 0

/-- A Gong is rung by this device (R292). -/
def gongRing (cause : Nat) (s : State) : State :=
  let q := (s.lat.gongSeq + 1) % 65536
  let id : BitVec 32 := BitVec.ofNat 32 (s.ownAddr.toNat * 65536 + q)
  let s1 := { s with lat := { s.lat with gongSeq := q } }
  gongEnter id cause (flood none (s1.gongFlit 1 id cause) s1)

/-- The Gong ends at the first instant at which its three conditions hold (R295). -/
def gongCheck (s : State) : State :=
  let quietPin : Bool := !s.rb (rtr 0x060) 3 || !s.lat.abortLow || s.drivesAbort
  if s.gong && s.lat.cleared && quietPin && !s.rb (rtr 0x060) 0 then
    ((lagPins (s.pins.map (·.1)) (fun s => (s.wr (rtr 0x064) 0).gongPins parkRest) s).quietSync).raise pRtr 1
  else s

/-- A CLEAR names an identity. -/
def gongCleared (s : State) (id : BitVec 32) : State :=
  let mine : Bool := id = BitVec.ofNat 32 (s.rd (rtr 0x068)).toNat
  let s1 := { s with lat := { s.lat with
    clears := (id :: s.lat.clears).take 64, cleared := s.lat.cleared || mine } }
  s1.gongCheck

/-- A write of GONG_CTRL: CLEAR acts first, then RING; a cleared ABORT_IN_EN ends a filter under way (R292, R295,
R296). -/
def gongCtrl (v : Word) (s : State) : State :=
  let id : BitVec 32 := BitVec.ofNat 32 (s.rd (rtr 0x068)).toNat
  let s1 := if bit v 1 then (flood none (s.gongFlit 2 id 0) s).gongCleared id else s
  let rise : Bool := bit v 0 && !s1.rb (rtr 0x060) 0
  let s2 := s1.wr (rtr 0x060) (v &&& 0xD)
  let s3 := if bit v 3 then s2 else { s2 with lat := { s2.lat with abortFall := none } }
  (if rise then gongRing 1 s3 else s3).gongCheck

/-- A RING flit: the first copy of an identity (R293). -/
def ringIn (s : State) (n : Nat) (f : Flit) : State :=
  let id : BitVec 32 := BitVec.ofNat 32 (flitW f 3)
  if s.lat.gongs.contains id then s
  else (gongEnter id (flitW f 4 % 16) (flood (some n) (hopped f) s)).gongCheck

/-- A CLEAR flit. (DEDUCED: assumption 117) -/
def clearIn (s : State) (n : Nat) (f : Flit) : State :=
  let id : BitVec 32 := BitVec.ofNat 32 (flitW f 3)
  (if s.lat.clears.contains id then s else flood (some n) (hopped f) s).gongCleared id

/-- ABORT_N falls (R296). -/
def abortFall (s : State) : State :=
  let starts := s.rb (rtr 0x060) 3 && !s.drivesAbort
  { s with lat := { s.lat with abortLow := true, abortFall := if starts then some s.now else none } }

/-- ABORT_N rises (R295, R296). -/
def abortRise (s : State) : State :=
  ({ s with lat := { s.lat with abortLow := false, abortFall := none } }).gongCheck

/-- ABORT_FILTER_EXPIRY: the level has stayed low for 100 ns. -/
def abortExpiry (s : State) : State :=
  if s.lat.abortFall.any (fun t => t + ns 100 ≤ s.now) then
    gongRing 2 { s with lat := { s.lat with abortFall := none } }
  else s

end State

/-! ### The commands -/

/-- A CARILLON flit of one TYPE on port `n`. -/
def carRow (n : Nat) (f : Flit) (typ : Nat) (g : State → State) : State → State :=
  when (f.cls = 2 && f.typ = typ) (State.receive n f g)

/-- SYNC_SEND (R283). -/
def execSyncSend (t n : Nat) : State → Host.Outcome State Fault Refusal := run t (·.syncSend n)
/-- SYNC (R283). -/
def execSync (t n : Nat) (f : Flit) : State → Host.Outcome State Fault Refusal := run t (carRow n f 2 (·.syncIn n))
/-- ECHO (R283). -/
def execEcho (t n : Nat) (f : Flit) : State → Host.Outcome State Fault Refusal := run t (carRow n f 3 (·.echoIn n f))
/-- BEAT_SEND (R284). -/
def execBeatSend (t : Nat) : State → Host.Outcome State Fault Refusal := run t (·.beatSend)
/-- BEAT (R284). -/
def execBeat (t n : Nat) (f : Flit) : State → Host.Outcome State Fault Refusal := run t (carRow n f 1 (·.beatIn n f))
/-- ELECTION_TIMEOUT (R284). -/
def execElectionTimeout (t : Nat) : State → Host.Outcome State Fault Refusal := run t (·.electionTimeout)
/-- BEAT_TIMEOUT (R284). -/
def execBeatTimeout (t : Nat) : State → Host.Outcome State Fault Refusal := run t (·.beatTimeout)
/-- ROOT_LOST (R284). -/
def execRootLost (t n : Nat) (f : Flit) : State → Host.Outcome State Fault Refusal := run t (carRow n f 5 (·.rootLostIn n f))
/-- ROOT_HANDOVER (R284). -/
def execRootHandover (t : Nat) : State → Host.Outcome State Fault Refusal := run t (·.rootHandover)
/-- HANDOVER (R284). -/
def execHandover (t n : Nat) (f : Flit) : State → Host.Outcome State Fault Refusal := run t (carRow n f 6 (·.handoverIn n f))
/-- SEGMENT_SEND (R286). -/
def execSegmentSend (t d : Nat) : State → Host.Outcome State Fault Refusal := run t (·.segmentSend d)
/-- SEGMENT (R286). -/
def execSegment (t n : Nat) (f : Flit) : State → Host.Outcome State Fault Refusal := run t (carRow n f 4 (·.segmentIn n f))
/-- PUB_ENABLE (R286). -/
def execPubEnable (t : Nat) (a : Agent) (d : Nat) (v : Word) : State → Host.Outcome State Fault Refusal :=
  run t (gateW a pCar (State.pubWrite d v))
/-- LATTICE_COMPAT_WRITE (R287). -/
def execLatticeCompatWrite (t : Nat) (a : Agent) (v : Word) : State → Host.Outcome State Fault Refusal :=
  run t (gateW a pCar (State.compatWrite v))
/-- COMPAT_SET (R287). -/
def execCompatSet (t n : Nat) (f : Flit) : State → Host.Outcome State Fault Refusal := run t (carRow n f 7 (·.compatIn f))
/-- LTIME_LO_READ (R282). -/
def execLtimeLoRead (t : Nat) : State → Host.Outcome State Fault Refusal := run t (gateR pCar (·.ltimeRead))
/-- PEAL_SEND (R290). -/
def execPealSend (t : Nat) (a : Agent) (v : Word) : State → Host.Outcome State Fault Refusal :=
  run t (gateW a pCar (State.pealWrite v))
/-- PEAL_RELEASE (R290). -/
def execPealRelease (t : Nat) : State → Host.Outcome State Fault Refusal := run t (·.pealRelease)
/-- PEAL_FLIT (R291). -/
def execPealFlit (t n : Nat) (f : Flit) : State → Host.Outcome State Fault Refusal :=
  run t (when (f.cls = 3) (State.receive n f (·.pealIn n f)))
/-- RING (R292). -/
def execRing (t : Nat) (a : Agent) (v : Word) : State → Host.Outcome State Fault Refusal :=
  run t (gateP a pRtr (State.gongCtrl v))
/-- CLEAR (R295). -/
def execClear (t : Nat) (a : Agent) (v : Word) : State → Host.Outcome State Fault Refusal :=
  run t (gateP a pRtr (State.gongCtrl v))
/-- GONG_RING_FLIT (R293). -/
def execGongRingFlit (t n : Nat) (f : Flit) : State → Host.Outcome State Fault Refusal :=
  run t (when (f.cls = 1 && f.typ = 1) (State.receive n f (·.ringIn n f)))
/-- GONG_CLEAR_FLIT (R295). -/
def execGongClearFlit (t n : Nat) (f : Flit) : State → Host.Outcome State Fault Refusal :=
  run t (when (f.cls = 1 && f.typ = 2) (State.receive n f (·.clearIn n f)))
/-- ABORT_N_FALL (R296). -/
def execAbortNFall (t : Nat) : State → Host.Outcome State Fault Refusal := run t (·.abortFall)
/-- ABORT_FILTER_EXPIRY (R296). -/
def execAbortFilterExpiry (t : Nat) : State → Host.Outcome State Fault Refusal := run t (·.abortExpiry)
/-- ABORT_N_RISE (R295). -/
def execAbortNRise (t : Nat) : State → Host.Outcome State Fault Refusal := run t (·.abortRise)

end Sys2Proof.Machine
end

