-- ==== Sys2Proof/Machine/Protocol.lean ====
section
/-! DEFINITION. Machine/Protocol.lean: the commands of the protocol blocks and of the user lanes
(10_host_protocol_blocks.md). -/
namespace Sys2Proof.Machine
namespace State

/-! ### The host's registers (R320) -/

/-- A write of TX_H0 to TX_H5: TX_H0 rewinds TX_DATA. With FIFO_PATH = FABRIC the registers take no writes. -/
def txHeader (p k : Nat) (v : Word) (s : State) : State :=
  if s.fabricPath p then s
  else
    let s1 := s.wr (reg p (0x060 + 4 * k)) v
    if k = 0 then s1.setProto p { s1.proto p with txData := [] } else s1

/-- A write of TX_DATA. -/
def txDataWrite (p : Nat) (v : Word) (s : State) : State :=
  if s.fabricPath p then s
  else s.setProto p { s.proto p with txData := (s.proto p).txData ++ [v] }

/-- A write of TX_CTRL: ABORT, then PUSH. -/
def txCtrl (p : Nat) (v : Word) (s : State) : State :=
  if s.fabricPath p then s
  else
    let s1 := if bit v 1 then s.txAbortAll p else s
    if bit v 0 then
      let h := (List.range 6).map fun k => s1.rd (reg p (0x060 + 4 * k))
      let r := s1.txPushEntry p h (s1.proto p).txData
      if r.1 then r.2.answer .refused else r.2
    else s1

/-- The data words of an entry. -/
def entryWords (e : Entry) : List Word := (List.range ((e.data.length + 3) / 4)).map fun i => bytesWord (e.data.drop (4 * i))

/-- RX_CTRL.POP: the oldest entry into RX_H0 to RX_H5. -/
def rxCtrl (p : Nat) (v : Word) (s : State) : State :=
  if s.fabricPath p || !bit v 0 then s
  else match (s.proto p).rx with
    | [] => s
    | e :: r =>
      let s1 := s.setProto p { s.proto p with rx := r, rxData := entryWords e }
      forEach (List.range 6) (fun k s => s.wr (reg p (0x080 + 4 * k)) (e.h.getD k 0)) s1

/-- A read of RX_DATA: the next word, 0 past LENGTH. -/
def rxData (p : Nat) (s : State) : State :=
  if s.fabricPath p then s.ret 0
  else match (s.proto p).rxData with
    | [] => s.ret 0
    | w :: r => (s.setProto p { s.proto p with rxData := r }).ret w.toNat

/-- A read of PSTAT clears RX_LOST. -/
def pstatRead (p : Nat) (s : State) : State := (s.ret (s.pstatVal p).toNat).wf (reg p 0x04C) 23 16 0

/-! ### The region's port (R320) -/

/-- A word pushed through the protocol port: an entry is complete with its header and its data words. -/
def portPush (s : State) (r p : Nat) (w : Word) : State :=
  let x := s.proto p
  let b := x.build ++ [w]
  if b.length < 6 + (dataLen p (b.getD 0 0) + 3) / 4 then s.setProto p { x with build := b }
  else
    let q := (s.setProto p { x with build := [] }).txPushEntry p (b.take 6) (b.drop 6)
    if q.1 then q.2.portAns r .refused else q.2

/-- A word popped through the protocol port. An empty FIFO presents nothing. (DEDUCED: assumption 131) -/
def portPop (s : State) (r p : Nat) : State :=
  let x := s.proto p
  match x.unload with
  | w :: ws => (s.setProto p { x with unload := ws }).toRegion r w.toNat
  | [] =>
    match x.rx with
    | e :: rest => (s.setProto p { x with rx := rest, unload := e.h.tail ++ entryWords e }).toRegion r (e.h.getD 0 0).toNat
    | [] => s.answer .retry

/-- PROTOCOL_PORT_REQUEST: the FIFOs of a FABRIC-path block serve the region that PCFG names. -/
def protoPort (s : State) (r p : Nat) (push : Bool) (w : Word) : State :=
  if !protoPages.contains p || !s.fabricPath p || s.protoRegion p != r then s.portAns r .refused
  else if push then s.portPush r p w else s.portPop r p

/-! ### CAN error counters (PRESUMED: ISO 11898-1, which R316 names) -/

/-- (PRESUMED: assumption 127) -/
def canErr (p : Nat) : Nat := reg p 0x10C

/-- STATE follows the counters: error-passive above 127, bus-off above 255, with their events. At bus-off every queued
entry ends with BUS_OFF. -/
def canSync (s : State) (p : Nat) : State :=
  let tec := s.rf (canErr p) 24 16
  let rec' := s.rf (canErr p) 15 8
  let old := s.rf (canErr p) 1 0
  let new := if 256 ≤ tec then 2 else if 128 ≤ tec || 128 ≤ rec' then 1 else 0
  let s1 := s.wf (canErr p) 1 0 new
  let s2 := s1.raiseIf (new = 1 && old = 0) p 8
  if new = 2 && old != 2 then
    let x := s2.proto p
    forEach x.tx (fun e s => s.txEnd p e psBusOff e.began) ((s2.setProto p { x with tx := [] }).raise p 9)
  else s2

/-- A transmission went well or ended in an error. -/
def canTx (s : State) (p : Nat) (ok : Bool) : State :=
  let tec := s.rf (canErr p) 24 16
  (s.wf (canErr p) 24 16 (if ok then tec - 1 else min 511 (tec + 8))).canSync p

/-- A reception went well or ended in an error. -/
def canRx (s : State) (p : Nat) (ok : Bool) : State :=
  let n := s.rf (canErr p) 15 8
  (s.wf (canErr p) 15 8 (if ok then (if 127 < n then 127 else n - 1) else min 255 (n + 1))).canSync p

/-- The block is bus-off. -/
def busOff (s : State) (p : Nat) : Bool := blockOf p = some .can && s.rf (canErr p) 1 0 = 2

/-! ### Receiving (R319, R322, Table 10.15) -/

/-- A received CAN frame passes the acceptance filters. -/
def canAccepts (s : State) (p : Nat) (ide : Bool) (id : Word) : Bool :=
  let on := (List.range 32).filter fun k => s.rb (reg p (0x200 + 8 * k)) 31
  on.isEmpty || on.any fun k =>
    let f := s.rd (reg p (0x200 + 8 * k))
    bit f 30 = ide && (((id ^^^ f) &&& s.rd (reg p (0x204 + 8 * k))) &&& 0x1FFFFFFF) = 0

/-- A received Ethernet frame passes the address filters. -/
def ethAccepts (s : State) (p : Nat) (data : List Byte) : Bool :=
  let dst := data.take 6
  let mac := wordBytes (s.rd (reg p 0x104)) ++ (wordBytes (s.rd (reg p 0x108))).take 2
  s.rb (reg p 0x100) 4 ||
    (if (dst.headD 0).getLsbD 0 then
      let h := bits (ethCrc dst) 31 26
      bit (s.rd (reg p (0x10C + 4 * (h / 32)))) (h % 32)
     else dst = mac)

/-- What a LIN responder does with a frame ID (LIN_RESPk): ignores it, publishes its bytes, or receives.
(DEDUCED: assumption 128) -/
def linAnswers (s : State) (p k : Nat) : Option Bool :=
  let w := s.rd (reg p (0x200 + 4 * k))
  if s.rb (reg p 0x100) 0 then (if bit w 31 then some (bit w 30) else none) else some false

/-- The bytes that a LIN responder publishes, and their checksum. -/
def linPublish (s : State) (p k : Nat) : State :=
  let n := s.rf (reg p (0x200 + 4 * k)) 3 0
  let bs := wordBytes (s.rd (reg p (0x300 + 8 * k))) ++ wordBytes (s.rd (reg p (0x304 + 8 * k)))
  s.emit (.frame p [word k] (bs.take n ++ [linSum (s.rb (reg p (0x200 + 4 * k)) 29) k (bs.take n)]))

/-- The block keeps the frame. -/
def keepsFrame (s : State) (p : Nat) (fr : Frame) : Bool :=
  match blockOf p with
  | some .can => s.canAccepts p (fr.pflags.getLsbD 2) fr.id
  | some .lin => s.linAnswers p (fr.id.toNat % 64) = some false && !fr.pflags.getLsbD 4
  | some .eth => s.ethAccepts p fr.data
  | _ => true

/-- The RX entry of a received frame. -/
def frameEntry (s : State) (p : Nat) (fr : Frame) : Entry :=
  let st := s.stampWords p fr.start
  let kind := if fr.status.val = psOk then 1 else 3
  { h := word (kind * 2 ^ 28 + fr.length % 4096 * 65536 + fr.status.val * 256 + 128 * b2n st.2 + fr.pflags.toNat)
      :: fr.id :: st.1
    data := fr.data }

/-- A frame that failed its check is kept when ERR_KEEP is 1, else discarded. -/
def storeFrame (s : State) (p : Nat) (fr : Frame) : State :=
  if fr.status.val = psOk then s.rxStore p (s.frameEntry p fr)
  else
    let s1 := s.raise p 6
    if s.rb (reg p 0x040) 19 then s1.rxStore p (s1.frameEntry p fr) else s1

/-- An SGMII block: lane 8 + i, whose number is the page's less 0x0A0, serves it alone (R315). -/
def ethLane (s : State) (p : Nat) : Bool := blockOf p = some .eth && s.sgmii p

/-- The block hears nothing: a receive pin that it has lost gives a frozen value (R112), a SENT transmitter has no receive pin, and
near-end loopback or PRBS takes the line from an SGMII block (R315). -/
def deaf (s : State) (p : Nat) : Bool :=
  ((s.protoHeard p).any fun i => s.owner i != protoCode p && (s.pin i).seen.any (·.1 = protoCode p))
    || (blockOf p = some .sent && s.rb (reg p 0x100) 0)
    || (s.ethLane p && (s.rf (lreg (p - 0x0A0) 0x040) 8 7 = 1 || s.rf (lreg (p - 0x0A0) 0x040) 6 5 != 0))

/-- The checksum of a frame is the enhanced one: as LIN_RESPk says for a responder, as its header asked for a commander. -/
def linEnhanced (s : State) (p : Nat) (fr : Frame) : Bool :=
  if s.rb (reg p 0x100) 0 then s.rb (reg p (0x200 + 4 * (fr.id.toNat % 64))) 29 else fr.pflags.getLsbD 5

/-- The status that a frame ends with: what the bus showed, else the outcome of the block's own checks of length, checksum, CRC and FCS
(Table 10.11). -/
def frameStatus (s : State) (p : Nat) (fr : Frame) : Nat :=
  let good (b : Bool) : Nat := if b then psOk else psCheck
  if fr.status.val != psOk then fr.status.val
  else match blockOf p with
    | some .lin =>
      good (fr.pflags.getLsbD 4 || fr.check.setWidth 8 = linSum (s.linEnhanced p fr) (fr.id.toNat % 64) fr.data)
    | some .sent =>
      good (fr.pflags.getLsbD 5
        || decide (fld fr.id 7 4 = sentCrc (s.rb (reg p 0x100) 3) (sentNibbles fr.length fr.data)))
    | some .eth =>
      if fr.data.length < 60 || 1518 < fr.data.length then psFormat else good (fr.check.toNat = ethCrc fr.data)
    | _ => psOk

/-- The frame with the status that the block gives it. -/
def frameJudged (s : State) (p : Nat) (fr : Frame) : Frame :=
  { fr with status := ⟨s.frameStatus p fr % 8, Nat.mod_lt _ (by decide)⟩ }

/-- Whether a LIN responder's sync field or a SENT receiver's calibration pulse is accepted (R316, Table 10.15). With AUTOBAUD = 0 the
spec gives no tolerance. (DESIGN CHOICE: assumption 210) -/
def calOk (s : State) (p : Nat) (fr : Frame) : Bool × State :=
  match blockOf p with
  | some .lin =>
    if !s.rb (reg p 0x100) 0 then (true, s)
    else if s.rb (reg p 0x100) 1 then (decide (1000 ≤ fr.cal) && decide (fr.cal ≤ 20000), s)
    else if fr.cal = s.rf (reg p 0x104) 14 0 then (true, s)
    else (s.freeBool, s.drew)
  | some .sent =>
    let near (a b k : Nat) : Bool := decide (k * (max a b - min a b) ≤ b)
    (near fr.cal (56 * s.rf (reg p 0x104) 16 0) 4 && (s.proto p).cal.all (near fr.cal · 64)
      , s.setProto p { s.proto p with cal := some fr.cal })
  | _ => (true, s)

/-- A received PAUSE frame lets no frame start for its quanta of 512 bit times, while PAUSE_EN is 1 (R316). -/
def pauseTake (s : State) (p : Nat) (fr : Frame) : State :=
  if blockOf p = some .eth && fr.pflags.getLsbD 5 && fr.status.val = psOk && s.rb (reg p 0x100) 3 then
    let quanta := (fr.data.getD 16 0).toNat * 256 + (fr.data.getD 17 0).toNat
    let bitT := ns 100 / 10 ^ s.rf (reg p 0x100) 1 0
    s.setProto p { s.proto p with pause := (s.now, s.now + quanta * 512 * bitT) }
  else s

/-- A frame that has been received and judged: what the block does on the bus, its events, and its RX entry. -/
def frameIn (s : State) (p : Nat) (fr : Frame) : State :=
  let ok : Bool := fr.status.val = psOk
  let s1 := match blockOf p with
    | some .can =>
      let s0 := s.canRx p ok
      if s.rb (reg p 0x100) 3 then s0 else s0.emit (.canAck p ok)
    | some .lin =>
      let k := fr.id.toNat % 64
      if fr.pflags.getLsbD 4 && s.linAnswers p k = some true then s.linPublish p k else s
    | some .eth => (((s.raiseIf (fr.pflags.getLsbD 5) p 9).raiseIf (fr.status.val = psCheck) p 11)).pauseTake p fr
    | _ => s
  if s1.keepsFrame p fr then s1.storeFrame p fr else s1

/-- FRAME_RECEIVED. -/
def frameReceived (s : State) (p : Nat) (fr : Frame) : State :=
  if !s.protoLive p || s.busOff p || s.deaf p then s
  else
    let c := s.calOk p fr
    if c.1 then c.2.frameIn p (c.2.frameJudged p fr)
    else c.2.raise p (if blockOf p = some .lin then 10 else 8)

/-! ### Sending (R319) -/

/-- The block may start a frame at instant `t`: a listen-only CAN block sends none, a SENT block in receive mode only short PWM code
requests, an Ethernet block only PAUSE frames while a received PAUSE holds (R316). -/
def maySend (s : State) (p : Nat) (e : Entry) (t : Nat) : Bool :=
  match blockOf p with
  | some .can => !s.rb (reg p 0x100) 3
  | some .sent => s.rb (reg p 0x100) 0 || s.rb (reg p 0x100) 2
  | some .eth => let b := (s.proto p).pause; bit (e.h.getD 0 0) 5 || decide (t < b.1) || decide (b.2 ≤ t)
  | _ => true

/-- An entry as its frame stands on the bus: with its LIN checksum, SENT CRC and pause flag, or Ethernet FCS (R316). -/
def onLine (s : State) (p : Nat) (e : Entry) : List Word × List Byte :=
  let h0 := e.h.getD 0 0
  let h1 := e.h.getD 1 0
  match blockOf p with
  | some .lin => (e.h, if bit h0 4 then [] else e.data ++ [linSum (bit h0 5) (fld h1 5 0) e.data])
  | some .sent =>
    (setBit h0 3 (s.rb (reg p 0x100) 1) ::
      setFld h1 7 4 (sentCrc (s.rb (reg p 0x100) 3) (sentNibbles (fld h0 27 16) e.data)) :: e.h.drop 2, e.data)
  | some .eth => (e.h, e.data ++ natBytes 4 (ethCrc e.data))
  | _ => (e.h, e.data)

/-- The frame of an entry goes out; an SGMII block's only while its lane sends no PRBS. -/
def frameOut (s : State) (p : Nat) (e : Entry) : State :=
  if blockOf p = some .sent && !s.rb (reg p 0x100) 0 then s.emit (.spcRequest p)
  else if s.ethLane p && s.rf (lreg (p - 0x0A0) 0x040) 6 5 != 0 then s
  else s.emit (.frame p (s.onLine p e).1 (s.onLine p e).2)

/-- Near-end loopback of an SGMII block's lane: it receives what it sent (R315). -/
def ethLoop (s : State) (p : Nat) (e : Entry) (start : Nat) : State :=
  if s.ethLane p && s.rf (lreg (p - 0x0A0) 0x040) 8 7 = 1 && s.rf (lreg (p - 0x0A0) 0x040) 6 5 = 0 then
    s.frameIn p { start := start, length := e.data.length, data := e.data
                  pflags := BitVec.ofNat 6 (32 * b2n (bit (e.h.getD 0 0) 5)) }
  else s

/-- The head's frame has ended on the bus with a status. A CAN block tries again after a lost arbitration or an error
unless ONESHOT is 1. -/
def frameSent (s : State) (p status start : Nat) : State :=
  if !s.protoLive p || s.busOff p then s
  else match (s.txHead p).filter fun e => s.maySend p e start with
    | none => s
    | some e =>
      let s0 := s.frameOut p e
      let can : Bool := blockOf p = some .can
      let again : Bool := can && (status = psBus || status = psArb) && !s.rb (reg p 0x100) 2
      let s1 := if again then s0.setProto p { s0.proto p with
            tx := { e with started := false, began := some start } :: (s0.proto p).tx.tail }
        else (s0.setProto p { s0.proto p with tx := (s0.proto p).tx.tail }).txEnd p e status (some start)
      if can && (status = psOk || status = psBus) then s1.canTx p (status = psOk)
      else if status = psOk then s1.ethLoop p e start
      else s1

/-- The first total position beyond the entry's push that is its scheduled one (R321, R28). -/
def atTarget (s : State) (p : Nat) (e : Entry) : Int :=
  let d := s.tsDom p
  let pos : Int := ((e.h.getD 2 0).toNat + 2 ^ 32 * (e.h.getD 3 0).toNat : Nat) * posUnit
  pos + ((e.ref - pos) / s.modFine d + 1) * s.modFine d

/-- AT_CROSSING: the first held entry whose position has been crossed no longer waits. -/
def atCrossing (s : State) (p : Nat) : State :=
  let d := s.tsDom p
  let hit (e : Entry) : Bool := e.held && s.isOn (pDom d) && decide (s.atTarget p e ≤ s.armRef d)
  let x := s.proto p
  match x.tx.findIdx? hit with
  | some k => s.setProto p { x with tx := x.tx.modify k fun e => { e with held := false } }
  | none => s

/-- NO_RESPONSE: a LIN commander saw no responder data within the frame time; the header that it sent from the TX FIFO
ends with that status. -/
def noResponse (s : State) (p : Nat) (id : BitVec 6) (start : Nat) : State :=
  if !s.protoLive p || blockOf p != some .lin || s.rb (reg p 0x100) 0 then s
  else
    let s1 := match s.txHead p with
      | some e =>
        if bit (e.h.getD 0 0) 4 && fld (e.h.getD 1 0) 5 0 = id.toNat then
          (s.setProto p { s.proto p with tx := (s.proto p).tx.tail }).txEnd p e psNoResp (some start)
        else s
      | none => s
    (s1.raise p 9).storeFrame p { start := start, status := 3, id := id.setWidth 32, length := 0, data := [] }

/-- BUS_OFF_RECOVERED. -/
def busOffRecovered (s : State) (p : Nat) : State :=
  if s.isOn p && s.busOff p && s.rb (reg p 0x100) 1 then (s.wr (canErr p) 0).raise p 10 else s

/-- PROTOCOL_REJOIN: the condition of quiet has ended and the block rejoins its bus (R318). -/
def protoRejoin (s : State) (p : Nat) : State :=
  if s.isOn p && s.quiet p && !s.quietNow p then (s.wb (reg p 0x04C) 31 false).raise p 5 else s

/-- A write of ETH_MDIO: GO starts an operation, unless one runs. OP 3 is reserved. -/
def mdioWrite (p : Nat) (v : Word) (s : State) : State :=
  let r := reg p 0x114
  if s.rb r 31 then s
  else if fld v 29 28 = 3 then s.refuseAns p .range
  else
    let go : Bool := bit v 31 && s.protoLive p
    let s1 := s.wr r (setBit (v &&& 0xF3FFFFFF) 31 go)
    if go then s1.emit (.mdio p v) else s1

/-- MDIO_DONE. -/
def mdioDone (s : State) (p : Nat) (data : BitVec 16) : State :=
  let r := reg p 0x114
  if s.rb r 31 then
    let s1 := if s.rf r 29 28 = 2 then s.wf r 15 0 data.toNat else s
    (s1.wb r 31 false).raise p 10
  else s

/-! ### User lanes (R312 to R315) -/

def laneMode (s : State) (k : Nat) : Nat := s.rf (lreg k 0x040) 23 22

/-- A received word enters the RX FIFO, and is presented in the next free port cycle unless the ports park. -/
def laneRx (s : State) (k : Nat) (w : BitVec 72) : State :=
  let r := s.laneRegion k
  let held := s.laneHeld k
  if s.laneEth k then s
  else if 32 ≤ held.length then s.raise (pUlane k) 3
  else if s.regionParked r then s.setLane k { s.lane k with rx := held ++ [(0, w)] }
  else lanePresent r k [w] (s.setLane k { s.lane k with rx := held })

/-- One bit through the self-synchronising scrambler 1 + x^39 + x^58, or back (R313): the register holds the last line bits. -/
def scrambleBit (back : Bool) (st : Nat) (b : Bool) : Bool × Nat :=
  let o := b ^^ nbit st 38 ^^ nbit st 57
  (o, (2 * st + b2n (if back then b else o)) % 2 ^ 58)

/-- The 64 bits of a word through the scrambler, bit 0 first. -/
def scramble64 (back : Bool) (st : Nat) (w : Nat) : Nat × Nat :=
  (List.range 64).foldl (fun x i =>
    let r := scrambleBit back x.2 (nbit w i)
    (x.1 + b2n r.1 * 2 ^ i, r.2)) (0, st)

/-- SCRAMBLE acts: 64B66B only (R313). -/
def scrambles (s : State) (k : Nat) : Bool := s.laneMode k = 2 && s.rb (lreg k 0x040) 21

/-- What the PCS makes of the word that came on the line (Table 10.5): a bad code-group of 8B10B becomes K30.7, and the control bits
that a code does not use read 0; with the descrambler's next state. -/
def laneWordIn (s : State) (k : Nat) (w : BitVec 72) (bad : BitVec 8) : BitVec 72 × Nat :=
  let x := s.lane k
  let data := (w.extractLsb' 0 64).toNat
  let ctl := (w.extractLsb' 64 8).toNat
  match s.laneMode k with
  | 0 => (BitVec.ofNat 72 data, x.desc)
  | 2 =>
    let d := if s.scrambles k then scramble64 true x.desc data else (data, x.desc)
    (BitVec.ofNat 72 (d.1 + ctl % 4 * 2 ^ 64), d.2)
  | _ =>
    let byte (i : Nat) : Nat := if bad.getLsbD i then 0xFE else bits data (8 * i + 7) (8 * i)
    (BitVec.ofNat 72 (((List.range 8).map fun i => byte i * 256 ^ i).sum + (ctl ||| bad.toNat) * 2 ^ 64), x.desc)

/-- The code-group or sync-header errors of a received word. -/
def codeErrs (mode : Nat) (w : BitVec 72) (bad : BitVec 8) : Nat :=
  if mode = 0 then 0
  else if mode = 2 then b2n (w.getLsbD 64 == w.getLsbD 65)
  else popCount 8 bad.toNat

/-- The lane has what its code needs to make words of line bits: CDR lock, and alignment but for RAW (R313).
(DEDUCED: assumption 209) -/
def laneAligned (s : State) (k : Nat) : Bool :=
  let l := s.rf (lreg k 0x044) 31 30
  if s.laneMode k = 0 then 1 ≤ l else l = 2

/-- ULANE_RX_WORD: under PRBS the word is only checked against the pattern (R315). -/
def laneRxWord (s : State) (k : Nat) (w : BitVec 72) (errs : LaneErrs) : State :=
  let c := s.rd (lreg k 0x040)
  if !s.isOn (pUlane k) || fld c 8 7 = 1 || !s.laneAligned k then s
  else
    let n := codeErrs (s.laneMode k) w errs.bad
    let s1 := if fld c 6 5 != 0 then
        s.wr (lreg k 0x04C) (word (min (2 ^ 32 - 1) ((s.rd (lreg k 0x04C)).toNat + errs.bits)))
      else s.wf (lreg k 0x044) 15 0 (min 65535 (s.rf (lreg k 0x044) 15 0 + n))
    let s2 := if fld c 8 7 = 2 then s1.emit (.lane k w) else s1
    let r := s2.laneWordIn k w errs.bad
    laneRx (s2.setLane k { s2.lane k with desc := r.2 }) k r.1

/-- The idle that fills an underrun (Table 10.5): data below, control bits above. (PRESUMED: assumption 130) -/
def laneIdle (mode : Nat) : BitVec 72 :=
  match mode with
  | 1 => 0x5550BC50BC50BC50BC
  | 2 => 0x01000000000000001E
  | _ => 0

/-- One bit of the pattern of length 2^n − 1 whose newest bit is the sum of bits `n` and `m` ago. -/
def prbsBit (n m st : Nat) : Nat := (2 * st + b2n (nbit st (n - 1) ^^ nbit st (m - 1))) % 2 ^ n

/-- The next 64 bits of PRBS7 (x^7 + x^6 + 1) or PRBS31 (x^31 + x^28 + 1), bit 0 first, and the generator after them; a generator
that stands at 0 starts at 1. (PRESUMED: assumption 129) -/
def prbsWord (kind st : Nat) : Nat × Nat :=
  let n := if kind = 1 then 7 else 31
  let m := if kind = 1 then 6 else 28
  let st0 := if st % 2 ^ n = 0 then 1 else st % 2 ^ n
  (List.range 64).foldl (fun x i =>
    let y := prbsBit n m x.2
    (x.1 + y % 2 * 2 ^ i, y)) (0, st0)

/-- What stands on the line for a word of the TX FIFO or an idle, and the scrambler after it. -/
def laneWordOut (s : State) (k : Nat) (w : BitVec 72) : BitVec 72 × Nat :=
  let x := s.lane k
  if s.scrambles k then
    let d := scramble64 false x.scr (w.extractLsb' 0 64).toNat
    (BitVec.ofNat 72 (d.1 + (w.extractLsb' 64 8).toNat * 2 ^ 64), d.2)
  else (w, x.scr)

/-- The line takes a word of PRBS, in place of what the lane or the Ethernet MAC would send (R315). -/
def lanePrbs (s : State) (k : Nat) : State :=
  let r := prbsWord (s.rf (lreg k 0x040) 6 5) (s.lane k).prbs
  let s1 := s.setLane k { s.lane k with prbs := r.2 }
  if s.rf (lreg k 0x040) 8 7 = 0 then s1.emit (.lane k (BitVec.ofNat 72 r.1)) else s1

/-- ULANE_TX_WORD: the line takes a word. The FIFO's word is taken under PRBS too, which replaces it; near-end loopback hands it to
the receiver, far-end loopback sends what came instead. (PRESUMED: assumption 129) -/
def laneTxWord (s : State) (k : Nat) : State :=
  let c := s.rd (lreg k 0x040)
  let prbs : Bool := fld c 6 5 != 0
  if !s.isOn (pUlane k) then s
  else if s.laneEth k then (if prbs then s.lanePrbs k else s)
  else
    let x := s.lane k
    let w := x.tx.headD (laneIdle (s.laneMode k))
    let s1 := if x.tx.isEmpty then s.raise (pUlane k) 2 else s.setLane k { x with tx := x.tx.tail }
    if prbs then s1.lanePrbs k
    else if fld c 8 7 = 1 then s1.laneRx k w
    else
      let o := s1.laneWordOut k w
      let s2 := s1.setLane k { s1.lane k with scr := o.2 }
      if fld c 8 7 = 2 then s2 else s2.emit (.lane k o.1)

/-- ULANE_PUSH: a word of the region that the lane names. A lane of the Ethernet MAC refuses (R315). -/
def lanePush (s : State) (r k : Nat) (w : BitVec 72) : State :=
  let x := s.lane k
  if s.laneEth k || s.laneRegion k != r || !s.isOn (pUlane k) then s.portAns r .refused
  else if 32 ≤ x.tx.length then s.answer .retry
  else s.setLane k { x with tx := x.tx ++ [w] }

/-- ULANE_LOCK_CHANGE, with the measured reference frequency. -/
def laneLock (s : State) (k lk khz : Nat) : State :=
  let old := s.rf (lreg k 0x044) 31 30
  let s0 := s.wr (lreg k 0x048) (word khz)
  if !s.isOn (pUlane k) then s0
  else
    let s1 := ((s0.wf (lreg k 0x044) 31 30 lk).raiseIf (decide (old < lk)) (pUlane k) 0).raiseIf (decide (lk < old)) (pUlane k) 1
    if (old = 0) = (lk = 0) then s1 else s1.laneClocks k (lk != 0)

/-- The checks of a ULANE enable (R312, R315, Table 16.5), and the lower rate of speed grade 1 (R427). -/
def laneCheck (s : State) (k : Nat) : Option Reason :=
  let c := s.rd (lreg k 0x040)
  let khz := s.rf (lreg k 0x048) 18 0
  let n := fld c 20 12
  let d := fld c 11 9
  let vco := khz * n
  if n < 16 || 320 < n || 4 < d || (!bit c 31 && 96 ≤ fld c 30 24)
      || (khz != 0 && (vco < 8000000 || 32000000 < vco || vco / 2 ^ d < 1250000
        || (decide (25781250 < vco / 2 ^ d) && decide (speedGrade = 1)))) then some .range
  else if bit c 31 && (fld c 23 22 != 3 || k < 8) then some .inconsistent
  else if khz = 0 then some .clock
  else if !bit c 31 && 4 ≤ ((List.range 16).filter fun e =>
      e != k && s.isOn (pUlane e) && !s.laneEth e && s.laneRegion e = fld c 30 24).length then some .conflict
  else none

/-- A lane goes ON, its scramblers and PRBS generator in a state that the spec does not give; and OFF: it loses its lock.
(DESIGN CHOICE: assumption 215) -/
def laneStart (s : State) (k : Nat) : State :=
  let x := (Config.freeWord s.free).toNat
  (s.drewN 2).setLane k { s.lane k with
    last := s.now, scr := bits x 57 0, desc := bits x 115 58, prbs := bits (Config.freeWord (s.free + 1)).toNat 30 0 }
def laneStop (s : State) (k : Nat) : State := (s.wf (lreg k 0x044) 31 30 0).laneClocks k false

/-! ### Requests held over a self-test (R179) -/

/-- A held request of region `r` performed. -/
def portPerform (r : Nat) (q : PortReq) (s : State) : State :=
  match q with
  | .drive i oe lvl => s.pinDrive r i oe lvl
  | .push i w => s.txPush i w
  | .pop i => s.pinPop r i
  | .preset d k => s.portPreset r d k
  | .flags q mask => s.flagsFabric q mask.toNat
  | .strobe q => s.portStrobe q
  | .vec q g entry w v => s.portVec r q g entry w v
  | .access x => s.setRegion r { s.region r with accs := (s.region r).accs ++ [{ x with taken := s.now }] }
  | .deep k x => s.deepPortA r k x
  | .proto p push w => s.protoPort r p push w
  | .lane k w => s.lanePush r k w
  | .stream ch ws => s.streamSend r ch ws

/-- The first port cycle from the present on in which a port has taken no request. -/
def portFree (s : State) (r port : Nat) : Nat :=
  match (s.region r).took.find? (·.1 = port) with
  | some e => if s.now < nextAfter (s.portT r) e.2 then nextAfter (s.portT r) e.2 else s.now
  | none => s.now

/-- A held request of region `r` whose target is no longer under test is taken in its port's next free cycle (R175), an access only
while fewer than 4 are outstanding (R188), none while the ports park (R178). (DESIGN CHOICE: assumption 202) -/
def heldTake (r : Nat) (h : Hold) (s : State) : State :=
  let wide : Bool := match h.req with | .access _ => decide (4 ≤ (s.region r).accs.length) | _ => false
  if s.regionParked r || s.inSelftest h.page || wide then s
  else
    let t := s.portFree r h.port
    let s1 := s.setRegion r { s.region r with holds := (s.region r).holds.erase h }
    let s2 := ((portPerform r h.req (({ s1 with now := t }).answer .ok))).portTook r h.port
    { s2 with now := s.now }

/-- The held requests of region `r` that can be taken are, in the order in which they came. -/
def heldReady (r : Nat) (s : State) : State := forEach (s.region r).holds (heldTake r) s

/-- The self-test of the pages `ps` has ended: the requests held for them are released; one whose window is over receives
SELFTEST. -/
def heldServe (ps : List Nat) (s : State) : State :=
  forEach (List.range 96) (fun r s =>
    let over_ (h : Hold) : Bool := ps.contains h.page && decide (h.until_ ≤ s.now)
    let holds := (s.region r).holds
    if holds.isEmpty then s
    else heldReady r (forEach (holds.filter over_) (fun _ s => s.portAns r .selftest)
      (s.setRegion r { s.region r with holds := holds.filter fun h => !over_ h }))) s

/-- A read of ULANE_STAT clears CODE_ERR. -/
def laneStatRead (k : Nat) (s : State) : State := (s.ret (s.rd (lreg k 0x044)).toNat).wf (lreg k 0x044) 15 0 0

/-- A read of PRBS_ERR clears it. -/
def prbsRead (k : Nat) (s : State) : State := (s.ret (s.rd (lreg k 0x04C)).toNat).wr (lreg k 0x04C) 0

end State

/-- A protocol page of blocks that `f` admits. -/
def isProto (p : Nat) (b : Option Block := none) : Bool :=
  protoPages.contains p && (b.isNone || blockOf p = b)

/-! ### The commands -/

/-- TX_PUSH (R320). -/
def execTxPush (t : Nat) (a : Agent) (p : Nat) (v : Word) : State → Host.Outcome State Fault Refusal :=
  run t (when (isProto p) (gateW a p (State.txCtrl p v)))
/-- TX_ABORT (R320). -/
def execTxAbort (t : Nat) (a : Agent) (p : Nat) (v : Word) : State → Host.Outcome State Fault Refusal :=
  run t (when (isProto p) (gateW a p (State.txCtrl p v)))
/-- TX_DATA_WRITE (R320). -/
def execTxDataWrite (t : Nat) (a : Agent) (p : Nat) (v : Word) : State → Host.Outcome State Fault Refusal :=
  run t (when (isProto p) (gateW a p (State.txDataWrite p v)))
/-- RX_POP (R320). -/
def execRxPop (t : Nat) (a : Agent) (p : Nat) (v : Word) : State → Host.Outcome State Fault Refusal :=
  run t (when (isProto p) (gateW a p (State.rxCtrl p v)))
/-- RX_DATA_READ (R320). -/
def execRxDataRead (t p : Nat) : State → Host.Outcome State Fault Refusal :=
  run t (when (isProto p) (gateR p (State.rxData p)))
/-- PROTOCOL_PORT_REQUEST (R320). -/
def execProtocolPortRequest (t r p : Nat) (push : Bool) (w : Word) : State → Host.Outcome State Fault Refusal :=
  run t (State.portReq r 6 p (.proto p push w) (·.protoPort r p push w))
/-- PSTAT_READ (R324). -/
def execPstatRead (t p : Nat) : State → Host.Outcome State Fault Refusal :=
  run t (when (isProto p) (gateR p (State.pstatRead p)))
/-- FRAME_RECEIVED (R322). -/
def execFrameReceived (t p : Nat) (fr : Frame) : State → Host.Outcome State Fault Refusal :=
  run t (when (isProto p) (·.frameReceived p fr))
/-- FRAME_SENT (R319). -/
def execFrameSent (t p : Nat) (status : Fin 8) (start : Nat) : State → Host.Outcome State Fault Refusal :=
  run t (when (isProto p) (·.frameSent p status start))
/-- AT_CROSSING (R321). -/
def execAtCrossing (t p : Nat) : State → Host.Outcome State Fault Refusal := run t (when (isProto p) (·.atCrossing p))
/-- BUS_OFF_RECOVERED (R324). -/
def execBusOffRecovered (t p : Nat) : State → Host.Outcome State Fault Refusal :=
  run t (when (isProto p (some .can)) (·.busOffRecovered p))
/-- NO_RESPONSE (R319). -/
def execNoResponse (t p : Nat) (id : BitVec 6) (start : Nat) : State → Host.Outcome State Fault Refusal :=
  run t (when (isProto p (some .lin)) (·.noResponse p id start))
/-- WAKE (R324). -/
def execWake (t : Nat) (a : Agent) (p : Nat) (v : Word) : State → Host.Outcome State Fault Refusal :=
  run t (when (isProto p (some .lin)) (gateW a p fun s => if bit v 0 && s.protoLive p then s.emit (.wake p) else s))
/-- MDIO_GO (R324). -/
def execMdioGo (t : Nat) (a : Agent) (p : Nat) (v : Word) : State → Host.Outcome State Fault Refusal :=
  run t (when (isProto p (some .eth)) (gateW a p (State.mdioWrite p v)))
/-- MDIO_DONE (R324). -/
def execMdioDone (t p : Nat) (data : BitVec 16) : State → Host.Outcome State Fault Refusal :=
  run t (when (isProto p (some .eth)) (·.mdioDone p data))
/-- WAKEUP (R324). -/
def execWakeup (t p : Nat) : State → Host.Outcome State Fault Refusal :=
  run t (when (isProto p (some .lin)) fun s => s.raiseIf (s.protoLive p && !s.deaf p) p 8)
/-- LINK_CHANGE (R324). -/
def execLinkChange (t p : Nat) : State → Host.Outcome State Fault Refusal :=
  run t (when (isProto p (some .eth)) fun s => s.raiseIf (s.isOn p) p 8)
/-- SPC_TIMEOUT (R324). -/
def execSpcTimeout (t p : Nat) : State → Host.Outcome State Fault Refusal :=
  run t (when (isProto p (some .sent)) fun s =>
    s.raiseIf (s.protoLive p && s.rb (reg p 0x100) 2 && !s.rb (reg p 0x100) 0) p 9)
/-- PROTOCOL_REJOIN (R318). -/
def execProtocolRejoin (t p : Nat) : State → Host.Outcome State Fault Refusal :=
  run t (when (isProto p) (·.protoRejoin p))
/-- ULANE_RX_WORD (R314). -/
def execUlaneRxWord (t k : Nat) (w : BitVec 72) (errs : LaneErrs) : State → Host.Outcome State Fault Refusal :=
  run t (·.laneRxWord k w errs)
/-- ULANE_TX_WORD (R314). -/
def execUlaneTxWord (t k : Nat) : State → Host.Outcome State Fault Refusal := run t (·.laneTxWord k)
/-- ULANE_PUSH (R314). -/
def execUlanePush (t r k : Nat) (w : BitVec 72) : State → Host.Outcome State Fault Refusal :=
  run t (State.portReq r (8 + k) (pUlane k) (.lane k w) (·.lanePush r k w))
/-- ULANE_LOCK_CHANGE (R313). -/
def execUlaneLockChange (t k lk : Nat) (khz : BitVec 19) : State → Host.Outcome State Fault Refusal :=
  run t (·.laneLock k lk khz.toNat)
/-- ULANE_STAT_READ (R313). -/
def execUlaneStatRead (t k : Nat) : State → Host.Outcome State Fault Refusal :=
  run t (gateR (pUlane k) (State.laneStatRead k))
/-- PRBS_ERR_READ (R315). -/
def execPrbsErrRead (t k : Nat) : State → Host.Outcome State Fault Refusal :=
  run t (gateR (pUlane k) (State.prbsRead k))

end Sys2Proof.Machine
end

