-- ==== Sys2Proof/Machine/Endpoint.lean ====
section
/-! DEFINITION. Machine/Endpoint.lean: the PCI Express endpoint's resets and power states, MSI-X unmasking, host writes to
BAR2, the ends of the device's bus-master reads, and the SMBus target (R303 to R310, R325, R420, R441, R442). -/
namespace Sys2Proof.Machine
namespace State

/-! ### MSI-X (R310) -/

/-- Every vector's pending message is judged after an unmasking of the function. -/
def releaseAll (s : State) : State := forEach (s.ep.pend.map (·.1)) (fun v s => s.msixRelease v) s

/-- The mask bit of vector `v`. -/
def setVecMask (v : Nat) (b : Bool) (s : State) : State :=
  let s1 := { s with ep := { s.ep with masked := tabSet true s.ep.masked v b } }
  if b then s1 else s1.msixRelease v

/-- The function mask. -/
def setFuncMask (b : Bool) (s : State) : State :=
  let s1 := { s with ep := { s.ep with funcMask := b } }
  if b then s1 else s1.releaseAll

/-- Configuration requests are answered with Request Retry Status: the steward has not raised READY yet (R307). -/
def retryStatus (s : State) : Bool :=
  !s.pwr.ready && (s.pwr.phase = .reset || s.pwr.phase = .starting || s.pwr.phase = .fault)

/-- MSIX_UNMASK: of a vector by a write into BAR2, of the function by a configuration write (R307). -/
def msixUnmask (vec : Option Nat) (s : State) : State :=
  match vec with
  | some v => if s.pwr.serving then setVecMask v false s else s.answer .ur
  | none => if s.retryStatus then s.answer .retry else setFuncMask false s

/-- A write to the MSI-X table: bit 0 of a vector's fourth word is its mask bit. -/
def msixTable (o : Nat) (v : Word) (s : State) : State :=
  let s1 := { s with ep := { s.ep with table := tabSet 0 s.ep.table o v } }
  if o % 16 = 12 then setVecMask (o / 16) (bit v 0) s1 else s1

/-! ### Resets of the endpoint (R308, R420) -/

/-- The endpoint resets: configuration space, MSI-X table, VMAP and PCIE page, the HOST queue and BAR4 accesses under
way. `link` is what LINK_STAT reads from now on. (PRESUMED: assumption 6) -/
def endpointReset (link : Word) (s : State) : State :=
  let s1 := { s with
    ep := { perst := s.ep.perst }, regs := s.regs.filter fun e => e.1 / 4096 != pPcie
    lat := { s.lat with remotes := [] } }
  ((queueReset 1 (s1.wr (reg pPcie 0x040) link)).judge 0 false).imgAsk

/-- HOT_RESET. -/
def hotReset (s : State) : State := (endpointReset 0 s).raise pPcie 4
/-- FLR, by a configuration write: the link stays as it is. -/
def flr (s : State) : State :=
  if s.retryStatus then s.answer .retry else (endpointReset (s.rd (reg pPcie 0x040)) s).raise pPcie 3
/-- A link-down reset. -/
def linkDownReset (s : State) : State := (endpointReset 0 s).raise pPcie 1

/-- PERST_N. -/
def perstN (level : Bool) (s : State) : State :=
  let s1 := { s with ep := { s.ep with perst := !level } }
  if level || s.ep.perst then s1
  else if s.rb (reg pPcie 0x040) 0 then linkDownReset s1 else endpointReset 0 s1

/-- A configuration write sets the power state, Bus Master Enable, the MSI-X function mask and the BARs. A header fetch that
waited for D0 starts. -/
def d3hot (enter bme : Bool) (c : PcieCfg) (s : State) : State :=
  if s.retryStatus then s.answer .retry
  else (setFuncMask c.fmask { s with ep := { s.ep with
    d3hot := enter, busMaster := bme, bar0 := c.bar0, bar2 := c.bar2, bar4 := c.bar4 } }).imgAsk

/-- The endpoint's link finishes training, or changes its speed (R307). It trains once T0 has come and PERST_N is
high. -/
def pcieLinkUp (speed : Nat) (width : Nat) (s : State) : State :=
  if s.ep.perst || s.pwr.phase = .reset || s.pwr.phase = .fault then s
  else
    let r := reg pPcie 0x040
    let up := s.rb r 0
    let changed := up && s.rf r 3 1 != speed
    let s1 := s.wr r (word (width * 256 + speed * 2 + 1))
    if changed then s1.raise pPcie 2 else s1.raiseIf (!up) pPcie 0

/-! ### BAR2 (R441, R442) -/

/-- The unit whose page is `p` is under self-test or held: its memories read 0 and take no writes. -/
def memShut (s : State) (p : Nat) : Bool :=
  s.unitState p = 4 || s.unitState p = 5 || s.unitState p = 6

/-- `old` with the bytes that `be` enables taken from `new`. -/
def mergeBytes (be : Nat) (old new : Word) : Word :=
  bytesWord ((List.range 4).map fun i => if nbit be i then (wordBytes new).getD i 0 else (wordBytes old).getD i 0)

/-- A word written into a BAR2 window. -/
def bar2Put (off be : Nat) (v : Word) (s : State) : State :=
  let o := off / 4 * 4
  let w := mergeBytes be (s.memWord o) v
  if o < 0x01800000 then
    (let g := o / 0x80000
     if s.memShut (pSeq g) then s else (vecPutBy 0 s g (o % 0x80000) w).2)
  else if 0x02000000 ≤ o && o < 0x02800000 then
    (let k := (o - 0x02000000) / 0x80000
     if s.deepHeld k then s
     else s.dumpSync.deepWr k (o % 0x80000 / 8) (v.toNat * (if o % 8 = 4 then 2 ^ 32 else 1))
       (be % 16 * (if o % 8 = 4 then 16 else 1)) true)
  else if 0x03000000 ≤ o && o < 0x03600000 then
    (if s.memShut (pSeq ((o - 0x03000000) / 0x20000)) || s.outranked (memKey o) 0 then s else s.putWord o w)
  else if 0x03800000 ≤ o && o < 0x03B00000 then
    (let q := (o - 0x03800000) / 0x10000
     if s.memShut (pSeq q) then s else s.progPut q (o % 0x10000) w)
  else if 0x0FFFE000 ≤ o && o < 0x0FFFF000 then
    (let t := o - 0x0FFFE000
     msixTable t (mergeBytes be (tabGet 0 s.ep.table t) v) s)
  else s

/-- A word read from a BAR2 window; a reserved offset reads 0. -/
def bar2Get (off : Nat) (s : State) : Word × State :=
  let o := off / 4 * 4
  if o < 0x01800000 then (if s.memShut (pSeq (o / 0x80000)) then 0 else s.memWord o, s)
  else if 0x02000000 ≤ o && o < 0x02800000 then
    let k := (o - 0x02000000) / 0x80000
    if s.deepHeld k then (0, s)
    else
      let r := s.dumpSync.deepRd k (o % 0x80000 / 8) true .host
      (word (r.1 / (if o % 8 = 4 then 2 ^ 32 else 1)), r.2)
  else if 0x03000000 ≤ o && o < 0x03600000 then
    (if s.memShut (pSeq ((o - 0x03000000) / 0x20000)) then 0 else s.memWord o, s)
  else if 0x03800000 ≤ o && o < 0x03B00000 then
    (if s.memShut (pSeq ((o - 0x03800000) / 0x10000)) then 0 else s.memWord o, s)
  else (0, s)

/-- A word of the MSI-X table, whose mask bit is the vector's, or of the Pending Bit Array (R305, R441; PCI Express Base
Specification 5.0, which R441 names). -/
def msixWord (s : State) (o : Nat) : Word :=
  if o < 0x1000 then
    (let w := tabGet 0 s.ep.table o
     if o % 16 = 12 then setBit w 0 (tabGet true s.ep.masked (o / 16)) else w)
  else word (((List.range 32).map fun i =>
    b2n (decide ((o - 0x1000) / 4 < 8) && tabGet false s.ep.pend (8 * (o - 0x1000) + i)) * 2 ^ i).sum)

/-- A word that the host reads from BAR2. -/
def bar2Word (off : Nat) (s : State) : Word × State :=
  if 0x0FFFE000 ≤ off then (s.msixWord (off / 4 * 4 - 0x0FFFE000), s)
  else if s.pwr.phase = .done then (0, s)
  else bar2Get off s

/-- An access of the host to BAR2: a write, or a read where it brings no word (R307, R400, R442). -/
def bar2Write (off be : Nat) (v : Option Word) (s : State) : State :=
  if !s.pwr.serving then s.answer .ur
  else match v with
    | none => let r := bar2Word off s; (r.2.ret r.1.toNat).answer .ok
    | some w =>
      if s.pwr.phase = .done && off < 0x0FFFE000 then s.answer .ok
      else bar2Put off be w (s.answer .ok)

/-! ### Bus-master reads (R309) -/

/-- A completion reaches the store controller, or the steward's header fetch. -/
def dmaEnd (steward : Bool) (e : DmaEnd) (s : State) : State :=
  match e with
  | .data bs => if steward then s.imgHeader bs else s.fetchData bs
  | .ur => if steward then s.imgFetchFail 2 else s.fetchFail 2
  | .ca => if steward then s.imgFetchFail 3 else s.fetchFail 3
  | .poison => if steward then s.imgFetchFail 5 else s.fetchFail 5

/-- No completion within 10 ms. -/
def dmaTimeout (steward : Bool) (s : State) : State :=
  if steward then
    (if s.store.cmd.any (fun c => c.fetch && c.asked && decide (c.since + ms 10 ≤ s.now)) then s.imgFetchFail 4 else s)
  else match s.fetching with
    | some (_, j) => if j.since + ms 10 ≤ s.now then s.fetchFail 4 else s
    | none => s

/-! ### SMBus (R325) -/

/-- The Packet Error Code of a transaction's bytes: CRC-8 of polynomial x^8 + x^2 + x + 1.
(PRESUMED: assumption 207) -/
def pec (bs : List Byte) : Byte :=
  let step (c : Byte) : Byte := if c.getLsbD 7 then (c <<< 1) ^^^ 0x07 else c <<< 1
  bs.foldl (fun c b => (List.range 8).foldl (fun x _ => step x) (c ^^^ b)) 0

/-- The target answers a read of command `code` at its address while VAUX is valid; a block read gives its length first. -/
def smbus (code : Nat) (block : Bool) (bs : State → List Byte) (s : State) : State :=
  if !s.pwr.vaux then s
  else
    let a := 2 * s.pwr.smbAddr
    let d := (if block then [BitVec.ofNat 8 (bs s).length] else []) ++ bs s
    s.emit (.smbus (bs s) (pec ([BitVec.ofNat 8 a, BitVec.ofNat 8 code, BitVec.ofNat 8 (a + 1)] ++ d)))

/-- The factory row has been read and its CRC found good (R383). -/
def factoryGood (s : State) : Bool := s.rf (reg 0 0x064) 15 0 != 0

/-- Bits `hi` down to `lo` of factory row word `w`, 0 until the row is good. -/
def factory (s : State) (w hi lo : Nat) : Nat := if s.factoryGood then bits (factoryWord w).toNat hi lo else 0

/-- One half of a 64-bit memory BAR of `size` bytes at `base`, with its type bits. (PRESUMED: assumption 208) -/
def barWord (base : BitVec 64) (size flags : Nat) (hi : Bool) : Word :=
  let v := base.toNat / size * size
  word (if hi then v / 2 ^ 32 else v + flags)

/-- The capabilities that the configuration space lists, and no other (R303, Table 10.1): power management, PCI Express, MSI-X;
Advanced Error Reporting. (PRESUMED: assumption 208) -/
def pcieCaps : List Nat := [0x01, 0x10, 0x11]
def pcieExtCaps : List Nat := [0x0001]

/-- A doubleword of the PCI configuration space at `off` (R304, R305); none while configuration requests are answered with Request
Retry Status (R307). The words that the spec does not give are open. (PRESUMED: assumption 208) -/
def configWord (s : State) (off : Nat) : Option Word :=
  if s.retryStatus then none
  else some (
    if off = 0x00 || off = 0x2C then 0xC0961F4E
    else if off = 0x04 then setBit (Config.configSpace off) 2 s.ep.busMaster
    else if off = 0x08 then 0x118000B0
    else if off = 0x10 || off = 0x14 then barWord s.ep.bar0 (2 ^ 21) 4 (off = 0x14)
    else if off = 0x18 || off = 0x1C then barWord s.ep.bar2 (2 ^ 28) 0xC (off = 0x1C)
    else if off = 0x20 || off = 0x24 then barWord s.ep.bar4 (2 ^ 26) 4 (off = 0x24)
    else Config.configSpace off)

/-- The identity registers that the factory row gives (Tables 7.15 and 13.13). (DESIGN CHOICE: assumption 14) -/
def identWord (s : State) (off : Nat) : Word :=
  if off = 0x040 then word (s.factory 1 31 0) else if off = 0x044 then word (s.factory 1 63 32)
  else if off = 0x048 then word (s.factory 2 31 0) else if off = 0x04C then word (s.factory 2 63 32)
  else if off = 0x050 then word (s.factory 3 23 0) else if off = 0x054 then word (s.factory 3 55 32)
  else if off = 0x058 then
    word (0x00960000 + s.factory 4 7 0 * 256 + s.factory 4 11 9 * 16 + s.factory 4 8 8)
  else s.rd (reg 0 off)

/-- Command 0x00. -/
def smbIdentity (s : State) : List Byte :=
  if !s.factoryGood then List.replicate 12 0xFF
  else
    let p := s.identWord 0x058
    wordBytes (s.identWord 0x040) ++ wordBytes (s.identWord 0x044) ++
      [BitVec.ofNat 8 (fld p 15 8), BitVec.ofNat 8 (fld p 7 4), BitVec.ofNat 8 (fld p 0 0), BitVec.ofNat 8 s.lcState]

/-- Command 0x01. -/
def smbTemp (s : State) : List Byte := natBytes 2 (s.rf (reg pPower 0x054) 15 0)

/-- The device stands in reset. -/
def inReset (s : State) : Bool := s.pwr.phase = .reset || s.pwr.phase = .fault

/-- Command 0x02. -/
def smbStatus (s : State) : List Byte :=
  let r (n : Nat) : Nat := b2n (nbit s.pwr.rails n)
  [BitVec.ofNat 8 (r 2 + 2 * r 1 + 4 * (r 3 * r 4) + 8 * r 5 + 16 * b2n s.pwr.ready + 32 * b2n s.pwr.faultN
    + 64 * b2n s.inReset + 128 * b2n (s.pwr.phase = .done))]

/-- Command 0x03: the code of the fault that stands, 0 when there is none. (DEDUCED: assumption 122) -/
def smbFault (s : State) : List Byte :=
  if s.pwr.phase = .fault || s.pwr.clockWait then natBytes 2 (s.rf (reg pStw 0x044) 15 0) else [0, 0]

/-- The device's UDID. -/
def smbUdid (s : State) : BitVec 128 := Config.udid (BitVec.ofNat 64 (s.factory 1 63 0))

/-- A transaction of the Address Resolution Protocol, or a foreign one (R325): the target gives its UDID while its address is not
resolved, takes the address that its UDID is assigned, and does not acknowledge a command code it does not list.
(PRESUMED: assumption 207) -/
def smbArp (op : SmbArp) (s : State) : State :=
  if !s.pwr.vaux then s
  else match op with
    | .prepare => { s with pwr := { s.pwr with smbAr := false } }
    | .getUdid =>
      if s.pwr.smbAr then s
      else
        let d := (natBytes 16 s.smbUdid.toNat).reverse ++ [BitVec.ofNat 8 (2 * s.pwr.smbAddr + 1)]
        s.emit (.smbus d (pec ([0xC2, 0x03, 0xC3, 0x11] ++ d)))
    | .assign u a => if u = s.smbUdid then { s with pwr := { s.pwr with smbAddr := a.toNat, smbAr := true } } else s
    | .other a c => if a.toNat = s.pwr.smbAddr && 3 < c.toNat then s.emit .smbusNack else s

end State

/-! ### The commands -/

/-- MSIX_UNMASK (R310). -/
def execMsixUnmask (t : Nat) (vec : Option (Fin 256)) : State → Host.Outcome State Fault Refusal :=
  run t (State.msixUnmask (vec.map (·.val)))
/-- HOT_RESET (R308). -/
def execHotReset (t : Nat) : State → Host.Outcome State Fault Refusal := run t State.hotReset
/-- FLR (R308). -/
def execFlr (t : Nat) : State → Host.Outcome State Fault Refusal := run t State.flr
/-- LINK_DOWN_RESET (R308). -/
def execLinkDownReset (t : Nat) : State → Host.Outcome State Fault Refusal := run t State.linkDownReset
/-- PERST_N (R420). -/
def execPerstN (t : Nat) (level : Bool) : State → Host.Outcome State Fault Refusal := run t (State.perstN level)
/-- D3HOT (R308). -/
def execD3hot (t : Nat) (enter bme : Bool) (c : PcieCfg) : State → Host.Outcome State Fault Refusal :=
  run t (State.d3hot enter bme c)
/-- PCIE_LINK_UP (R307). -/
def execPcieLinkUp (t speed : Nat) (width : BitVec 5) : State → Host.Outcome State Fault Refusal :=
  run t (State.pcieLinkUp speed width.toNat)
/-- BAR2_WRITE (R442). -/
def execBar2Write (t off : Nat) (be : BitVec 4) (v : Option Word) : State → Host.Outcome State Fault Refusal :=
  run t (State.bar2Write off be.toNat v)
/-- DMA_READ_COMPLETION (R309). -/
def execDmaReadCompletion (t : Nat) (steward : Bool) (e : DmaEnd) : State → Host.Outcome State Fault Refusal :=
  run t (State.dmaEnd steward e)
/-- DMA_READ_TIMEOUT (R309). -/
def execDmaReadTimeout (t : Nat) (steward : Bool) : State → Host.Outcome State Fault Refusal :=
  run t (State.dmaTimeout steward)
/-- SMBUS_IDENTITY (R325). -/
def execSmbusIdentity (t : Nat) : State → Host.Outcome State Fault Refusal := run t (State.smbus 0 true State.smbIdentity)
/-- SMBUS_TEMPERATURE (R325). -/
def execSmbusTemperature (t : Nat) : State → Host.Outcome State Fault Refusal := run t (State.smbus 1 false State.smbTemp)
/-- SMBUS_STATUS (R325). -/
def execSmbusStatus (t : Nat) : State → Host.Outcome State Fault Refusal := run t (State.smbus 2 false State.smbStatus)
/-- SMBUS_FAULT_CODE (R325). -/
def execSmbusFaultCode (t : Nat) : State → Host.Outcome State Fault Refusal := run t (State.smbus 3 false State.smbFault)
/-- SMBUS_ARP (R325). -/
def execSmbusArp (t : Nat) (op : SmbArp) : State → Host.Outcome State Fault Refusal := run t (State.smbArp op)
/-- CLAIM_QUEUE_TIMEOUT (R235, R247). -/
def execClaimQueueTimeout (t : Nat) : State → Host.Outcome State Fault Refusal := run t fun s => (s.metaTimeout).imgTimeout

end Sys2Proof.Machine
end

