-- ==== Sys2Proof/Machine/SelfTest.lean ====
section
/-! DEFINITION. Machine/SelfTest.lean: the self-test of the units, at shutdown, at start and on demand (R341 to R354,
R363). -/
namespace Sys2Proof.Machine

/-! ### Units (Table 12.2) -/

/-- The page whose STATE a unit index names; 0x50 + j for protocol block j. -/
def unitPage (u : Nat) : Nat :=
  if u < 96 then pReg u else if u < 144 then pGrp (u - 96) else if u < 192 then pSeq (u - 144)
  else if u < 288 then 0x050 + (u - 192) else if u < 304 then pUlane (u - 288)
  else if u = 304 then pStw else if u = 305 then pStore else if u = 306 then pDom 0 else pRtr

/-- The pages under test with a unit. -/
def unitPages (u : Nat) : List Nat :=
  if 96 ≤ u && u < 144 then [pGrp (u - 96), pAna (u - 96)]
  else if u = 307 then [pRtr] ++ (List.range 8).map pPort ++ [pCar]
  else [unitPage u]

/-- The class of a unit: its kind of page, and the units tested at power-up each of its own.
(DEDUCED: assumption 214) -/
def unitClass (u : Nat) : Nat :=
  if u < 96 then 0 else if u < 144 then 1 else if u < 192 then 2 else if u < 224 then 3 else if u < 256 then 4
  else if u < 280 then 5 else if u < 288 then 6 else if u < 304 then 7 else u

/-- The expected signature of a unit's class. -/
def unitSig (u : Nat) : BitVec 64 := Config.expectedSig (unitClass u)

/-- One step of the registers of the polynomial x^64 + x^63 + x^61 + x^60 + 1 (R341).
(DESIGN CHOICE: assumption 216) -/
def lfsrStep (x : BitVec 64) : BitVec 64 := if x.getLsbD 63 then (x <<< 1) ^^^ 0xB000000000000001 else x <<< 1

/-- The MISR, from 0, after the captured chain contents `caps`, 64 bits a step (R341). -/
def misrOf (caps : List (BitVec 64)) : BitVec 64 := caps.foldl (fun x c => lfsrStep x ^^^ c) 0

/-- The resource words of its claim (Table 12.6). -/
def unitRes (u : Nat) : List Word :=
  (unitPages u).map resUnit ++ (if 96 ≤ u && u < 144 then [resPins (64 * (u - 96)) 64] else [])

/-- Patterns, maximum duration in ms and claimed power in mW. -/
def unitPatterns (u : Nat) : Nat :=
  if u < 96 then 32768 else if u < 192 then 16384 else if u < 304 then 4096 else if u = 304 then 2048
  else if u = 307 then 8192 else 4096
def unitMs (u : Nat) : Nat :=
  if u < 96 then 24 else if u < 144 then 8 else if u < 192 then 10 else if u < 288 then 2 else 3
def unitMw (u : Nat) : Nat :=
  if u < 96 then 420 else if u < 144 then 530 else if u < 192 then 120 else if u < 288 then 20
  else if u < 304 then 330 else 3600

/-- The order of the schedule: longest duration first, then ascending index (R348). -/
def testOrder : List Nat :=
  List.range 96 ++ (List.range 48).map (144 + ·) ++ (List.range 48).map (96 + ·) ++ (List.range 16).map (288 + ·)
    ++ (List.range 96).map (192 + ·)

namespace State

def breg (off : Nat) : Nat := reg pBist off
def test? (s : State) (u : Nat) : Option Test := (s.bist.tests.find? (·.1 = u)).map (·.2)
def setTest (s : State) (u : Nat) (x : Test) : State := { s with bist := { s.bist with tests := tabPut s.bist.tests u x } }
def dropTest (s : State) (u : Nat) : State := { s with bist := { s.bist with tests := tabDel s.bist.tests u } }

/-! ### Isolation (Table 12.1) -/

/-- The pins that a unit owns or serves. -/
def unitPins (s : State) (u : Nat) : List Nat :=
  (s.pins.map (·.1)).filter fun i =>
    (96 ≤ u && u < 144 && i / 64 = u - 96) || (u < 96 && (s.owner i = 1 && pinRegion i = u))
      || (unitPages u).any fun p => ownerPage (s.owner i) = some p

/-- A sequencer or protocol block under test drives its pins no more (R98). -/
def driveOff (u : Nat) (s : State) : State :=
  undrive (s.unitPins u) (forEach (s.unitPins u) (fun i s => s.setPin i { s.pin i with lvl := false }) s)

/-- What a unit of activity leaves behind when its test begins: a running sequencer has no claim of its own left, a region's
records not yet delivered are discarded (R216). -/
def unitHalt (u : Nat) (s : State) : State :=
  if 144 ≤ u && u < 192 then
    (let q := u - 144
     let s1 := s.goSync q
     driveOff u (if s1.running q then s1.stopRun q 2 else s1.stopIssue q))
  else if 192 ≤ u && u < 288 then driveOff u s
  else if u < 96 then lanesPark u (storeDiscard u (s.setRegion u { s.region u with holds := [] }))
  else if 288 ≤ u && u < 304 then s.laneClocks (u - 288) false
  else s

/-- TEST_START: step 1 of a test whose claim is granted. The router's ports go DOWN first (R281). -/
def testStart (s : State) (u : Nat) : State :=
  match s.test? u with
  | none => s
  | some x =>
    if x.since.isSome || !(x.claim.all s.claimGranted) then s
    else
      let s0 := if u = 307 then forEach (List.range 8) (fun n s => portDown n 6 s) s else s
      let begin_ := fun (s : State) =>
        forEach (unitPages u) (fun p s => s.setUnitState p 4) (forEach (s.unitPins u) (fun i s => s.parkStart i) s)
      let s1 := lagPins (s0.unitPins u) begin_ s0
      ((unitHalt u s1).setTest u { x with since := some s.now, prev := s.unitState (unitPage u) }).quietSync

/-! ### The end of a test -/

/-- The result of a test (R342): 1 PASS, 2 FAIL, 3 ABORTED. (DEDUCED: assumption 141) -/
def testResult (u pats : Nat) (misr : BitVec 64) (mem : Bool) : Nat :=
  if mem then 2 else if pats < unitPatterns u then 3 else if misr = unitSig u then 1 else 2

/-- Registers that a unit's test does not clear: the header but for EN, the global clocks, and the Gong (R296, R346).
(DEDUCED: assumption 140) -/
def outlivesTest (k : Nat) : Bool :=
  k % 4096 < 0x040 || k = gclkReg || (k / 4096 = pRtr && 0x060 ≤ k % 4096 && k % 4096 < 0x070)

/-- The page's registers read as after a reset. -/
def pageClear (p : Nat) (s : State) : State :=
  { s with
    regs := s.regs.filter fun e => !(e.1 / 4096 = p && !outlivesTest e.1)
    trims := s.trims.filter fun e => e.1 / 4096 != p }.wb (reg p oCtrl) 0 false

/-- Every memory and record of a unit is 0, as after a reset (Table 12.1, R200); a sequencer's registers read 0 (R166). Requests
taken before the test complete (R343): remote reads stay under way, and a claim for LOG until its descriptors have ended. -/
def unitClear (u : Nat) (s : State) : State :=
  let s1 := forEach (unitPages u) pageClear s
  if u < 96 then
    (let ks := (List.range 16).filter fun k => deepHost k = u
     let s2 := forEach ks (fun k s => { s with
       mem := memWipe s.mem (deepBase k) 0x80000, undef := s.undef.filter fun e => e.1 / 65536 != k }) s1
     let s3 := storeDiscard u s2
     { s3 with regions := tabDel s3.regions u, blocks := s3.blocks.filter fun e => e.1 / 1024 / 24 != u })
  else if u < 144 then
    (let g := u - 96
     let pins := s1.pins.map fun e =>
       if e.1 / 64 = g then (e.1, ({ uv := e.2.uv, cmph := e.2.cmph, cmpl := e.2.cmpl, mid := e.2.mid } : Pin)) else e
     { s1 with
       pins := pins, tsets := s1.tsets.filter fun e => e.1 / 16384 != g
       groups := tabPut s1.groups g { mv := (s1.grp g).mv }, anas := tabDel s1.anas g })
  else if u < 192 then
    (let q := u - 144
     let s2 := forEach [0x040, 0x044, 0x048, 0x070] (fun o s => s.wr (reg (pSeq q) o) 0) s1
     { s2 with
       seqs := tabPut s2.seqs q { logClaim := (s2.sq q).logClaim, logQueued := (s2.sq q).logQueued }
       mem := memWipe (memWipe (memWipe s2.mem (progBase q) 0x10000) (vecBase q) 0x80000) (resBase q) 0x20000 })
  else if u < 288 then { s1 with protos := tabDel s1.protos (unitPage u) }
  else if u < 304 then { s1 with lanes := tabDel s1.lanes (u - 288) }
  else if u = 307 then
    { s1 with lat := {
        remotes := s1.lat.remotes, remoteTag := s1.lat.remoteTag, remoteReads := s1.lat.remoteReads
        remoteOffs := s1.lat.remoteOffs
        gongSeq := s1.lat.gongSeq, gongs := s1.lat.gongs, clears := s1.lat.clears, cleared := s1.lat.cleared
        abortLow := s1.lat.abortLow, abortFall := s1.lat.abortFall } }
  else s1

/-- UNIT_RESULT and SIG of a unit. -/
def showResult (u why result pats : Nat) (misr : BitVec 64) (mem : Bool) (s : State) : State :=
  let logic : Bool := result = 2 && decide (unitPatterns u ≤ pats) && misr != unitSig u
  let v := result * 2 ^ 29 + why * 2 ^ 27 + b2n mem * 2 ^ 25 + b2n logic * 2 ^ 24 + pats % 65536
  let s1 := { s with bist := { s.bist with misr := tabPut s.bist.misr u misr.toNat } }
  s1.wr (breg (0x200 + 4 * u)) (word v)

/-- The region bank that keeps a unit's record (Table 12.2). -/
def recBank (u : Nat) : Nat :=
  if u < 96 then u else if u < 144 then 2 * (u - 96) else if u < 192 then 2 * (u - 144) + 1
  else if u < 288 then u - 192 else 80 + (u - 288)

/-- The record of a shutdown test is written while the store accepts work (R349, R350). (DEDUCED: assumption 142) -/
def putRec (u result pats : Nat) (misr : BitVec 64) (mem : Bool) (s : State) : State :=
  if s.metaStopped then s
  else
    let r : TestRec := { result := result, mem := mem, logic := result = 2 && !mem, pats := pats, misr := misr.toNat }
    metaPut (recBank u) 5 { s with bist := { s.bist with recs := tabPut s.bist.recs u r } }

/-! ### The schedule (R348, R351) -/

/-- The tests running or about to run claim this power. -/
def testMw (s : State) : Nat := (s.bist.tests.map fun e => unitMw e.1).sum

/-- The next unit of the schedule that fits is given to the tests. At start the steward's own claim covers it; at shutdown a test
that finds no free entry runs without one, since the budget alone bounds the schedule.
(DESIGN CHOICE: assumption 213) -/
def schedOne (u : Nat) (s : State) : State :=
  if !s.bist.todo.contains u || (s.test? u).isSome then s
  else
    let take (c : Option Nat) (mw why : Nat) (s : State) : State :=
      ({ s with bist := { s.bist with todo := s.bist.todo.erase u } }).setTest u { claim := c, mw := mw, why := why }
    if s.pwr.phase = .starting then
      (if s.testMw + unitMw u ≤ 60000 then take none 0 2 s else s)
    else if (s.clashing (unitRes u)).isSome || s.budget < s.grantedMw + unitMw u then s
    else if 64 ≤ s.ledger.claims.length then take none (unitMw u) 1 s
    else
      let r := s.claim actSelftest agStw (unitRes u) (unitMw u)
      match r.1 with
      | .granted n => take (some n) 0 1 r.2
      | .queued n => r.2.unclaim n
      | .refused _ => s

/-- The schedule is scanned from its start. -/
def schedule (s : State) : State := forEach testOrder schedOne s

/-- A host claim is released, or BUDGET is written: what waited for it in the schedule is started (R348). -/
def releaseClaim (v : Word) (s : State) : State := (releaseWrite v s).schedule
def budgetSet (v : Word) (s : State) : State := (budgetWrite v s).schedule

/-- The shutdown self-test is over: PHASE reads DONE (Table 14.6). -/
def shutDone (s : State) : State :=
  if s.pwr.phase = .test && s.bist.todo.isEmpty && s.bist.tests.isEmpty then
    let all := (List.range 304).all fun u => s.bist.recs.any (·.1 = u)
    let s1 := { s with pwr := { s.pwr with phase := .done }, bist := { s.bist with done := all } }
    let s2 := ((s1.wf (reg pStw 0x040) 31 29 4).wr (reg pStw 0x058) (word ((s.now - s.pwr.shutAt) / us 1)))
    s2.raise pStw 2
  else s

/-- RETEST is over: START_EXT and RETEST_DONE, and the load begins (R397). -/
def retestDone (s : State) : State :=
  if s.pwr.phase = .starting && s.bist.retest.isSome && s.bist.todo.isEmpty && s.bist.tests.isEmpty then
    let ext := (s.now - s.bist.retest.getD s.now) / us 1
    let s1 := { s with bist := { s.bist with retest := none } }
    let s2 := ((s1.wr (breg 0x048) (word ext)).wb (breg 0x044) 30 true).raise pBist 5
    if nbit s2.pwr.straps 0 then s2 else s2.loadBegin
  else s

/-- The patterns that a test has applied at its end: `pats` where an ABORT or the fall of PWRFAIL_N ended it, else all of them
(Table 12.1, R350). -/
def testPats (s : State) (x : Test) (u pats : Nat) : Nat :=
  if x.abort || s.metaStopped then min pats (unitPatterns u) else unitPatterns u

/-- TEST_END: step 4. `caps` is what the chains held at the captures, `mem` whether the March sequence found an error. -/
def testEnd (s : State) (u pats : Nat) (caps : List (BitVec 64)) (mem : Bool) : State :=
  match s.test? u with
  | none => s
  | some x =>
    if x.since.isNone || x.ended.isSome then s
    else
      let n := s.testPats x u pats
      let misr := misrOf caps
      let r := testResult u n misr mem
      let s1 := showResult u x.why r n misr mem (unitClear u s)
      let s2 := if x.why = 1 then putRec u r n misr mem s1 else s1
      let s3 := s2.setTest u { x with ended := some (s.now, r) }
      (((s3.raiseIf (r != 3) pBist 0).raiseIf (r = 2) pBist 1).raiseIf (r = 3) pBist 2).schedule

/-- STATE after a test (Table 12.1, R353). An ABORTED test of the start leaves its unit untested.
(DEDUCED: assumption 141) -/
def stateAfter (x : Test) (r : Nat) : Nat :=
  if r = 2 then 5
  else if r = 1 then 0
  else if x.why = 2 then 6
  else if x.prev = 5 || x.prev = 6 then x.prev else 0

/-- ISOLATION_END: step 5. -/
def isolationEnd (s : State) (u : Nat) : State :=
  match s.test? u with
  | none => s
  | some x =>
    match x.ended with
    | none => s
    | some (_, r) =>
      let st := stateAfter x r
      let end_ := fun (s : State) =>
        forEach (s.unitPins u) (fun i s => s.parkRest i) (forEach (unitPages u) (fun p s => s.setUnitState p st) s)
      let s1 := lagPins (s.unitPins u) end_ (s.dropTest u)
      let s2 := match x.claim with | some c => s1.unclaim c | none => s1
      let s3 := heldServe (unitPages u) s2
      let s4 := (s3.raiseIf (st = 5) pBist 3).raiseIf (st = 6) pBist 4
      s4.schedule.shutDone.retestDone

/-- SELFTEST_HOLD_TIMEOUT: units still held by another claim 100 ms into the shutdown self-test are not tested. -/
def holdTimeout (s : State) : State :=
  if s.pwr.phase = .test && s.bist.shut.any (fun t => t + ms 100 ≤ s.now) then
    let held (u : Nat) : Bool := s.ledger.claims.any fun c => c.activity != actSelftest && (clashAt (unitRes u) c.res).isSome
    let mine (u : Nat) : Bool := s.ledger.claims.any fun c =>
      c.activity = actSelftest && (clashAt (unitRes u) c.res).isSome && (s.test? u).all fun x => decide (x.why = 3)
    ({ s with bist := { s.bist with todo := s.bist.todo.filter fun u => !(held u || mine u) } }).shutDone
  else s

/-! ### On demand (R354) -/

/-- A BIST command is refused. -/
def bistRefuse (r : Reason) (s : State) : State :=
  (s.wf (breg 0x050) 31 24 r.code).refuseAns pBist r

/-- A write of BIST_CMD. (DEDUCED: assumption 144) -/
def bistCmd (v : Word) (s : State) : State :=
  let u := fld v 8 0
  let op := fld v 31 28
  if op = 0 || 2 < op || 307 < u || (303 < u && u < 307) then bistRefuse .range s
  else if op = 1 then
    if (s.test? u).isSome || s.pwr.phase != .user then bistRefuse .conflict s
    else
      let r := s.claim actSelftest agStw (unitRes u) (unitMw u)
      let go (n : Nat) : State := (r.2.setTest u { claim := some n, why := 3 }).wf (breg 0x050) 23 16 n
      match r.1 with
      | .granted n => go n
      | .queued n => go n
      | .refused e => bistRefuse e r.2
  else match s.test? u with
    | none => s
    | some x =>
      if x.claim.any (fun n => (s.claimOf n).any (·.queued)) then
        (s.dropTest u).unclaim (x.claim.getD 0)
      else s.setTest u { x with abort := true }

/-- BIST_CFG (R363). -/
def bistCfg (v : Word) (s : State) : State := { s with bist := { s.bist with policy := bit v 0 } }

/-! ### Registers -/

/-- UNIT_RESULT with RUNNING. (DEDUCED: assumption 143) -/
def unitResult (s : State) (u : Nat) : Word :=
  setBit (s.rd (breg (0x200 + 4 * u))) 26 ((s.test? u).any fun x => x.ended.isNone)

/-- BIST_STAT. -/
def bistStat (s : State) : Word :=
  let n (st : Nat) : Nat := ((List.range 304).filter fun u => s.unitState (unitPage u) = st).length
  setFld (setFld (s.rd (breg 0x044)) 24 16 (n 5)) 8 0 (n 6)

/-- SIG and EXP of the unit that SIG_SEL names. -/
def bistSig (s : State) : Nat := tabGet 0 s.bist.misr (s.rf (breg 0x060) 8 0)
def bistExp (s : State) : Nat :=
  let u := s.rf (breg 0x060) 8 0
  if u < 308 then (unitSig u).toNat else 0

end State

/-! ### The commands -/

/-- RELEASE (R359). -/
def execRelease (t : Nat) (a : Agent) (v : Word) : State → Host.Outcome State Fault Refusal :=
  run t (gateW a pLedger (State.releaseClaim v))
/-- BUDGET_WRITE (R360). -/
def execBudgetWrite (t : Nat) (a : Agent) (v : Word) : State → Host.Outcome State Fault Refusal :=
  run t (gateW a pLedger (State.budgetSet v))
/-- BIST_RUN (R354). -/
def execBistRun (t : Nat) (a : Agent) (v : Word) : State → Host.Outcome State Fault Refusal :=
  run t (gateP a pBist (State.bistCmd v))
/-- BIST_ABORT (R354). -/
def execBistAbort (t : Nat) (a : Agent) (v : Word) : State → Host.Outcome State Fault Refusal :=
  run t (gateP a pBist (State.bistCmd v))
/-- TEST_START (R343). -/
def execTestStart (t u : Nat) : State → Host.Outcome State Fault Refusal := run t (·.testStart u)
/-- TEST_END (R342). -/
def execTestEnd (t u pats : Nat) (caps : List (BitVec 64)) (mem : Bool) : State → Host.Outcome State Fault Refusal :=
  run t (·.testEnd u pats caps mem)
/-- ISOLATION_END (R343). -/
def execIsolationEnd (t u : Nat) : State → Host.Outcome State Fault Refusal := run t (·.isolationEnd u)
/-- SELFTEST_HOLD_TIMEOUT (R348). -/
def execSelftestHoldTimeout (t : Nat) : State → Host.Outcome State Fault Refusal := run t (·.holdTimeout)
/-- BIST_CFG_WRITE (R363). -/
def execBistCfgWrite (t : Nat) (a : Agent) (v : Word) : State → Host.Outcome State Fault Refusal :=
  run t (gateW a pBist (State.bistCfg v))

end Sys2Proof.Machine
end

