-- ==== Sys2Proof/Machine/Reset.lean ====
section
/-! DEFINITION. Machine/Reset.lean: the reset of the whole device, the hold for a fault, and the beginning of an orderly
shutdown (R389 to R393, R399). -/
namespace Sys2Proof.Machine
namespace State

/-! ### What a reset leaves in OTP (R371, R381) -/

/-- The pair of an OTP bit number, and whether it is the commit bit. -/
def setCells (s : State) (b : Nat) (n : Nat) : State :=
  let p := tabGet ({} : Pair) s.life.pairs (b / 2)
  let q : Pair := if b % 2 = 1 then { p with commit := n } else { p with intent := n }
  { s with life := { s.life with pairs := tabPut s.life.pairs (b / 2) q } }

/-- Programmed cells of an OTP bit. -/
def cells (s : State) (b : Nat) : Nat :=
  let p := tabGet ({} : Pair) s.life.pairs (b / 2)
  if b % 2 = 1 then p.commit else p.intent

/-- A digest of the life-cycle OTP. -/
def digest (s : State) (k : Nat) : Digest := tabGet ({} : Digest) s.life.digests k
def setDigest (s : State) (k : Nat) (x : Digest) : State :=
  { s with life := { s.life with digests := tabPut s.life.digests k x } }
/-- A customer key slot. -/
def keySlot (s : State) (k : Nat) : KeySlot := tabGet ({} : KeySlot) s.life.keys k
def setKeySlot (s : State) (k : Nat) (x : KeySlot) : State :=
  { s with life := { s.life with keys := tabPut s.life.keys k x } }

/-- The last bit of a SECURITY command: the target's commit or revocation bit, or SEAL_DEFAULT. -/
def secCommit (c : SecCmd) (b : Bool) (s : State) : State :=
  if c.op = 1 then s.setDigest c.target { s.digest c.target with commit := b }
  else if c.op = 2 then s.setKeySlot c.target { s.keySlot c.target with commit := b }
  else if c.op = 3 then s.setKeySlot c.target { s.keySlot c.target with revoked := b }
  else { s with life := { s.life with sealed := b } }

/-- Programming that a reset cuts: some of the 8 cells of the bit in progress are programmed, and nobody says how many.
(DESIGN CHOICE: assumption 148) -/
def otpCut (s : State) : State :=
  let s1 := match s.life.cmd.bind (·.left.head?) with
    | some b => s.drew.setCells b (max (s.cells b) (s.freeNat % 9))
    | none => s
  match s1.life.sec with
  | some c => if c.left = 1 then secCommit c s1.freeBool s1.drew else s1
  | none => s1

/-! ### The reset (R390, R391) -/

/-- PROFILE after a reset (R376). -/
def resetProfile (s : State) : Nat :=
  if s.lcState ≤ 2 then 0 else if s.lcState = 5 then 2 else if s.life.sealed then 2 else 1

/-- POWER.VCCIO_LO or VCCIO_HI from T0 on: the banks above 1.0 V. In reset they read 0.
(DESIGN CHOICE: assumption 187) -/
def vccioWord (s : State) (h : Nat) : Word :=
  word (((List.range 32).map fun i => b2n (1000 < (s.grp (32 * h + i)).mv) * 2 ^ i).sum)

/-- A register keeps the value it has in `old`. -/
def keepReg (old : State) (s : State) (k : Nat) : State := s.wr k (old.rd k)

/-- A reset of the whole device. What survives is flash, OTP, the self-test records, what the steward holds on VAUX, and the
levels at the balls. `latch` and `hist` are the unlock latch and LC_HIST.CAUSE of the next start. -/
def deviceReset (cause latch hist : Nat) (s : State) : State :=
  let o := s.storeReset.otpCut
  let n : State := {
    now := o.now, pending := o.pending, out := o.out, rdata := o.rdata, resp := o.resp, free := o.free
    lat := { abortLow := o.lat.abortLow }
    ep := { perst := o.ep.perst }
    pins := o.pins.map fun e => (e.1, { uv := e.2.uv, cmph := e.2.cmph, cmpl := e.2.cmpl, mid := e.2.mid })
    groups := o.groups.map fun e => (e.1, { mv := e.2.mv })
    pwr := {
      vaux := o.pwr.vaux, rails := o.pwr.rails, refclk := o.pwr.refclk, resetN := o.pwr.resetN
      resetLow := o.pwr.resetLow, smbAddr := o.pwr.smbAddr, smbAr := o.pwr.smbAr, top := o.pwr.top }
    bist := { recs := o.bist.recs, done := o.bist.done, policy := o.bist.policy }
    store := { o.store with pfStop := s.store.pfStop, pfFall := s.store.pfFall, pfRise := s.store.pfRise }
    life := { o.life with cmd := none, sec := none, latch := latch, held := false, cause := hist }
    jtag := o.jtag }
  let n1 := (keepReg o n (reg pStw 0x044)).wr (reg pStw 0x048) (word cause)
  let n2 := (keepReg o n1 (reg pPower 0x040)).wr (reg pPower 0x064) (word (b2n (cause = 5)))
  let n3 := n2.wb (reg pStore 0x040) 1 (o.rb (reg pStore 0x040) 1)
  n3.wr (reg pLife 0x044) (word o.resetProfile)

/-- A reset after which the start comes 10 µs later (Table 14.2). -/
def resetLater (cause latch hist : Nat) (s : State) : State :=
  let s1 := deviceReset cause latch hist s
  { s1 with pwr := { s1.pwr with startAt := s1.now + us 10 } }

/-- The device is held in reset with FAULT_N low (R393, Table 14.3). -/
def holdFault (code : Nat) (s : State) : State :=
  let s1 := s.wr (reg pStw 0x044) (word code)
  { s1 with pwr := { s1.pwr with phase := .fault, faultN := true, hold := code } }

/-- A fault that ends the start: the device stands in reset again, for the cause that its last reset had. -/
def startFault (code : Nat) (s : State) : State :=
  holdFault code (deviceReset (s.rf (reg pStw 0x048) 3 0) 0 s.life.cause s)

/-- A write of DEV_RESET. -/
def devReset (v : Word) (s : State) : State :=
  if v = 0xC0960001 then resetLater 3 0 0 s else s.refuseAns pStw .range

/-! ### Orderly shutdown, step 1 (R399) -/

/-- A LIFECYCLE or SECURITY command runs. -/
def lifeBusy (s : State) : Bool := s.life.cmd.isSome || s.life.sec.isSome

/-- Every sequencer stops as by STOP. -/
def stopAll (s : State) : State :=
  forEach (s.seqs.map (·.1)) (fun q s =>
    let s1 := s.goSync q
    if s1.isOn (pSeq q) && s1.running q then s1.stopRun q 2 else s1) s

/-- A write of SHUTDOWN. -/
def shutdown (v : Word) (s : State) : State :=
  if !bit v 0 then s
  else if !s.pwr.ready || s.lifeBusy then s.refuseAns pStw .conflict
  else
    let s1 := (s.wf (reg pStw 0x040) 31 28 4)
    let s2 := { s1 with pwr := { s1.pwr with ready := false, phase := .drain, shutAt := s1.now } }
    (s2.disarmAll.stopAll).raise pStw 0

end State

/-! ### The commands -/

/-- DEV_RESET (R390). -/
def execDevReset (t : Nat) (a : Agent) (v : Word) : State → Host.Outcome State Fault Refusal :=
  run t (gateW a pStw (State.devReset v))
/-- SHUTDOWN (R399). -/
def execShutdown (t : Nat) (a : Agent) (v : Word) : State → Host.Outcome State Fault Refusal :=
  run t (gateP a pStw (State.shutdown v))

end Sys2Proof.Machine
end

