-- ==== Sys2Proof/Machine/Life.lean ====
section
/-! DEFINITION. Machine/Life.lean: life-cycle commands, the profile, and the keys and digests of the SECURITY page (R365 to
R386). -/
namespace Sys2Proof.Machine
namespace State

def lifeReg (off : Nat) : Nat := reg pLife off
def secreg (off : Nat) : Nat := reg pSec off

/-! ### What the OTP says (R366, R367, R372) -/

/-- TOKEN_STEP: token steps whose intent bit reads programmed. -/
def tokenStep (s : State) : Nat := ((List.range 16).filter fun k => 5 ≤ s.cells (2 * (5 + k))).length

/-- PROFILE. -/
def profile (s : State) : Nat := s.rf (lifeReg 0x044) 1 0

/-- Pairs whose intent reads programmed and whose commit does not. -/
def torn (s : State) : List Nat :=
  (List.range 21).filter fun p => 5 ≤ s.cells (2 * p) && s.cells (2 * p + 1) < 5

/-- The roll-forward: missing commit bits are programmed, and every bit that reads programmed is topped up to 8 cells. -/
def rollForward (s : State) : State :=
  let s1 := forEach (s.torn.map fun p => 2 * p + 1) (fun b s => s.setCells b 8) s
  forEach ((List.range 42).filter fun b => 5 ≤ s1.cells b && s1.cells b < 8) (fun b s => s.setCells b 8) s1

/-! ### Life-cycle commands (R369 to R374) -/

/-- The profile keeps remote accesses and LC_ACCESS from the page (R376). -/
def lifeDenies (s : State) (a : Agent) : Bool :=
  s.profile = 2 && (match a with | .lattice => true | .jtag => true | _ => false)

/-- The digest that an ADVANCE to `t` checks, if it is written. -/
def stepDigest (s : State) (t : Nat) : Option (BitVec 256) :=
  let k := if t != 5 || (s.digest 20).commit then 15 + t else if s.lcState = 1 then 17 else if s.lcState = 2 then 18 else 20
  if (s.digest k).commit then (s.digest k).value else none

/-- The digest that a token UNLOCK checks. -/
def unlockDigest (s : State) : Option (BitVec 256) :=
  if (s.digest s.tokenStep).commit then (s.digest s.tokenStep).value else none

/-- The staged token. -/
def token (s : State) : List Byte := (List.range 8).flatMap fun i => wordBytes (s.rd (lifeReg (0x060 + 4 * i)))

/-- Every command ends by clearing the token. -/
def clearToken (s : State) : State := forEach (List.range 8) (fun i s => s.wr (lifeReg (0x060 + 4 * i)) 0) s

/-- A command is refused. -/
def lcRefuse (r : Reason) (s : State) : State :=
  (((s.clearToken.wr (lifeReg 0x04C) (word (r.code * 2 ^ 24 + 2 * 2 ^ 22))).raise pLife 0)).refuseAns pLife r

/-- Check 1 of Table 13.2. -/
def lcRange (s : State) (op target mask : Nat) : Bool :=
  if op = 1 then !(target = s.lcState + 1 || target = 5) || decide (target ≤ s.lcState) || decide (5 < target)
  else if op = 2 then mask = 0
  else true

/-- Check 3. -/
def lcForbidden (s : State) (op target : Nat) : Bool :=
  s.lcState = 5 || (op = 2 && s.lcState = 0) || (op = 1 && target = 5 && s.lcState = 0)
    || decide (8 ≤ s.rf (lifeReg 0x040) 19 16)
    || (if op = 1 then (s.stepDigest target).isNone
        else s.lcState != 1 && (decide (16 ≤ s.tokenStep) || s.unlockDigest.isNone))

/-- Check 4. -/
def lcUnready (s : State) (op target : Nat) : Bool :=
  op = 1 && target = 3 &&
    (!(s.digest 19).commit || !(s.digest 20).commit || (List.range 7).all fun k => !(s.keySlot (k + 1)).commit)

/-- The digest of check 6; none where no token is checked (an UNLOCK in FACTORY, R373). -/
def lcDigest (s : State) (op target : Nat) : Option (BitVec 256) :=
  if op = 1 then s.stepDigest target else if s.lcState = 1 then none else s.unlockDigest

/-- The OTP bits of an accepted command: intents, then commits, in ascending order (Table 13.3). -/
def lcBits (s : State) (op target : Nat) : List Nat :=
  let ps := if op = 1 then (List.range target).filter (s.lcState ≤ ·)
    else if s.lcState = 1 then [] else [5 + s.tokenStep]
  ps.map (2 * ·) ++ ps.map (2 * · + 1)

/-- A PORT goes OFF (step 4 of Table 13.3). -/
def portOff (n : Nat) (s : State) : State :=
  ((portDown n 1 s).setUnitState (pPort n) 0).wb (reg (pPort n) oCtrl) 0 false

/-- The last bit is programmed: the device resets (step 7). (DEDUCED: assumption 152) -/
def lcReset (c : LcCmd) (s : State) : State :=
  if c.advance then resetLater 4 0 1 s else resetLater 4 c.unlock 2 s

/-- A token mismatch (check 6). (DEDUCED: assumption 150) -/
def lcMismatch (s : State) : State :=
  let n := s.rf (lifeReg 0x040) 19 16 + 1
  let s1 := (s.clearToken.wf (lifeReg 0x040) 19 16 n).wr (lifeReg 0x04C) (word (Reason.lifecycle.code * 2 ^ 24 + 3 * 2 ^ 22))
  ((s1.raise pLife 1).raiseIf (n = 8) pLife 2).refuseAns pLife .lifecycle

/-- A write of LC_CMD. (DEDUCED: assumption 151) -/
def lcCmd (v : Word) (s : State) : State :=
  let op := fld v 31 28
  let target := fld v 20 18
  let mask := fld v 9 8
  if op = 0 then s
  else if s.lcRange op target mask then lcRefuse .range s
  else if s.lifeBusy || s.pwr.phase = .drain || s.pwr.phase = .test || s.pwr.phase = .done then lcRefuse .conflict s
  else if s.lcForbidden op target then lcRefuse .lifecycle s
  else if s.lcUnready op target then lcRefuse .inconsistent s
  else if s.pwr.phase = .reset || s.pwr.phase = .fault then lcRefuse .conflict s
  else
    let r := s.claim actLife agStw [resAll] 0
    match r.1 with
    | .granted n =>
      if (s.lcDigest op target).any fun d => sha256 s.token != d then lcMismatch (r.2.unclaim n)
      else
        let c : LcCmd := { advance := op = 1, unlock := mask, left := s.lcBits op target, since := s.now }
        let s1 := { r.2 with life := { r.2.life with cmd := some c, held := true } }
        let s2 := forEach (List.range 8) portOff (s1.wr (lifeReg 0x04C) (word (2 ^ 22)))
        if c.left = [] then lcReset c s2 else s2
    | .queued n => lcRefuse .conflict (r.2.unclaim n)
    | .refused _ => lcRefuse .conflict r.2

/-! ### SECURITY commands (R380, R381, R385) -/

def stagedDigest (s : State) : BitVec 256 :=
  BitVec.ofNat 256 (bytesNat ((List.range 8).flatMap fun i => wordBytes (s.rd (secreg (0x080 + 4 * i)))))
def stagedPoint (s : State) : List Byte := (List.range 24).flatMap fun i => wordBytes (s.rd (secreg (0x100 + 4 * i)))
def stagedId (s : State) : Word := s.rd (secreg 0x0A0)

/-- Check 1 of R381. -/
def secRange (s : State) (op target slot : Nat) : Bool :=
  if op = 1 then !(target < 16 || (18 ≤ target && target ≤ 20)) || s.stagedDigest = BitVec.allOnes 256
  else if op = 2 then slot = 0 || s.stagedId = 0
  else if op = 3 then slot = 0
  else op != 4

/-- Check 2: the target is committed or was begun with another value. (DEDUCED: assumption 154) -/
def secConflict (s : State) (op target slot : Nat) : Bool :=
  if op = 1 then (s.digest target).commit || (s.digest target).value.any (· != s.stagedDigest)
  else if op = 2 then
    ((List.range 8).any fun k => (s.keySlot k).commit && (s.keySlot k).value.any (·.1 = s.stagedId))
      || (s.keySlot slot).commit || (s.keySlot slot).value.any (· != (s.stagedId, s.stagedPoint))
  else if op = 3 then (s.keySlot slot).revoked
  else s.life.sealed

/-- Check 3 (Table 13.4). -/
def secForbidden (s : State) (op : Nat) : Bool :=
  if op = 3 then !(2 ≤ s.lcState && s.lcState ≤ 4) else s.lcState != 2

/-- Logical bits that a command programs, the commit bit among them: a value's 0 bits. (DEDUCED: assumption 153) -/
def secBits (s : State) (op : Nat) : Nat :=
  if op = 1 then 257 - popCount 256 s.stagedDigest.toNat
  else if op = 2 then 801 - popCount 32 s.stagedId.toNat - popCount 768 (bytesNat s.stagedPoint)
  else 1

/-- A SECURITY command is refused, or ends without its commit. -/
def secRefuse (r : Reason) (s : State) : State :=
  ((s.wr (secreg 0x048) (word (r.code * 2 ^ 24 + 2 ^ 23))).raise pSec 1).refuseAns pSec r

/-- A write of SEC_CMD. (DEDUCED: assumption 155) -/
def secCmd (v : Word) (s : State) : State :=
  let op := fld v 31 28
  let target := fld v 12 8
  let slot := fld v 2 0
  if op = 0 then s
  else if s.secRange op target slot then secRefuse .range s
  else if s.lifeBusy || s.pwr.phase = .drain || s.pwr.phase = .test || s.pwr.phase = .done
      || s.secConflict op target slot then secRefuse .conflict s
  else if s.secForbidden op then secRefuse .lifecycle s
  else if op = 2 && !onCurve s.stagedPoint then secRefuse .inconsistent s
  else
    let s1 := if op = 1 then s.setDigest target { s.digest target with value := some s.stagedDigest }
      else if op = 2 then s.setKeySlot slot { s.keySlot slot with value := some (s.stagedId, s.stagedPoint) }
      else s
    { s1 with life := { s1.life with sec := some { op := op, target := if op = 1 then target else slot, left := s.secBits op } } }

/-- A SECURITY command ends committed. (DEDUCED: assumption 156) -/
def secDone (c : SecCmd) (s : State) : State :=
  let s1 := secCommit c true { s with life := { s.life with sec := none } }
  let s2 := (s1.wf (secreg 0x048) 23 22 3).raise pSec 0
  (s2.raiseIf (c.op = 2) pSec 2).raiseIf (c.op = 3) pSec 3

/-! ### OTP bits (R366, R371) -/

/-- A bit of the life-cycle command ends. One that does not verify ends the command, and the next start holds the device.
(DEDUCED: assumption 147) -/
def lcBit (c : LcCmd) (ok : Bool) (s : State) : State :=
  match c.left with
  | [] => s
  | b :: rest =>
    if ok then
      let s1 := s.setCells b 8
      let c1 := { c with left := rest }
      if rest = [] then lcReset c1 { s1 with life := { s1.life with cmd := some c1 } }
      else { s1 with life := { s1.life with cmd := some c1 } }
    else
      let s1 := s.drew.setCells b (max (s.cells b) (s.freeNat % 8))
      let s2 := { s1 with life := { s1.life with cmd := none, held := false, fault := true } }
      let s3 := match s2.ledger.claims.find? (·.activity = actLife) with
        | some k => s2.unclaim k.number
        | none => s2
      lcRefuse .lifecycle s3

/-- A bit of the SECURITY command ends. -/
def secBit (c : SecCmd) (ok : Bool) (s : State) : State :=
  if !ok then
    secRefuse .lifecycle { s with life := { s.life with sec := none, fault := true } }
  else if c.left ≤ 1 then secDone c s
  else { s with life := { s.life with sec := some { c with left := c.left - 1 } } }

/-- OTP_BIT_DONE. No pulse starts while PWRFAIL_N has stopped the store. -/
def otpBitDone (ok : Bool) (s : State) : State :=
  if s.metaStopped then s
  else match s.life.cmd with
    | some c => lcBit c ok s
    | none => match s.life.sec with
      | some c => secBit c ok s
      | none => s

/-! ### PROFILE (R376) -/

/-- A write of PROFILE. (DEDUCED: assumption 157) -/
def profileWrite (v : Word) (s : State) : State :=
  let n := fld v 1 0
  if n = 3 then s.refuseAns pLife .range
  else if s.lcState = 5 || (3 ≤ s.lcState && n < s.profile) then s.refuseAns pLife .lifecycle
  else (s.wr (lifeReg 0x044) (word n)).raiseIf (n != s.profile) pLife 4

/-! ### Read-only registers (Tables 13.9, 13.11, 13.13) -/

/-- LC_STAT: TORN_RECOVERED, MEMTEST, DEBUG and MISMATCHES are kept in the register. -/
def lcStat (s : State) : Word :=
  setFld (setFld (setBit (s.rd (lifeReg 0x040)) 25 s.life.cmd.isSome) 31 29 s.lcState) 24 20 s.tokenStep

/-- LC_MIRROR. -/
def lcMirror (s : State) : Word :=
  word (s.profile * 32 + b2n (s.rb (lifeReg 0x040) 26) * 16 + b2n (s.rb (lifeReg 0x040) 27) * 8 + s.lcState)

/-- SEC_STAT. -/
def secStat (s : State) : Word :=
  let w (base n : Nat) : Nat := ((List.range n).map fun i => b2n (s.digest (base + i)).commit * 2 ^ i).sum
  word (b2n s.life.sealed * 2 ^ 31 + b2n s.life.sec.isSome * 2 ^ 30 + w 16 5 * 2 ^ 16 + w 0 16)

/-- KEY_SLOTn ID and STAT. -/
def keyIdWord (s : State) (n : Nat) : Word :=
  if n = 0 || s.keyState n = 0 then 0 else ((s.keySlot n).value.map (·.1)).getD 0
def keyStatWord (s : State) (n : Nat) : Word := word ((if n = 0 then 4 else 0) + s.keyState n)

/-- ROOT_DIGESTi. -/
def rootDigestWord (s : State) (i : Nat) : Word := word (s.factory (8 + i / 2) (32 * (i % 2) + 31) (32 * (i % 2)))

end State

/-! ### The commands -/

/-- A write to the LIFECYCLE or SECURITY page: the profile may deny it to lattice and TAP (R376). -/
def gateL (a : Agent) (p : Nat) (f : State → State) (s : State) : State :=
  if s.lifeDenies a then s.answer .denied else gateW a p f s

/-- ADVANCE (R369). -/
def execAdvance (t : Nat) (a : Agent) (v : Word) : State → Host.Outcome State Fault Refusal :=
  run t (gateL a pLife (State.lcCmd v))
/-- UNLOCK (R373). -/
def execUnlock (t : Nat) (a : Agent) (v : Word) : State → Host.Outcome State Fault Refusal :=
  run t (gateL a pLife (State.lcCmd v))
/-- OTP_BIT_DONE (R366). -/
def execOtpBitDone (t : Nat) (ok : Bool) : State → Host.Outcome State Fault Refusal := run t (State.otpBitDone ok)
/-- PROFILE_WRITE (R376). -/
def execProfileWrite (t : Nat) (a : Agent) (v : Word) : State → Host.Outcome State Fault Refusal :=
  run t (gateL a pLife (State.profileWrite v))
/-- WRITE_DIGEST (R381). -/
def execWriteDigest (t : Nat) (a : Agent) (v : Word) : State → Host.Outcome State Fault Refusal :=
  run t (gateL a pSec (State.secCmd v))
/-- INSTALL_KEY (R381). -/
def execInstallKey (t : Nat) (a : Agent) (v : Word) : State → Host.Outcome State Fault Refusal :=
  run t (gateL a pSec (State.secCmd v))
/-- REVOKE_KEY (R380). -/
def execRevokeKey (t : Nat) (a : Agent) (v : Word) : State → Host.Outcome State Fault Refusal :=
  run t (gateL a pSec (State.secCmd v))
/-- SET_SEAL_DEFAULT (R376). -/
def execSetSealDefault (t : Nat) (a : Agent) (v : Word) : State → Host.Outcome State Fault Refusal :=
  run t (gateL a pSec (State.secCmd v))

end Sys2Proof.Machine
end

