-- ==== Sys2Proof/Machine/Registers.lean ====
section
/-! DEFINITION. Machine/Registers.lean: one register written or read by an agent (chapter 16): the header, enable and
disable, the registers that only store, and for the others the effects that their chapters state. -/
namespace Sys2Proof.Machine
namespace State

/-! ### Trims (R85, R238) -/

/-- What the factory row gives a trim register (Tables 7.15, 3.16). -/
def trimLoaded (s : State) (p off : Nat) : Word :=
  match blockRow p with
  | some (.pingroup, b) =>
    let g := p - b
    let n := off % 0x100 / 4
    if off < 0x900 then
      let at_ (k : Nat) : Nat := s.factory (144 + (6 * (64 * g + n) + k) / 64) ((6 * (64 * g + n) + k) % 64) ((6 * (64 * g + n) + k) % 64)
      let delta (k : Nat) : Int := signed 3 (at_ k + 2 * at_ (k + 1) + 4 * at_ (k + 2))
      let drv := unsigned 6 ((s.factory (48 + g) 5 0 : Int) + delta 3)
      let cmp := unsigned 6 ((s.factory (48 + g) 11 6 : Int) + delta 0)
      word (cmp * 256 + drv)
    else word (s.factory (48 + g) 47 40 * 256 + s.factory (48 + g) 39 32)
  | some (.analog, b) => word (s.factory (96 + (p - b)) (off % 0x40 + 3) (off % 0x40))
  | _ => 0

/-- The register is a trim that the steward loads. -/
def isTrim (p off : Nat) : Bool :=
  match blockOf p with
  | some .pingroup => off % 4 = 0 && ((0x800 ≤ off && off < 0x900) || (0xA00 ≤ off && off < 0xB00))
  | some .analog => off % 4 = 0 && 0x800 ≤ off && off < 0x840
  | _ => false

/-- A trim: as written since the reset, or as loaded. (DESIGN CHOICE: assumption 14) -/
def trim (s : State) (p off : Nat) : Word := tabGet (s.trimLoaded p off) s.trims (reg p off)

/-- A trim is written. -/
def trimWrite (p off : Nat) (v : Word) (s : State) : State :=
  let desk : Bool := blockOf p = some .pingroup && off < 0x900
  let m : Word := if desk then 0x3F3F else match pageRow p off with | some r => word r.rw | none => 0
  if desk && (51 < fld v 13 8 || 51 < fld v 5 0) then s.refuseAns p .range
  else { s with trims := tabPut s.trims (reg p off) (v &&& m) }

/-! ### Registers that only store (R5, R6, R438) -/

/-- The expert area takes a write (R436). (DEDUCED: assumption 21) -/
def expertOk (s : State) (a : Agent) (p off : Nat) : Bool := off < 0x800 || (privileged a && s.rb (reg p oCtrl) 1)

/-- A write that stores what its register's access types let through. (DEDUCED: assumption 132) -/
def storeReg (p off : Nat) (v : Word) (s : State) : State :=
  match pageRow p off with
  | none => s
  | some r =>
    let open_ := s.enZero p
    let m := word ((if r.gate = .rw || open_ then r.rw else 0) + (if open_ then r.more else 0))
    let old := s.rd (reg p off)
    s.wr (reg p off) (((old &&& ~~~m) ||| (v &&& m)) &&& ~~~(v &&& word r.w1c))

/-- A write refused with RANGE when `bad`, else stored. -/
def storeUnless (bad : Bool) (p off : Nat) (v : Word) (s : State) : State :=
  if bad then s.refuseAns p .range else storeReg p off v s

/-! ### Dependents (R20, Table 1.5) -/

/-- A unit is ON or checking. -/
def busyPage (s : State) (p : Nat) : Bool := s.unitState p = 1 || s.unitState p = 2

/-- A unit that depends on page `p` is ON or checking, or a pin in analogue mode holds its analogue block (R96). -/
def held (s : State) (p : Nat) : Bool :=
  match blockRow p with
  | some (.domain, b) =>
    let d := p - b
    ((List.range 4).any fun c => s.rb (dumpReg c 0) 31 && s.rf (dumpReg c 0) 29 28 = 1 && s.rf (dumpReg c 0) 11 8 = d)
      || ((List.range 48).any fun g => s.busyPage (pGrp g) && s.grpDomain g = d && s.posEdges g)
      || ((List.range 48).any fun q => s.busyPage (pSeq q) && s.qpos q && s.qdom q = d)
      || (protoPages.any fun u => s.busyPage u && s.tsDom u = d)
  | some (.region, b) =>
    let r := p - b
    ((List.range 16).any fun d => s.busyPage (pDom d) && s.srcType d = 5 && s.srcRegion d = r)
      || (protoPages.any fun u => s.busyPage u && s.fabricPath u && s.protoRegion u = r)
  | some (.pingroup, b) =>
    s.busyPage (pAna (p - b)) || (List.range 48).any fun q => s.busyPage (pSeq q) && s.inSpan q (p - b)
  | some (.record, b) =>
    (List.range 48).any fun q => s.busyPage (pSeq q) && bit (s.qcfg q) 11 && fld (s.qcfg q) 14 12 = p - b
  | some (.analog, b) => s.anaHeld (p - b)
  | some (.router, _) => s.busyPage pCar || (List.range 8).any fun n => s.busyPage (pPort n)
  | some (.carillon, _) => (List.range 16).any fun d => s.busyPage (pDom d) && s.srcType d = 4
  | some (.ulane, b) => 8 ≤ p - b && s.busyPage (pEth (p - b - 8)) && s.sgmii (pEth (p - b - 8))
  | _ => false

/-! ### Enable, check and disable (R437, R438) -/

/-- A page's own checks, in the order of Table 16.5. (DEDUCED: assumption 23) -/
def blockCheck (s : State) (p : Nat) (lref : Bool) : Option Reason :=
  match blockRow p with
  | some (.domain, b) => s.domCheck (p - b)
  | some (.region, b) => s.regionCheck (p - b)
  | some (.pingroup, b) => s.grpCheck (p - b)
  | some (.seq, b) => s.seqCheck (p - b)
  | some (.analog, b) => s.anaCheck (p - b)
  | some (.ulane, b) => s.laneCheck (p - b)
  | some (.port, b) => s.portCheck (p - b) lref
  | some (.router, _) => s.routerCheck
  | some (.carillon, _) => s.carCheck
  | some (.can, _) => s.protoCheck p
  | some (.lin, _) => s.protoCheck p
  | some (.sent, _) => s.protoCheck p
  | some (.eth, _) => s.protoCheck p
  | _ => none

/-- What a unit does when it goes ON. -/
def blockStart (p : Nat) (s : State) : State :=
  match blockRow p with
  | some (.domain, b) => s.domStart (p - b)
  | some (.region, b) => s.regionStart (p - b)
  | some (.pingroup, b) => s.grpStart (p - b)
  | some (.seq, b) => s.seqStart (p - b)
  | some (.analog, b) => s.anaStart (p - b)
  | some (.ulane, b) => s.laneStart (p - b)
  | some (.port, b) => s.portStart (p - b)
  | some (.carillon, _) => s.carStart
  | some (.can, _) => s.protoStart p
  | some (.lin, _) => s.protoStart p
  | some (.sent, _) => s.protoStart p
  | some (.eth, _) => s.protoStart p
  | _ => s

/-- What a unit does when it goes OFF, while its STATE still reads ON. -/
def blockStop (p : Nat) (s : State) : State :=
  match blockRow p with
  | some (.domain, b) => s.domStop (p - b)
  | some (.region, b) => s.regionStop (p - b)
  | some (.pingroup, b) => s.grpStop (p - b)
  | some (.seq, b) => s.seqStop (p - b)
  | some (.analog, b) => s.anaStop (p - b)
  | some (.ulane, b) => s.laneStop (p - b)
  | some (.port, b) => portDown (p - b) 1 s
  | some (.carillon, _) => s.carStop
  | some (.counterDump, _) =>
    forEach (List.range 16) (fun k s => if s.rb (sampReg k 0) 31 then scfgWrite k 0 s else s)
      (forEach (List.range 4) (fun c s => s.dumpOff c) s)
  | some (.can, _) => s.protoStop p
  | some (.lin, _) => s.protoStop p
  | some (.sent, _) => s.protoStop p
  | some (.eth, _) => s.protoStop p
  | _ => s

/-- A unit leaves ON for OFF; STATE reads OFF from the next page-clock cycle (R438). -/
def unitOff (p : Nat) (s : State) : State :=
  let off := fun (s : State) => ((blockStop p s).setUnitState p 0).wb (reg p oCtrl) 0 false
  let pads : Bool := (blockRow p).any fun b => b.1 = .pingroup
  let s1 := (lagBy pads (s.pagePins p) off s).quietSync
  { s1 with offs := tabPut (s1.offs.filter fun e => decide (s1.now < e.2)) p (nextAfter pageCycle s1.now) }

/-- EN = 1 to a page that is not ON: the check begins. -/
def checkStart (p : Nat) (s : State) : State :=
  ({ s with checks := tabPut s.checks p (s.unitState p) }.setUnitState p 1).refuse p .none

/-- The check fails: EN reads 0, and STATE what Table 16.5 says. -/
def checkFail (p st : Nat) (r : Reason) (s : State) : State :=
  ((s.setUnitState p st).wb (reg p oCtrl) 0 false).refuse p r

/-- The check of page `p` is over. -/
def unchecked (s : State) (p : Nat) : State := { s with checks := tabDel s.checks p }

/-- The check passes: STATE reads ON and EN 1. -/
def goOn (p : Nat) (s : State) : State := (s.setUnitState p 2).wb (reg p oCtrl) 0 true

/-- CONSISTENCY_CHECK_END: the conditions as they stand now. (DEDUCED: assumption 9) -/
def checkEnd (p : Nat) (lref : Bool) (s : State) : State :=
  if s.unitState p != 1 then s
  else
    let was := tabGet 0 s.checks p
    if was = 5 then checkFail p 5 .bistFail (s.unchecked p)
    else if was = 6 then checkFail p 6 .untested (s.unchecked p)
    else if blockOf p = some .region && s.lcState = 5 then checkFail p 3 .lifecycle (s.unchecked p)
    else match (s.unchecked p).blockCheck p lref with
      | some r => checkFail p 3 r (s.unchecked p)
      | none => (lagPins (s.pagePins p) (fun s => blockStart p (goOn p s)) (s.unchecked p)).quietSync

/-- The fields of CTRL that only store, beside EXPERT. -/
def ctrlStore (p : Nat) (v : Word) (s : State) : State :=
  s.wr (reg p oCtrl) ((s.rd (reg p oCtrl) &&& 3) ||| (v &&& 0xFF0C))

/-- The fields of CTRL that only store; EXPERT takes no write once LOCKED is set. -/
def ctrlStores (p : Nat) (v : Word) (s : State) : State :=
  if s.locked p then ctrlStore p v s else (ctrlStore p v s).wb (reg p oCtrl) 1 (bit v 1)

/-- A write of CTRL (Tables 16.3, 16.6). (DESIGN CHOICE: assumption 10, DEDUCED: assumption 20) -/
def ctrlWrite (p : Nat) (v : Word) (s : State) : State :=
  if s.unitState p = 1 then ctrlStore p v s
  else if bit v 0 then (if s.enZero p then checkStart p (ctrlStores p v s) else ctrlStores p v s)
  else if s.unitState p = 2 then
    (if s.held p then (ctrlStores p v s).refuseAns p .dependency else unitOff p (ctrlStores p v s))
  else if s.unitState p = 3 then (ctrlStores p v s).setUnitState p 0
  else ctrlStores p v s

/-! ### The rest of the header (R433 to R435) -/

/-- A write of EVENT: what is raised in the same page-clock cycle stays. -/
def eventWrite (p : Nat) (v : Word) (s : State) : State :=
  let k := reg p oEvent
  let u := s.eventSync p
  (u.wr k (u.rd k &&& ~~~(v &&& ~~~(word (u.raisedNow p))))).judge (u.vmap p) true

/-- A write of EVENT_MASK. -/
def maskWrite (p : Nat) (v : Word) (s : State) : State := (s.wr (reg p oMask) (v &&& 0xFFFF)).judge (s.vmap p) true

/-- A write of OWNER. -/
def ownerWrite (p : Nat) (v : Word) (s : State) : State :=
  let a := fld v 7 0
  if s.locked p then s
  else if a = 0 || a = 1 || (0x10 ≤ a && a ≤ 0x3F) || a = 0xF0 then s.wr (reg p oOwner) (word a)
  else s.refuseAns p .range

/-- A write of LOCK. -/
def lockWrite (p : Nat) (v : Word) (s : State) : State :=
  if bit v 0 then (s.wb (reg p oCtrl) 1 false).wb (reg p oLock) 0 true else s

/-- A write to the header, by a privileged agent. -/
def headerWrite (p off : Nat) (v : Word) (s : State) : State :=
  if off = oCtrl then ctrlWrite p v s
  else if off = oEvent then eventWrite p v s
  else if off = oMask then maskWrite p v s
  else if off = oOwner then ownerWrite p v s
  else if off = oLock then lockWrite p v s
  else s

/-! ### Writes, block by block -/

/-- A register that only a privileged agent writes: another's write has no effect (R6). -/
def privOnly (a : Agent) (f : State → State) (s : State) : State := if privileged a then f s else s

/-- VMAP (R310): the bytes of reserved pages are reserved; the conditions of the vectors named before and after are judged.
(DEDUCED: assumption 24) -/
def vmapWrite (off : Nat) (v : Word) (s : State) : State :=
  let ps := (List.range 4).map fun j => off - 0x400 + j
  let m := word (((List.range 4).filter fun j => (blockOf (off - 0x400 + j)).isSome).map fun j => 255 * 256 ^ j).sum
  let old := ps.map s.vmap
  let s1 := s.wr (reg pPcie off) (v &&& m)
  forEach (old ++ ps.map s1.vmap) (fun n s => s.judge n false) s1

def cntPageWrite (a : Agent) (off : Nat) (v : Word) (s : State) : State :=
  if off = 0x040 then cntSelWrite v s
  else if off = 0x048 then cntHiWrite v s
  else if off = 0x054 then privOnly a (cntWrite v) s
  else if 0x100 ≤ off && off < 0x200 then
    let c := (off - 0x100) / 64
    match off % 64 with
    | 0x00 => dcfgWrite c v s
    | 0x04 => dumpField c 0x04 0xFFFFFFFF v s
    | 0x08 => dumpField c 0x08 0xFFFFFFFF v s
    | 0x0C => dumpField c 0x0C 0xFFFFFFFF v s
    | 0x10 => dumpField c 0x10 0xFFFFFFFF v s
    | 0x14 => dumpField c 0x14 0xFFFFF v s
    | 0x1C => drdWrite c v s
    | 0x24 => dtrigWrite c v s
    | _ => s
  else if 0x400 ≤ off && off < 0x500 then
    match off % 16 with
    | 0 => scfgWrite ((off - 0x400) / 16) v s
    | 4 => speriodWrite ((off - 0x400) / 16) v s
    | _ => s
  else storeReg pCnt off v s

def imgPageWrite (a : Agent) (off : Nat) (v : Word) (s : State) : State :=
  if off = 0x044 then privOnly a (imgCmd v) s
  else if 0x080 ≤ off && off < 0x100 then
    let n := (off - 0x080) / 16
    if off % 16 = 12 then privOnly a (swapCtrl n v) s else swapMaskWrite n (off % 16 / 4) v s
  else storeReg pImg off v s

def domPageWrite (a : Agent) (d off : Nat) (v : Word) (s : State) : State :=
  if s.srcType d = 4 && (off = 0x048 || off = 0x04C) then s
  else if off = 0x06C then snapTrigWrite d v s
  else if off = 0x07C then loadWrite d v s
  else if off = 0x0A0 then shaftApplyWrite d (match a with | .region r => 1 + r | .seq q => 97 + q | _ => 0) v s
  else if 0x400 ≤ off && off < 0x800 then markWrite d ((off - 0x400) / 16) (off % 16 / 4) v s
  else storeReg (pDom d) off v s

def carPageWrite (off : Nat) (v : Word) (s : State) : State :=
  if off = 0x048 then compatWrite v s
  else if 0x100 ≤ off && off < 0x140 then pubWrite ((off - 0x100) / 4) v s
  else if off = 0x200 then pealWrite v s
  else storeReg pCar off v s

def rtrPageWrite (a : Agent) (off : Nat) (v : Word) (s : State) : State :=
  if off = 0x054 then (if fld v 15 0 = 0 then s.refuseAns pRtr .range else s.wr (rtr 0x054) (v &&& 0xFFFF))
  else if off = 0x060 then privOnly a (gongCtrl v) s
  else if 0x100 ≤ off && off < 0x140 then streamCfg ((off - 0x100) / 4) v s
  else if off = 0x800 then
    (let mx := fld v 7 4
     let mn := fld v 3 0
     if mx = 0 || 2 < mx || mn = 0 || 2 < mn then s.refuseAns pRtr .range
     else if mx < mn then s.refuseAns pRtr .inconsistent
     else s.wr (rtr 0x800) (v &&& 0xFF))
  else storeReg pRtr off v s

def protoPageWrite (p off : Nat) (v : Word) (s : State) : State :=
  if 0x060 ≤ off && off < 0x078 then txHeader p ((off - 0x060) / 4) v s
  else if off = 0x078 then txDataWrite p v s
  else if off = 0x07C then txCtrl p v s
  else if off = 0x09C then rxCtrl p v s
  else if off = 0x108 && blockOf p = some .lin then (if bit v 0 && s.protoLive p then s.emit (.wake p) else s)
  else if off = 0x114 && blockOf p = some .eth then mdioWrite p v s
  else storeReg p off v s

def grpPageWrite (a : Agent) (g off : Nat) (v : Word) (s : State) : State :=
  let p := pGrp g
  let i (base : Nat) : Nat := 64 * g + (off - base) / 4
  if off = 0x040 then (if s.enZero p then vccioSync (storeUnless (4 < fld v 6 4) p off v s) g else s)
  else if off = 0x04C then tsWrite g v s
  else if off = 0x05C then ringRdWrite g v s
  else if off = 0x074 then serTxLoWrite g v s
  else if off = 0x078 then serTxHi g v s
  else if 0x100 ≤ off && off < 0x200 then pinCfgWrite a (i 0x100) v s
  else if 0x200 ≤ off && off < 0x300 then threshWrite (i 0x200) v s
  else if 0x300 ≤ off && off < 0x400 then captWrite (i 0x300) v s
  else if 0x400 ≤ off && off < 0x500 then
    (let k := (off - 0x400) / 16
     if off % 16 = 4 then reflexTable g k v s
     else if off % 16 = 12 then reflexCtrl g k v s
     else if s.rfxEn g k then s else storeReg p off v s)
  else if 0x600 ≤ off && off < 0x700 then pinOwnWrite a (i 0x600) v s
  else if off = 0x708 then swCtrl a g v s
  else if 0x710 ≤ off && off < 0x720 then hostBits g off v s
  else if off = 0x720 || off = 0x724 then privOnly a (ownLockWrite g (off = 0x724) v) s
  else storeReg p off v s

def seqPageWrite (q off : Nat) (v : Word) (s : State) : State :=
  if off = 0x058 then runCtrl q v s
  else if off = 0x064 then flagsWrite q v s
  else if off = 0x078 then doorbell q v s
  else if off = 0x08C then flogRd q v s
  else if 0x100 ≤ off && off < 0x140 then gprWrite q off 0xFFFFFFFF v s
  else if 0x140 ≤ off && off < 0x150 then gprWrite q off 0xFFFFFF v s
  else if 0x150 ≤ off && off < 0x160 then gprWrite q off 0xFFFFF v s
  else storeReg (pSeq q) off v s

def anaPageWrite (g off : Nat) (v : Word) (s : State) : State :=
  if off = 0x040 || off = 0x044 then adcCfgWrite g ((off - 0x040) / 4) v s
  else if off = 0x048 then adcTrigWrite g v s
  else if off = 0x070 || off = 0x074 then dacWrite g ((off - 0x070) / 4) v s
  else if off = 0x080 then pmuCtrl g v s
  else if off = 0x084 then pmuForce g v s
  else if off = 0x088 then pmuClampWrite g v s
  else storeReg (pAna g) off v s

/-- PULSE_LIMITS outside its ranges (Table 7.17). -/
def pulseBad (v : Word) : Bool := fld v 4 0 < 4 || 16 < fld v 4 0 || fld v 13 8 < 8 || 48 < fld v 13 8

/-- A write to a page's own registers. -/
def pageWrite (a : Agent) (p off : Nat) (v : Word) (s : State) : State :=
  if !s.expertOk a p off then s
  else if isTrim p off then trimWrite p off v s
  else match blockRow p with
    | none => s
    | some (.ident, _) => s
    | some (.steward, _) => if off = 0x054 then shutdown v s else if off = 0x05C then devReset v s else s
    | some (.ledger, _) =>
      if off = 0x040 then budgetSet v s else if off = 0x090 then claimSubmit v s
      else if off = 0x098 then releaseClaim v s else storeReg p off v s
    | some (.lifecycle, _) =>
      if off = 0x044 then profileWrite v s else if off = 0x048 then lcCmd v s
      else if 0x060 ≤ off && off < 0x080 then s.wr (reg p off) v else s
    | some (.security, _) => if off = 0x044 then secCmd v s else storeReg p off v s
    | some (.power, _) =>
      if off = 0x060 then
        (if fld v 23 16 = 0 || 20 < fld v 23 16 then s.refuseAns p .range else s.wr (reg p off) (v &&& 0xFFFFFF))
      else storeReg p off v s
    | some (.bist, _) =>
      if off = 0x040 then bistCfg v s else if off = 0x04C then privOnly a (bistCmd v) s else storeReg p off v s
    | some (.counterDump, _) => cntPageWrite a off v s
    | some (.store, _) =>
      if off = 0x080 then hsubmit v s else if off = 0x084 then qctrl v s
      else if off = 0x0A0 then storeUnless (103 < fld v 6 0 && fld v 6 0 != 127) p off v s
      else if off = 0x800 then storeUnless (pulseBad v) p off v s
      else storeReg p off v s
    | some (.flashRecovery, _) => s
    | some (.image, _) => imgPageWrite a off v s
    | some (.record, _) => s
    | some (.domain, b) => domPageWrite a (p - b) off v s
    | some (.carillon, _) => carPageWrite off v s
    | some (.port, _) => storeReg p off v s
    | some (.router, _) => rtrPageWrite a off v s
    | some (.pcie, _) => if 0x400 ≤ off && off < 0x5F0 then vmapWrite off v s else storeReg p off v s
    | some (.ulane, _) => storeReg p off v s
    | some (.can, _) => protoPageWrite p off v s
    | some (.lin, _) => protoPageWrite p off v s
    | some (.sent, _) => protoPageWrite p off v s
    | some (.eth, _) => protoPageWrite p off v s
    | some (.region, _) => storeReg p off v s
    | some (.pingroup, b) => grpPageWrite a (p - b) off v s
    | some (.seq, b) => seqPageWrite (p - b) off v s
    | some (.analog, b) => anaPageWrite (p - b) off v s

/-- The gate of a page: LIFECYCLE and SECURITY also obey the profile (R376). -/
def pageGate (a : Agent) (p : Nat) (f : State → State) (s : State) : State :=
  if (p = pLife || p = pSec) && s.lifeDenies a then s.answer .denied else gateW a p f s

/-- One register written. A reserved page takes no write (R8), nor does an offset that is no register. -/
def regWrite (a : Agent) (p off : Nat) (v : Word) (s : State) : State :=
  if (blockOf p).isNone || off % 4 != 0 || 4096 ≤ off then (if s.serves a then s.answer .ok else s.answer .ur)
  else if off < 0x040 then
    (if privileged a then pageGate a p (ordered a p off (headerWrite p off v)) s else s.answer .denied)
  else pageGate a p (ordered a p off (pageWrite a p off v)) s

/-! ### Registers that are computed when they are read -/

/-- QSTATn (Table 7.17, R208). The steward waits with what does not fit into its queue. -/
def qstatWord (s : State) (q : Nat) : Word :=
  let x := s.dq q
  word ((if q = 1 || q = 2 then x.comps.length else 0) * 65536 + x.running.length * 256 + min 64 (s.dqHeld q))

/-- The sectors of a bank that differ from a fresh one, in rising order. -/
def bankSectors (s : State) (b : Nat) : List (Nat × Sector) :=
  (s.store.sectors.filter fun e => e.1 / 1024 = b).map fun e => (e.1 % 1024, e.2)

/-- OP and OP_SECTOR of a bank: a program before the erase that it interrupts. (DEDUCED: assumption 81) -/
def bankOp (s : State) (b : Nat) : Nat × Nat :=
  let l := s.bankSectors b
  let at_ (k : SectorState) (n : Nat) : Option (Nat × Nat) := (l.find? fun e => e.2.state = k).map fun e => (n, e.1)
  (((at_ .programming 1).orElse fun _ => at_ .erasing 2).orElse fun _ => at_ .suspended 3).getD (0, 0)

/-- BANK_STAT, and RSTAT without INCOMPLETE and XIP_USERS. -/
def bankStat (s : State) (b : Nat) : Word :=
  let x := s.bankOf b
  word (b2n x.digest.isSome * 2 ^ 31 + x.fails * 2 ^ 27 + (s.bankOp b).1 * 2 ^ 24
    + (if b < 96 then x.spares * 65536 else 0) + (s.bankOp b).2)

/-- BANK_CYCLES. -/
def bankCycles (s : State) (b : Nat) : Word :=
  let m := ((s.bankSectors b).map (·.2.cycles)).foldl max 0
  word (b2n (decide (wornAt ≤ m)) * 2 ^ 31 + min m (2 ^ 28 - 1))

/-- A word of a bank's protection bits. -/
def bankProt (s : State) (b h : Nat) : Word := word ((s.bankOf b).prot / 2 ^ (32 * h))

/-- RSTAT (Table 7.19). -/
def rstat (s : State) (r : Nat) : Word :=
  let users := (List.range 48).filter fun q =>
    s.isOn (pSeq q) && bit (s.qcfg q) 11 && fld (s.qcfg q) 14 12 = r && s.running q
  word ((s.bankStat (96 + r)).toNat + b2n ((s.bankSectors (96 + r)).any fun e => e.2.state = .incomplete) * 2 ^ 23
    + users.length * 65536)

/-- FLASH_RECOVERY (Table 7.21). -/
def recWord (s : State) (off : Nat) : Word :=
  let l := s.recovery
  if off = 0x040 then word (b2n (decide (256 < l.length)) * 2 ^ 31 + min l.length 256)
  else if 0x044 ≤ off && off < 0x054 then
    let k := (off - 0x044) / 4
    word ((List.range 32).map fun i => b2n (l.any fun e => e / 1024 = 32 * k + i) * 2 ^ i).sum
  else if 0x100 ≤ off && off < 0x500 then
    match l[(off - 0x100) / 4]? with
    | some e => word (2 ^ 31 + (s.sec (e / 1024) (e % 1024)).cause * 2 ^ 29 + e / 1024 * 2 ^ 22 + e % 1024 * 4096)
    | none => 0
  else 0

/-- RECORD (Table 7.19). -/
def recordWord (s : State) (r off : Nat) : Word :=
  match off with
  | 0x040 => s.rstat r
  | 0x044 => s.bankProt (96 + r) 0
  | 0x048 => s.bankProt (96 + r) 1
  | 0x04C => s.bankCycles (96 + r)
  | 0x050 => word ((s.bankSectors (96 + r)).filter fun e => decide (wornAt ≤ e.2.cycles)).length
  | _ => 0

/-- Spare columns in use, from the factory row's REPAIR entries of one kind and one of the instances (Table 7.15).
(PRESUMED: assumption 87) -/
def repaired (s : State) (kind lo n : Nat) : Nat :=
  ((List.range 64).filter fun k =>
    let e := s.factory (16 + k / 2) (32 * (k % 2) + 31) (32 * (k % 2))
    nbit e 31 && bits e 30 28 = kind && decide (lo ≤ bits e 27 16) && decide (bits e 27 16 < lo + n)).length

/-- The deep memory whose status page `p` hosts. -/
def deepOf (p : Nat) : Nat := 2 * ((p - 0x100) / 12) + (if (p - 0x100) % 12 = 0 then 0 else 1)

/-- CENSUS_INFO of the device that CENSUS_SEL names. -/
def censusWord (s : State) : Word :=
  match s.lat.census.find? (·.1 = s.rf (rtr 0x080) 15 0) with
  | some (_, e) =>
    word (2 ^ 31 + b2n e.info.eligible * 2 ^ 30 + e.info.role % 4 * 2 ^ 28 + e.info.protoMax % 16 * 2 ^ 24 + e.info.epochs.toNat)
  | none => 0

/-! ### Reads, block by block -/

/-- A read that only returns a word. -/
def retw (w : Word) (s : State) : State := s.ret w.toNat

/-- A read of a register that holds what was stored in it. -/
def readStored (p off : Nat) (s : State) : State := retw (s.rd (reg p off)) s

def stwRead (off : Nat) (s : State) : State :=
  if off = 0x058 && (s.pwr.phase = .drain || s.pwr.phase = .test) then s.ret ((s.now - s.pwr.shutAt) / us 1)
  else readStored pStw off s

def ledgerRead (off : Nat) (s : State) : State :=
  match off with
  | 0x044 => s.ret s.grantedMw
  | 0x048 => retw s.ledgerStat s
  | 0x0A4 => retw s.claimInfo s
  | 0x0A8 => retw s.claimMw s
  | _ => readStored pLedger off s

def lifeRead (off : Nat) (s : State) : State :=
  match off with
  | 0x040 => retw s.lcStat s
  | 0x050 => s.ret (s.life.cause * 2 ^ 30)
  | _ => if 0x060 ≤ off then s.ret 0 else readStored pLife off s

def secRead (off : Nat) (s : State) : State :=
  if off = 0x040 then retw s.secStat s
  else if 0x200 ≤ off && off < 0x280 then
    (if off % 16 = 0 then retw (s.keyIdWord ((off - 0x200) / 16)) s
     else if off % 16 = 4 then retw (s.keyStatWord ((off - 0x200) / 16)) s else s.ret 0)
  else if 0x300 ≤ off && off < 0x330 then retw (s.rootDigestWord ((off - 0x300) / 4)) s
  else readStored pSec off s

def bistRead (off : Nat) (s : State) : State :=
  match off with
  | 0x040 => s.ret (b2n s.bist.policy)
  | 0x044 => retw s.bistStat s
  | 0x064 => s.ret (s.bistSig % 2 ^ 32)
  | 0x068 => s.ret (s.bistSig / 2 ^ 32)
  | 0x06C => s.ret (s.bistExp % 2 ^ 32)
  | 0x070 => s.ret (s.bistExp / 2 ^ 32)
  | _ => if 0x200 ≤ off && off < 0x6D0 then retw (s.unitResult ((off - 0x200) / 4)) s else readStored pBist off s

def cntPageRead (a : Agent) (off : Nat) (s : State) : State :=
  match off with
  | 0x044 => s.cntLoRead a
  | 0x048 => s.cntHiRead a
  | 0x054 => s.ret 0
  | 0x05C => s.ret assignedCount
  | _ =>
    let s1 := s.counterSync
    if 0x100 ≤ off && off < 0x200 && off % 64 = 0x24 then s1.ret 0 else readStored pCnt off s1

def storeRead (off : Nat) (s : State) : State :=
  let b := s.rf (reg pStore 0x0A0) 6 0
  match off with
  | 0x080 => s.ret 0
  | 0x084 => s.ret 0
  | 0x090 => s.hcomp0
  | 0x0A4 => retw (s.bankStat b) s
  | 0x0A8 => retw (s.bankProt b 0) s
  | 0x0AC => retw (s.bankProt b 1) s
  | 0x0B0 => retw (s.bankCycles b) s
  | _ => if 0x044 ≤ off && off < 0x054 then retw (s.qstatWord ((off - 0x044) / 4)) s else readStored pStore off s

def imgRead (off : Nat) (s : State) : State :=
  if off = 0x044 then s.ret 0
  else if off = 0x068 then retw s.runCompat s
  else if 0x400 ≤ off && off < 0x580 then retw (s.regionSlot ((off - 0x400) / 4)) s
  else readStored pImg off s

def domPageRead (d off : Nat) (s : State) : State :=
  let shaft := if s.srcType d = 2 then (s.velNow d).toNat else 0
  match off with
  | 0x048 => if s.srcType d = 4 then s.ret (s.modulus d % 2 ^ 20 * 4096) else readStored (pDom d) off s
  | 0x04C => if s.srcType d = 4 then s.ret (s.modulus d / 2 ^ 20 % 2 ^ 20) else readStored (pDom d) off s
  | 0x050 => s.posRead d
  | 0x05C => retw (s.dstat d) s
  | 0x060 => s.velRead d
  | 0x06C => s.ret 0
  | 0x07C => s.ret 0
  | 0x0A0 => s.ret 0
  | 0x0A4 => s.ret (shaft % 2 ^ 32)
  | 0x0A8 => s.ret (shaft / 2 ^ 32 % 256)
  | _ =>
    if 0x200 ≤ off && off < 0x280 && off % 32 = 0x1C then s.snapRead d ((off - 0x200) / 32)
    else readStored (pDom d) off s

def carPageRead (off : Nat) (s : State) : State :=
  match off with
  | 0x050 => s.ltimeRead
  | 0x064 => retw s.gdomInfo s
  | 0x068 => retw s.gdomLead s
  | 0x200 => s.ret 0
  | _ => readStored pCar off s

def rtrPageRead (off : Nat) (s : State) : State :=
  match off with
  | 0x084 => retw s.censusWord s
  | 0x088 => s.ret s.lat.census.length
  | 0x08C => s.ret s.latDiam
  | 0x090 => s.ret (s.dMax % 2 ^ 24)
  | _ => readStored pRtr off s

def protoPageRead (p off : Nat) (s : State) : State :=
  match off with
  | 0x04C => pstatRead p s
  | 0x078 => s.ret 0
  | 0x07C => s.ret 0
  | 0x098 => rxData p s
  | 0x09C => s.ret 0
  | _ =>
    if (off = 0x108 && blockOf p = some .lin) || (s.fabricPath p && 0x060 ≤ off && off < 0x098) then s.ret 0
    else readStored p off s

def regionPageRead (r off : Nat) (s : State) : State :=
  match off with
  | 0x068 => retw (s.rd gclkReg) s
  | 0x06C => s.ret (s.repaired 0 (24 * r) 24)
  | _ =>
    if 0x300 ≤ off && off < 0x30C && !hostsDeep (pReg r) then s.ret 0
    else if off = 0x300 then
      retw (setFld (setFld (s.rd (rreg r 0x300)) 23 16 (s.deepOwner (deepOf (pReg r)))) 15 8 (s.repaired 1 (deepOf (pReg r)) 1)) s
    else readStored (pReg r) off s

def grpPageRead (g off : Nat) (s : State) : State :=
  match off with
  | 0x044 => retw (setBit (s.rd (greg g 0x044)) 0 (s.domStopped (s.grpDomain g))) s
  | 0x04C => s.tsRead g
  | 0x074 => s.ret 0
  | 0x078 => s.ret 0
  | 0x07C => s.serRxLo g
  | 0x084 => s.serStatRead g
  | _ =>
    if 0x740 ≤ off && off < 0x760 then retw (s.drivenReg g ((off - 0x740) / 4)) s
    else if 0x780 ≤ off && off < 0x7A0 then retw (s.padReg g ((off - 0x780) / 4)) s
    else readStored (pGrp g) off s

def seqPageRead (q off : Nat) (s : State) : State :=
  if off = 0x058 || off = 0x078 then s.ret 0 else readStored (pSeq q) off (s.goSync q)

def anaPageRead (g off : Nat) (s : State) : State :=
  match off with
  | 0x048 => s.ret 0
  | 0x050 => s.adcResultRead g 0
  | 0x054 => s.adcResultRead g 1
  | 0x058 => s.adcFifoRead g 0
  | 0x05C => s.adcFifoRead g 1
  | 0x060 => retw (s.fifoStat g) s
  | _ => readStored (pAna g) off s

/-- A read of a page's own registers. -/
def pageRead (a : Agent) (p off : Nat) (s : State) : State :=
  if isTrim p off then retw (s.trim p off) s
  else match blockRow p with
    | none => s.ret 0xFFFFFFFF
    | some (.ident, _) => retw (if off = 0x060 then s.lcMirror else s.identWord off) s
    | some (.steward, _) => stwRead off s
    | some (.ledger, _) => ledgerRead off s
    | some (.lifecycle, _) => lifeRead off s
    | some (.security, _) => secRead off s
    | some (.power, _) =>
      if off = 0x05C then s.ret (tabGet (0 : BitVec 16) s.pwr.sensors (s.rf (reg p 0x058) 3 0)).toNat else readStored p off s
    | some (.bist, _) => bistRead off s
    | some (.counterDump, _) => cntPageRead a off s
    | some (.store, _) => storeRead off s
    | some (.flashRecovery, _) => retw (s.recWord off) s
    | some (.image, _) => imgRead off s
    | some (.record, b) => retw (s.recordWord (p - b) off) s
    | some (.domain, b) => domPageRead (p - b) off s
    | some (.carillon, _) => carPageRead off s
    | some (.port, _) => readStored p off s
    | some (.router, _) => rtrPageRead off s
    | some (.pcie, _) => readStored p off s
    | some (.ulane, b) =>
      if off = 0x044 then laneStatRead (p - b) s else if off = 0x04C then prbsRead (p - b) s else readStored p off s
    | some (.can, _) => protoPageRead p off s
    | some (.lin, _) => protoPageRead p off s
    | some (.sent, _) => protoPageRead p off s
    | some (.eth, _) => protoPageRead p off s
    | some (.region, b) => regionPageRead (p - b) off s
    | some (.pingroup, b) => grpPageRead (p - b) off s
    | some (.seq, b) => seqPageRead (p - b) off s
    | some (.analog, b) => anaPageRead (p - b) off s

/-- STATUS of a page. A unit just disabled reads ON to the end of the page-clock cycle (R438). -/
def statusWord (s : State) (p : Nat) : Word :=
  let w := s.rd (reg p oStatus)
  if s.unitState p = 0 && s.offs.any fun e => e.1 = p && decide (s.now < e.2) then setFld w 3 0 2 else w

/-- A register of the common header (Table 16.2, R429). A page under self-test still shows its header. -/
def headerRead (p off : Nat) (s : State) : State :=
  match blockRow p with
  | none => s.ret 0xFFFFFFFF
  | some (_, b) =>
    if off = 0x000 then s.ret (b * 65536 + (p - b)) else if off = 0x004 then s.ret 0x100
    else if off = oStatus then retw (s.statusWord p) s
    else if off = oEvent then readStored p off (s.eventSync p) else readStored p off s

/-- One register read. The profile denies LIFECYCLE and SECURITY to lattice and TAP (R376); a reserved page reads all
ones (R8); a page under self-test (R346) or closed (R400) reads 0 but for the header. -/
def regRead (a : Agent) (p off : Nat) (s : State) : State :=
  if !s.serves a then (s.ret 0).answer .ur
  else if (p = pLife || p = pSec) && s.lifeDenies a then (s.ret 0).answer .denied
  else if (blockOf p).isNone then (s.ret 0xFFFFFFFF).answer .ok
  else if s.closed p || off % 4 != 0 || 4096 ≤ off then (s.ret 0).answer .ok
  else if off < 0x040 then (headerRead p off s).answer .ok
  else if s.inSelftest p then (s.ret 0).answer .selftest
  else (pageRead a p off s).answer .ok

/-- Whether an agent's path reaches page `p` for a read (Table 6.5, R153). -/
def reachesRead (s : State) (a : Agent) (p : Nat) : Bool :=
  match a with
  | .region _ => blockOf p = some .ident || blockOf p = some .region || blockOf p = some .seq || s.reachesWrite a p
  | .seq q => p = pSeq q || s.reachesWrite a p
  | _ => true

/-! ### Host accesses to BAR0 (R306) -/

/-- SIZE_ERR: the access has no effect, and a read returns 0. (DEDUCED: assumption 22) -/
def sizeErr (s : State) : State := ((s.ret 0).answer .ok).raise pPcie 6

/-- One access to BAR0 by the local host, or by a remote one (R277). (DESIGN CHOICE: assumption 11) -/
def bar0 (a : Agent) (x : HostAccess) (s : State) : State :=
  if !s.serves a then (s.ret 0).answer .ur
  else if x.write then
    if x.size != 4 || x.be != 0xF || x.off % 4 != 0 then sizeErr s
    else if x.poisoned then (s.answer .ok).raise pPcie 7
    else regWrite a (x.off / 4096) (x.off % 4096) (x.data.setWidth 32) s
  else if x.size = 4 && x.off % 4 = 0 then regRead a (x.off / 4096) (x.off % 4096) s
  else if x.size = 8 && x.off % 8 = 0 then
    let lo := regRead a (x.off / 4096) (x.off % 4096) s
    let hi := regRead a ((x.off + 4) / 4096) ((x.off + 4) % 4096) lo
    hi.ret (lo.rdata + hi.rdata * 2 ^ 32)
  else sizeErr s

end State

/-! ### The commands -/

/-- REGISTER_WRITE (R5, R6). -/
def execRegisterWrite (t : Nat) (a : Agent) (p off : Nat) (v : Word) : State → Host.Outcome State Fault Refusal :=
  run t (State.regWrite a p off v)
/-- ENABLE (R437). -/
def execEnable (t : Nat) (a : Agent) (p : Nat) (v : Word) : State → Host.Outcome State Fault Refusal :=
  run t (State.regWrite a p oCtrl v)
/-- CONSISTENCY_CHECK_END (R437). -/
def execConsistencyCheckEnd (t p : Nat) (lref : Bool) : State → Host.Outcome State Fault Refusal :=
  run t (State.checkEnd p lref)
/-- DISABLE (R438). -/
def execDisable (t : Nat) (a : Agent) (p : Nat) (v : Word) : State → Host.Outcome State Fault Refusal :=
  run t (State.regWrite a p oCtrl v)
/-- EVENT_W1C (R435). -/
def execEventW1c (t : Nat) (a : Agent) (p : Nat) (v : Word) : State → Host.Outcome State Fault Refusal :=
  run t (State.regWrite a p oEvent v)
/-- EVENT_MASK_WRITE (R310). -/
def execEventMaskWrite (t : Nat) (a : Agent) (p : Nat) (v : Word) : State → Host.Outcome State Fault Refusal :=
  run t (State.regWrite a p oMask v)
/-- LOCK (R434). -/
def execLock (t : Nat) (a : Agent) (p : Nat) (v : Word) : State → Host.Outcome State Fault Refusal :=
  run t (State.regWrite a p oLock v)
/-- BAR0_ACCESS (R306). -/
def execBar0Access (t : Nat) (x : HostAccess) : State → Host.Outcome State Fault Refusal := run t (State.bar0 .host x)

end Sys2Proof.Machine
end

