-- ==== Sys2Proof/Machine/Roll.lean ====
section
/-! DEFINITION. Machine/Roll.lean: the instruction unit of a Roll sequencer (R131 to R162): fetch, conditions, and one
meaning for each opcode. A command of an opcode acts when the instruction at PC has that opcode and the unit can
execute it; otherwise only time passes. -/
namespace Sys2Proof.Machine

/-! ### The instruction word (Table 5.1) -/

def iOp (w : Nat) : Nat := bits w 63 58
def iCond (w : Nat) : Nat := bits w 57 54
def iA (w : Nat) : Nat := bits w 53 50
def iB (w : Nat) : Nat := bits w 49 46

/-- Table 5.2 lists the opcode. -/
def opKnown (op : Nat) : Bool :=
  op ≤ 0x05 || (0x08 ≤ op && op ≤ 0x0D) || (0x10 ≤ op && op ≤ 0x12) || (0x18 ≤ op && op ≤ 0x21)
    || (0x28 ≤ op && op ≤ 0x2E)

/-- What the fetch of an instruction gives: its word and whether it is a free value, a FETCH fault, or a demand miss. -/
inductive Fetched where
  | word (w : Nat) (free : Bool)
  | fault
  | miss
deriving DecidableEq, Repr

/-- What an instruction's COND says: reserved, not yet to be evaluated (R146), false, or true. -/
inductive CondAns where
  | bad | wait | no | yes
deriving DecidableEq, Repr

namespace State

/-! ### Registers of the instruction unit (R132) -/

def gpr (s : State) (q n : Nat) : Word := s.rd (qreg q (0x100 + 4 * n))
def lcReg (q n : Nat) : Nat := qreg q (0x140 + 4 * n)
def lsReg (q n : Nat) : Nat := qreg q (0x150 + 4 * n)
def stackReg (q n : Nat) : Nat := qreg q (0x160 + 4 * n)
def spOf (s : State) (q : Nat) : Nat := s.rf (qreg q 0x180) 3 0

/-- G[n] takes a value, and Z says whether it is 0 (R134). -/
def setGpr (s : State) (q n : Nat) (v : Word) : State := (s.wr (qreg q (0x100 + 4 * n)) v).setQflag q 12 (v = 0)

/-! ### Fetch (R131, R155, R157) -/

/-- The record bank that SEQ_CFG.XIP_BANK selects. -/
def xipBank (s : State) (q : Nat) : Nat := fld (s.qcfg q) 14 12

/-- Instruction `i` of the bank lies in a line of the prefetch buffer or of the branch target cache. -/
def xipHeld (s : State) (b i : Nat) : Bool :=
  (s.xip b).lines.contains (i / 8) || (s.xip b).btc.any (· / 8 = i / 8)

/-- The fetch of the instruction at PC. What comes from a sector being programmed or erased is free (R157), and so is an
instruction of which one half has been written (R442). (DESIGN CHOICE: assumption 66, DESIGN CHOICE: assumption 67) -/
def fetch (s : State) (q : Nat) : Fetched :=
  let c := s.pcOf q
  let x := s.sq q
  if c < 0x2000 then
    match x.fresh.find? fun e => e.1 = c && decide (s.now < e.2.1) with
    | some (_, _, some w) => .word w false
    | some (_, _, none) => .word (s.freeNat % 2 ^ 64) true
    | none => if x.torn.any (·.1 = c) then .word (s.freeNat % 2 ^ 64) true else .word (s.progWord q c) false
  else if c < 0x80000 || !bit (s.qcfg q) 11 then .fault
  else
    let i := c - 0x80000
    let b := s.xipBank q
    let y := s.sec (96 + b) (i / 512)
    let f := s.flashWord (96 + b) (i / 512) (i % 512)
    if y.state = .incomplete || y.listed then .fault
    else if !s.xipHeld b i || (x.miss.isSome && !(s.xip b).lines.contains (i / 8)) then .miss
    else if (s.xip b).bad.contains i then .fault
    else if y.state != .normal || f.undef then .word (s.freeNat % 2 ^ 64) true
    else .word f.data.toNat false

/-- An uncorrectable word met by an execute-in-place fetch is counted on the bank's page (Table 7.22). -/
def fetchFault (s : State) (q : Nat) : State :=
  let c := s.pcOf q
  let i := c - 0x80000
  let b := s.xipBank q
  let y := s.sec (96 + b) (i / 512)
  (s.raiseIf (decide (0x80000 ≤ c) && bit (s.qcfg q) 11 && y.state != .incomplete && !y.listed) (pRecord b) 2).faultAt q 4

/-- Line `l` of bank `b` comes into the prefetch buffer; a taken transfer that missed fills the branch target cache. `bad`
names the words of the line that read uncorrectable. (DEDUCED: assumption 68) -/
def lineFill (s : State) (q b l : Nat) (bad : BitVec 8) : State :=
  let x := s.xip b
  let lines := (l :: x.lines).take 8
  let btc := match (s.sq q).miss with
    | some t => if t / 8 = l then (t :: x.btc).take 64 else x.btc
    | none => x.btc
  let held (n : Nat) : Bool := lines.contains (n / 8) || btc.any (· / 8 = n / 8)
  let bads := (x.bad.filter fun n => n / 8 != l && held n) ++ (bitList 8 bad.toNat).map (8 * l + ·)
  (s.setXip b { lines := lines, btc := btc, bad := bads }).setSq q { s.sq q with miss := none }

/-- The line that the sequencer's bank is to read next: the one a demand miss waits for, else the next that the
prefetcher lacks. -/
def lineWanted (s : State) (q : Nat) : Option Nat :=
  let c := s.pcOf q
  let i := c - 0x80000
  if !s.running q || s.runOf q = 1 || c < 0x80000 || !bit (s.qcfg q) 11 then none
  else if (s.sq q).miss.isSome && !(s.xip (s.xipBank q)).lines.contains (i / 8) then some (i / 8)
  else ([i / 8, i / 8 + 1, i / 8 + 2].filter (· < 65536)).find? (fun l => !s.xipHeld (s.xipBank q) (8 * l))

/-- XIP_LINE_READ: one granted line read. -/
def lineRead (s : State) (q : Nat) (bad : BitVec 8) : State :=
  match s.lineWanted q with
  | none => s
  | some l => s.lineFill q (s.xipBank q) l bad

/-- The line of the instruction at PC becomes the most recently used. -/
def xipTouch (s : State) (q : Nat) : State :=
  let c := s.pcOf q
  let b := s.xipBank q
  let l := (c - 0x80000) / 8
  let x := s.xip b
  if c < 0x80000 || !x.lines.contains l then s else s.setXip b { x with lines := l :: x.lines.erase l }

/-! ### Conditions (R135, R146) -/

/-- Every vector enqueued has issued, and the results of this run are complete. -/
def judged (s : State) (q : Nat) : Bool :=
  (s.sq q).fifo.isEmpty && (s.sq q).res.all (·.epoch != (s.sq q).epoch)

/-- Table 5.3. -/
def condition (s : State) (q c : Nat) : CondAns :=
  let ans (b : Bool) : CondAns := if b then .yes else .no
  if c = 0 then .yes
  else if c = 1 then (if s.judged q then ans (s.qflag q 8) else .wait)
  else if c = 2 then (if s.judged q then ans (!s.qflag q 8) else .wait)
  else if c ≤ 6 then ans (s.qflag q (c - 3))
  else if c = 7 then ans (s.qflag q 12)
  else if c = 8 then ans (!s.qflag q 12)
  else if c = 9 then ans (s.qflag q 10)
  else if c = 10 then ans (s.qflag q 11)
  else if c = 11 then ans (s.qflag q 9)
  else if c = 12 then ans (s.domStopped (s.qdom q))
  else .bad

/-- The instruction unit can begin an instruction: the page is ON, RUN is RUNNING, and none is under way. -/
def canExec (s : State) (q : Nat) : Bool :=
  s.isOn (pSeq q) && s.runOf q = 2 && (s.sq q).busy = .idle

/-- An instruction acts beyond its sequencer: LD and ST outside the RESULT space, CAPT, EVENT, PEAL, LOG, SWAPREQ. -/
def outward (w : Nat) : Bool :=
  ((iOp w = 0x20 || iOp w = 0x21) && bits w 26 24 != 0) || iOp w = 0x28 || (0x2B ≤ iOp w && iOp w ≤ 0x2E)

/-- An undefined instruction that would act beyond its sequencer does not: its effects stay within it (R3, R157, R442), a
register that it loads holding a free value. (DESIGN CHOICE: assumption 66) -/
def confined (q w : Nat) (s : State) : State :=
  (if iOp w = 0x20 then (s.setGpr q (iA w) (word s.freeNat)).drew else s).retireNext q

/-- The instruction at PC is executed if `sel` accepts its word: a reserved condition faults, a condition that waits
for judgements or `f` itself may leave it where it is, a false one retires it. (DESIGN CHOICE: assumption 49) -/
def instr (q : Nat) (sel : Nat → Bool) (f : Nat → State → State) (s0 : State) : State :=
  let s := s0.goSync q
  if !s.canExec q then s
  else match s.fetch q with
    | .word w d =>
      if !sel w then s
      else
        let s1 := (if d then s.drew else s).xipTouch q
        (match s1.condition q (iCond w) with
         | .bad => s1.faultAt q 1
         | .wait => s
         | .no => s1.retireNext q
         | .yes => if d && outward w then confined q w s1 else f w s1)
    | _ => s

/-- Instructions of one opcode. -/
def opcode (q op : Nat) (f : Nat → State → State) : State → State := instr q (fun w => iOp w = op) f

/-- The instruction retires and a taken transfer follows; a target in place that is not at hand is to fill the branch
target cache, and one that hits it becomes its most recently used entry (R155). -/
def jump_ (s : State) (q target : Nat) : State :=
  let s1 := s.retire q target
  let t := target % 2 ^ 20
  let i := t - 0x80000
  let b := s.xipBank q
  let y := s1.xip b
  if t < 0x80000 || !bit (s.qcfg q) 11 then s1
  else if !y.lines.contains (i / 8) && !y.btc.contains i then s1.setSq q { s1.sq q with miss := some i }
  else if y.btc.contains i then s1.setXip b { y with btc := i :: y.btc.erase i }
  else s1

/-! ### Vector commands (R140, R149, R163) -/

/-- The vector address of VEC, VECR and MATCH. -/
def vaddr (s : State) (q w : Nat) : Nat :=
  (bits w 13 0 + (if nbit w 14 then fld (s.gpr q (iA w)) 13 0 else 0)) % 16384

/-- The vectors that a STEP issues keep the grid of the last GO or RESYNC, from its first point still to come (R163); a position
grid has its boundary 0 from the GO on. (DEDUCED: assumption 70) -/
def stepGrid (s : State) (q : Nat) : State :=
  let x := s.sq q
  if !x.step || x.issuing then s
  else if s.qpos q then
    let ref := max (s.frontierNow (s.qdom q)) (s.totalAt (s.qdom q) s.now)
    let b := x.b0.getD (s.firstBoundary q)
    s.setSq q { x with issuing := true, b0 := some b, k := max x.k ((ref - b) / s.vinc q + 1).toNat }
  else
    let n := x.stepAt + ns 40
    s.setSq q { x with issuing := true, k := max x.k ((n - x.t0 + (s.vperiod q - 1)) / s.vperiod q) }

/-- A vector command joins the FIFO, or stalls while it is full. -/
def enqueueCmd (s : State) (q : Nat) (c : VCmd) (busy : Busy) : State :=
  let x := s.sq q
  if 32 ≤ x.fifo.length then s
  else
    let s1 := (s.setSq q { x with fifo := x.fifo ++ [c], capt := 0 }).stepGrid q
    if busy = .idle then s1.retireNext q else s1.setSq q { s1.sq q with busy := busy }

/-- VEC and VECR. -/
def vecOp (q : Nat) (rep : Bool) (w : Nat) (s : State) : State :=
  let n := bits w 31 16
  let x := s.sq q
  s.enqueueCmd q { addr := s.vaddr q w, left := if n = 0 then 65536 else n, rep := rep, tset := x.tset, caddr := s.pcOf q
                   capt := x.capt } (if x.step then .vectors else .idle)

/-- MATCH begins its loop (R149). -/
def matchOp (q w : Nat) (s : State) : State :=
  let n := bits w 35 16
  let lim := if n = 0 then 2 ^ 20 else n
  let x := s.sq q
  s.enqueueCmd q { addr := s.vaddr q w, left := lim, rep := true, tset := x.tset, caddr := s.pcOf q, capt := x.capt
                   mat := true } (.matching (s.vaddr q w) lim 0 0)

/-! ### Transfers -/

/-- LOOP. -/
def loopOp (q w : Nat) (s : State) : State :=
  let n := if nbit w 26 then fld (s.gpr q (iB w)) 23 0 else bits w 23 0
  let k := bits w 25 24
  ((s.wr (lcReg q k) (word n)).wr (lsReg q k) (word ((s.pcOf q + 1) % 2 ^ 20))).retireNext q

/-- ENDL. -/
def endlOp (q w : Nat) (s : State) : State :=
  let k := bits w 1 0
  let n := (s.rf (lcReg q k) 23 0 + (2 ^ 24 - 1)) % 2 ^ 24
  let s1 := s.wr (lcReg q k) (word n)
  if n = 0 then s1.retireNext q else s1.jump_ q (s.rf (lsReg q k) 19 0)

/-- CALL. -/
def callOp (q w : Nat) (s : State) : State :=
  let sp := s.spOf q
  if 8 ≤ sp then s.faultAt q 2
  else ((s.wr (stackReg q sp) (word ((s.pcOf q + 1) % 2 ^ 20))).wr (qreg q 0x180) (word (sp + 1))).jump_ q (bits w 19 0)

/-- RET. -/
def retOp (q : Nat) (s : State) : State :=
  let sp := s.spOf q
  if sp = 0 then s.faultAt q 3
  else (s.wr (qreg q 0x180) (word (sp - 1))).jump_ q (s.rf (stackReg q (sp - 1)) 19 0)

/-! ### Waiting (R150, R151) -/

/-- A wait begins. (DEDUCED: assumption 50) -/
def waitBegin (s : State) (q : Nat) (b : Busy) : State := (s.setSq q { s.sq q with busy := b }).setRun q 3

/-- WAITT: N cycles; with N = 0 it completes at once. -/
def waittOp (q w : Nat) (s : State) : State :=
  let n := if nbit w 32 then (s.gpr q (iB w)).toNat else bits w 31 0
  if n = 0 then s.retireNext q else s.waitBegin q (.waitT s.now n)

/-- WAITT_COMPLETE. -/
def waittEnd (s : State) (q : Nat) : State :=
  match (s.sq q).busy with
  | .waitT since n => if since + n * seqCycle ≤ s.now then s.retireNext q else s
  | _ => s

/-- The instant at which a wait with a timeout ends. -/
def tmoAt (since : Nat) (tmo : Option Nat) : Option Nat := tmo.map fun n => since + n * seqCycle

/-- The instant lies no later than the timeout. (DEDUCED: assumption 56) -/
def beforeTmo (since : Nat) (tmo : Option Nat) (t : Nat) : Bool :=
  match tmoAt since tmo with | none => true | some e => t ≤ e

/-- The firing that ends a WAITP: the first after it began, once committed, 10 ns before its resolved instant. -/
def waitpEvent (s : State) (since d m : Nat) (tmo : Option Nat) : Option (Nat × Bool) :=
  (s.firingAfter d m since).filter fun e => beforeTmo since tmo (e.1 - ns 10)

/-- The event of a WAITE is present. -/
def waiteEvent (s : State) (q since kind p line : Nat) (tmo : Option Nat) : Bool :=
  if kind = 0 then s.rb (qreg q 0x05C) 16
  else if kind = 1 then s.rb (qreg q 0x05C) 17
  else if kind = 2 then
    (s.sq p).pulses.any fun e => e.1 = line && since / seqCycle ≤ e.2 / seqCycle && beforeTmo since tmo e.2
  else s.qflag q (line % 4)

/-- The wait under way has its event. -/
def waitMet (s : State) (q : Nat) : Bool :=
  match (s.sq q).busy with
  | .waitP since d m _ tmo => (s.waitpEvent since d m tmo).isSome
  | .waitE since kind p line tmo => s.waiteEvent q since kind p line tmo
  | _ => false

/-- A wait ends by its event: TIMEOUT is 0; a firing's LATE is noted and RESYNC sets the new grid; a latched request
is cleared. -/
def waitDone (s : State) (q : Nat) : State :=
  let s1 := s.setQflag q 11 false
  match (s.sq q).busy with
  | .waitP since d m resync tmo =>
    (match s.waitpEvent since d m tmo with
     | none => s
     | some (due, late) =>
       let s2 := if late then s1.setQflag q 9 true else s1
       let x := s2.sq q
       let s3 := if resync && !s.qpos q then
           (s2.setSq q { x with regrid := some (due + ns 20), regLeft := x.fifo.length }).regridSync q
         else s2
       s3.retireNext q)
  | .waitE _ kind _ _ _ =>
    (if kind = 0 then s1.wb (qreg q 0x05C) 16 false
     else if kind = 1 then s1.wb (qreg q 0x05C) 17 false
     else s1).retireNext q
  | _ => s

/-- A wait ends by timeout. -/
def waitFail (s : State) (q : Nat) : State := ((s.setQflag q 11 true).raise (pSeq q) 10).retireNext q

/-- A wait that has begun ends at once if its event is present, or its timeout is 0. -/
def waitCheck (s : State) (q : Nat) (tmo : Option Nat) : State :=
  if s.waitMet q then s.waitDone q else if tmo = some 0 then s.waitFail q else s

/-- WAITP. (DEDUCED: assumption 57) -/
def waitpOp (q w : Nat) (s : State) : State :=
  let tmo := if nbit w 11 then some (s.gpr q (iB w)).toNat else none
  (s.waitBegin q (.waitP s.now (bits w 3 0) (bits w 9 4) (nbit w 10) tmo)).waitCheck q tmo

/-- WAITE of a kind. (DEDUCED: assumption 58) -/
def waiteOp (q w : Nat) (s : State) : State :=
  let tmo := if nbit w 12 then some (s.gpr q (iB w)).toNat else none
  (s.waitBegin q (.waitE s.now (bits w 1 0) (bits w 7 2) (bits w 11 8) tmo)).waitCheck q tmo

/-- The command of WAITP: a wait under way that has its event ends; otherwise the instruction begins. -/
def waitp (q : Nat) (s : State) : State :=
  match (s.sq q).busy with
  | .waitP .. => if s.waitMet q then s.waitDone q else s
  | _ => opcode q 0x10 (waitpOp q) s

/-- The command of WAITE of kind `k`. -/
def waite (q k : Nat) (s : State) : State :=
  match (s.sq q).busy with
  | .waitE _ k' _ _ _ => if k' = k && s.waitMet q then s.waitDone q else s
  | _ => instr q (fun w => iOp w = 0x12 && bits w 1 0 = k) (waiteOp q) s

/-- WAIT_TIMEOUT: a wait whose timeout has come without its event. -/
def waitTimeout (s : State) (q : Nat) : State :=
  let due : Option Nat := match (s.sq q).busy with
    | .waitP since _ _ _ tmo => tmoAt since tmo
    | .waitE since _ _ _ tmo => tmoAt since tmo
    | _ => none
  if due.any (· ≤ s.now) && !s.waitMet q then s.waitFail q else s

/-! ### Data -/

/-- The second operand of an ALU instruction. -/
def aluX (s : State) (q w : Nat) : Word := if nbit w 32 then s.gpr q (iB w) else word (bits w 31 0)

/-- An ALU instruction (0x19 to 0x1F). -/
def aluOp (q : Nat) (f : Word → Word → Word) (w : Nat) (s : State) : State :=
  (s.setGpr q (iA w) (f (s.gpr q (iA w)) (s.aluX q w))).retireNext q

/-- The effective address of LD and ST (Table 5.2). -/
def effAddr (s : State) (q w : Nat) : Nat := ((s.gpr q (iB w)).toNat + bits w 23 0) % 2 ^ 24

/-- LD or ST faults with ADDR: a reserved SPACE, an EA outside its space, or one not aligned (Tables 5.4, 5.8).
(DEDUCED: assumption 59) -/
def addrBad (s : State) (q sp ea : Nat) : Bool :=
  ea % 4 != 0 ||
    (if sp = 0 then 2 ^ 17 ≤ ea
     else if sp = 1 then 2 ^ 23 ≤ ea
     else if sp = 2 then 2 ^ 21 ≤ ea
     else if sp = 3 then 2 ^ 19 ≤ ea
     else if sp = 4 then 2 ^ 11 ≤ ea || fld (s.qcfg q) 1 0 < ea / 256 % 4
     else true)

/-- The pin that an EA of the SER space names. -/
def serPin (q ea : Nat) : Nat := 64 * (q + ea / 256 % 4) + ea / 4 % 64

/-- `f` leaves what the last external access returned as it is. -/
def quietly (s : State) (f : State → State) : State :=
  let t := f s
  { t with rdata := s.rdata, resp := s.resp }

/-- The word that LD reads into G[a], with the effects of the read (R152 to R154). (DEDUCED: assumption 61) -/
def ldWord (s : State) (q a sp ea : Nat) : Word × State :=
  if sp = 0 then (s.memWord (resBase q + ea), s)
  else if sp = 1 then
    let k := ea / 2 ^ 19
    if s.deepHeld k then (0, s)
    else
      let r := s.deepRd k (ea % 2 ^ 19 / 8) true (.gpr q a)
      (word (if nbit ea 2 then r.1 / 2 ^ 32 else r.1), r.2)
  else if sp = 2 then
    let p := ea / 4096
    if !s.reachesRead (.seq q) p then (0, s.raise (pSeq q) 9)
    else (word (s.regRead (.seq q) p (ea % 4096)).rdata, s.quietly (regRead (.seq q) p (ea % 4096)))
  else if sp = 3 then
    let n := ea / 8
    if !assigned n then (0, s.refuse (pSeq q) .range)
    else if nbit ea 2 then (word (s.countHi (readerKey (.seq q))).rdata, s)
    else if !s.userRead (n / 16) then (0, s.raise (pSeq q) 9)
    else (word (s.countLo (readerKey (.seq q)) n).rdata, s.quietly (·.countLo (readerKey (.seq q)) n))
  else
    let i := serPin q ea
    if s.inSelftest (pGrp (i / 64)) then (0, s)
    else if nbit ea 10 then (tabGet 0 (s.sq q).serHi i, s)
    else
      let r := s.rxPop i
      (word r.1, r.2.setSq q { r.2.sq q with serHi := tabPut (r.2.sq q).serHi i (word (r.1 / 2 ^ 32)) })

/-- LD. -/
def ldOp (q w : Nat) (s : State) : State :=
  let sp := bits w 26 24
  let ea := s.effAddr q w
  if s.addrBad q sp ea then s.faultAt q 5
  else
    let r := s.ldWord q (iA w) sp ea
    (r.2.setGpr q (iA w) r.1).retireNext q

/-- The word that ST writes reaches its space. -/
def stWord (s : State) (q sp ea : Nat) (v : Word) : State :=
  if sp = 0 then (s.putWord (resBase q + ea) v).take (memKey (resBase q + ea)) seqCycle 1
  else if sp = 1 then
    let k := ea / 2 ^ 19
    if s.deepHeld k then s
    else s.deepWr k (ea % 2 ^ 19 / 8) (v.toNat * 2 ^ (if nbit ea 2 then 32 else 0)) (if nbit ea 2 then 0xF0 else 0x0F) true
  else if sp = 2 then
    let p := ea / 4096
    let off := ea % 4096
    if p = pSeq q || off < 0x40 || !s.reachesWrite (.seq q) p then s.raise (pSeq q) 9
    else s.quietly (regWrite (.seq q) p off v)
  else if sp = 3 then s.raise (pSeq q) 9
  else
    let i := serPin q ea
    if s.inSelftest (pGrp (i / 64)) then s
    else if nbit ea 10 then s.txPush i (v ++ tabGet 0 (s.sq q).serLo i)
    else s.setSq q { s.sq q with serLo := tabPut (s.sq q).serLo i v }

/-- ST. (DEDUCED: assumption 62) -/
def stOp (q w : Nat) (s : State) : State :=
  let sp := bits w 26 24
  let ea := s.effAddr q w
  if s.addrBad q sp ea then s.faultAt q 5 else (s.stWord q sp ea (s.gpr q (iA w))).retireNext q

/-! ### Signature, flags, events -/

/-- SIG with operation `k`: 0 CLEAR, 1 READ, 2 CHECK; 3 is refused by any of the three commands (R134, R147). -/
def sig (q k : Nat) : State → State :=
  instr q (fun w => iOp w = 0x29 && (bits w 1 0 = k || bits w 1 0 = 3)) fun w s =>
    if bits w 1 0 = 3 then s.faultAt q 1
    else if k = 0 then (s.wr (qreg q 0x070) 0xFFFFFFFF).retireNext q
    else if !s.judged q then s
    else if k = 1 then (s.wr (qreg q (0x100 + 4 * iA w)) (s.rd (qreg q 0x070))).retireNext q
    else (s.setQflag q 10 (s.rd (qreg q 0x070) = s.gpr q (iA w))).retireNext q

/-- FLAG. The F bits that the fabric sets, or the host writes, in the same cycle stand (R132). -/
def flagOp (q w : Nat) (s : State) : State :=
  let f := s.rf (qreg q 0x064) 3 0
  let clr := bits w 7 4
  let n := s.flagsNow q
  let s1 := if n.2 then s
    else s.wf (qreg q 0x064) 3 0 (Nat.lor (Nat.lor (f - Nat.land f clr) (bits w 3 0)) n.1)
  let s2 := if nbit w 8 then s1.setQflag q 8 false else s1
  let s3 := if nbit w 9 then s2.setQflag q 9 false else s2
  (if nbit w 10 then (s3.setQflag q 10 false).setQflag q 11 false else s3).retireNext q

/-- EVENT (R159). -/
def eventOp (q w : Nat) (s : State) : State :=
  let l := bits w 3 0
  let s1 := evPulse q l ((s.wb (qreg q 0x07C) l true).raise (pSeq q) 2)
  (s1.setSq q { s1.sq q with pulses := tabPut (s1.sq q).pulses l s.now }).retireNext q

/-! ### LOG (R161, R162) -/

/-- A LOG that completes without effect, with a reason. -/
def logFail (s : State) (q : Nat) (r : Option Reason) : State :=
  let s1 := match r with | some r => s.wf (qreg q 0x098) 31 24 r.code | none => s
  (s1.raise (pSeq q) 7).retireNext q

/-- First sector of the log area, and the sector after its last. -/
def logArea (s : State) (q : Nat) : Nat × Nat :=
  let a := s.rd (qreg q 0x090)
  (fld a 21 12, fld a 21 12 + (if fld a 31 22 = 0 then 1024 else fld a 31 22))

/-- Where a record of `len` data words goes: sector, word, and its number in the sector (R161, R225). -/
def logPlace (s : State) (q len : Nat) : Option (Nat × Nat × Nat) :=
  let x := s.sq q
  let sec := s.rf (qreg q 0x094) 25 16
  let wd := s.rf (qreg q 0x094) 8 0
  if x.logEnd then none
  else if wd + len + 1 ≤ 504 && x.logRec < 64 then some (sec, wd, x.logRec)
  else if sec + 1 < (s.logArea q).2 then some (sec + 1, 0, 0)
  else none

/-- The words of a record: its header, and its data from the leader's result memory. An offset that is not a
multiple of 8, and data beyond the end of the memory, have no stated value: they are free.
(DESIGN CHOICE: assumption 64) -/
def logWords (s : State) (q w : Nat) : List (BitVec 64) :=
  let len := bits w 8 0
  let src := fld (s.gpr q (iB w)) 16 0
  let header := fld (s.gpr q (iA w)) 15 0 * 2 ^ 48 + q * 2 ^ 42 + len * 2 ^ 32 + (s.rd (qreg q 0x068)).toNat
  BitVec.ofNat 64 header :: (List.range len).map fun i =>
    if src % 8 != 0 || 131072 < src + 8 * i + 8 then s.free64 i
    else BitVec.ofNat 64 (bytesNat ((List.range 8).map fun k => s.byte (resBase q + src + 8 * i + k)))

/-- The record is handed to the SEQUENCER queue and LOG_PTR moves on; a full queue stalls the LOG. -/
def logPut (s : State) (q w : Nat) (place : Nat × Nat × Nat) : State :=
  let (sec, wd, n) := place
  let len := bits w 8 0
  if 64 ≤ s.dqHeld 3 then s.setSq q { s.sq q with busy := .log w }
  else
    let bank := 96 + s.rf (qreg q 0x090) 2 0
    let d : Desc := {
      src := .seq q, log := s.logWords q w, recno := n
      ws := [word opProgram, word (bank * 2 ^ 22 + sec * 2 ^ 12 + wd), word (len + 1), 0, 0, 0, 0, 0] }
    let s1 := (s.drewN len).enqueue 3 d
    let full : Bool := 504 ≤ wd + len + 1
    let last : Bool := full && decide ((s.logArea q).2 ≤ sec + 1)
    let s2 := (s1.wr (qreg q 0x094)
      (word (if full then (sec + 1) % 1024 * 2 ^ 16 else sec * 2 ^ 16 + wd + len + 1))).setSq q
        { s1.sq q with logRec := if full then 0 else n + 1, logEnd := last }
    (s2.wf (qreg q 0x098) 15 8 (s.rf (qreg q 0x098) 15 8 + 1)).retireNext q

/-- LOG: its checks, its claim, and its record. FULL rises at a LOG for which the area has no room, not before.
(DESIGN CHOICE: assumption 198) -/
def logOp (q w : Nat) (s : State) : State :=
  let len := bits w 8 0
  if len = 0 || 503 < len then s.logFail q (some .range)
  else match s.logPlace q len with
    | none => (s.wb (qreg q 0x098) 19 true).logFail q none
    | some place =>
      let x := s.sq q
      if x.logRefused then s.logFail q none
      else match x.logClaim with
        | none =>
          let r := s.claim actFlash (agSeq q) [resBank bWrite (96 + s.rf (qreg q 0x090) 2 0)] 100
          (match r.1 with
           | .refused e => (r.2.setSq q { r.2.sq q with logRefused := true }).logFail q (some e)
           | .queued n => r.2.setSq q { r.2.sq q with logClaim := some n, logQueued := true, busy := .log w }
           | .granted n => ((r.2.setSq q { r.2.sq q with logClaim := some n, logQueued := false }).wb
               (qreg q 0x098) 18 true).logPut q w place)
        | some n =>
          if (s.claimOf n).isNone then
            (s.setSq q { x with logClaim := none, logQueued := false, logRefused := true }).logFail q (some .conflict)
          else if !s.claimGranted n then s.setSq q { x with busy := .log w }
          else ((s.setSq q { x with logQueued := false }).wb (qreg q 0x098) 18 true).logPut q w place

/-- The command of LOG: one that waits is tried again; otherwise the instruction begins.
(DEDUCED: assumption 63, PRESUMED: assumption 65) -/
def logCmd (q : Nat) (s : State) : State :=
  match (s.sq q).busy with
  | .log w => logOp q w s
  | _ => opcode q 0x2D (logOp q) s

/-! ### HALT and ILLEGAL -/

/-- HALT takes its code and waits for the vectors already enqueued. (DEDUCED: assumption 51) -/
def haltOp (q w : Nat) (s : State) : State :=
  (s.wr (qreg q 0x06C) (word (bits w 15 0))).setSq q { s.sq q with busy := .halt }

/-- HALT_RETIRE: every enqueued vector has issued. (DEDUCED: assumption 52) -/
def haltRetire (s : State) (q : Nat) : State :=
  let x := s.sq q
  if x.busy != .halt || !x.fifo.isEmpty then s
  else if x.spanFault then s.retireNext q
  else
    let s1 := (s.setSq q { x with retired := s.pcOf q, retiredAt := some s.now }).setPc q ((s.pcOf q + 1) % 2 ^ 20)
    (s1.haltAt q 1).stopIssue q

/-- ILLEGAL: a fetch that faults, an opcode that Table 5.2 does not list, a reserved condition, or SIG with OP 3.
(DEDUCED: assumption 54) -/
def illegal (q : Nat) (s0 : State) : State :=
  let s := s0.goSync q
  if !s.canExec q then s
  else match s.fetch q with
    | .fault => s.fetchFault q
    | .miss => s
    | .word w d =>
      let s1 := (if d then s.drew else s).xipTouch q
      if !opKnown (iOp w) || s.condition q (iCond w) = .bad
          || (iOp w = 0x29 && bits w 1 0 = 3 && s.condition q (iCond w) = .yes) then s1.faultAt q 1
      else s

end State

/-! ### The commands -/

/-- HALT (R134). -/
def execHalt (t q : Nat) : State → Host.Outcome State Fault Refusal := run t (State.opcode q 0x00 (State.haltOp q))
/-- HALT_RETIRE (R134, R143). -/
def execHaltRetire (t q : Nat) : State → Host.Outcome State Fault Refusal := run t (·.haltRetire q)
/-- NOP (R134). -/
def execNop (t q : Nat) : State → Host.Outcome State Fault Refusal :=
  run t (State.opcode q 0x01 fun _ s => s.retireNext q)
/-- VEC (R134). -/
def execVec (t q : Nat) : State → Host.Outcome State Fault Refusal := run t (State.opcode q 0x02 (State.vecOp q false))
/-- VECR (R134). -/
def execVecr (t q : Nat) : State → Host.Outcome State Fault Refusal := run t (State.opcode q 0x03 (State.vecOp q true))
/-- TSET (R134). -/
def execTset (t q : Nat) : State → Host.Outcome State Fault Refusal :=
  run t (State.opcode q 0x04 fun w s => (s.setSq q { s.sq q with tset := bits w 4 0 }).retireNext q)
/-- MATCH (R149). -/
def execMatchVec (t q : Nat) : State → Host.Outcome State Fault Refusal := run t (State.opcode q 0x05 (State.matchOp q))
/-- LOOP (R134). -/
def execLoop (t q : Nat) : State → Host.Outcome State Fault Refusal := run t (State.opcode q 0x08 (State.loopOp q))
/-- ENDL (R134). -/
def execEndl (t q : Nat) : State → Host.Outcome State Fault Refusal := run t (State.opcode q 0x09 (State.endlOp q))
/-- JMP (R134). -/
def execJmp (t q : Nat) : State → Host.Outcome State Fault Refusal :=
  run t (State.opcode q 0x0A fun w s => s.jump_ q (bits w 19 0))
/-- JC (R134). -/
def execJc (t q : Nat) : State → Host.Outcome State Fault Refusal :=
  run t (State.opcode q 0x0B fun w s => s.jump_ q ((s.gpr q (iA w)).toNat + bits w 19 0))
/-- CALL (R134, R136). -/
def execCall (t q : Nat) : State → Host.Outcome State Fault Refusal := run t (State.opcode q 0x0C (State.callOp q))
/-- RET (R134, R136). -/
def execRet (t q : Nat) : State → Host.Outcome State Fault Refusal := run t (State.opcode q 0x0D fun _ s => s.retOp q)
/-- WAITP (R151). -/
def execWaitp (t q : Nat) : State → Host.Outcome State Fault Refusal := run t (State.waitp q)
/-- WAITT (R134). -/
def execWaitt (t q : Nat) : State → Host.Outcome State Fault Refusal := run t (State.opcode q 0x11 (State.waittOp q))
/-- WAITT_COMPLETE (R134). -/
def execWaittComplete (t q : Nat) : State → Host.Outcome State Fault Refusal := run t (·.waittEnd q)
/-- WAITE of kind DOORBELL (R150). -/
def execWaiteDoorbell (t q : Nat) : State → Host.Outcome State Fault Refusal := run t (State.waite q 0)
/-- WAITE of kind FABRIC (R150). -/
def execWaiteFabric (t q : Nat) : State → Host.Outcome State Fault Refusal := run t (State.waite q 1)
/-- WAITE of kind SEQ (R150). -/
def execWaiteSeq (t q : Nat) : State → Host.Outcome State Fault Refusal := run t (State.waite q 2)
/-- WAITE of kind FLAG (R150). -/
def execWaiteFlag (t q : Nat) : State → Host.Outcome State Fault Refusal := run t (State.waite q 3)
/-- WAIT_TIMEOUT (R150). -/
def execWaitTimeout (t q : Nat) : State → Host.Outcome State Fault Refusal := run t (·.waitTimeout q)
/-- LDI (R134). -/
def execLdi (t q : Nat) : State → Host.Outcome State Fault Refusal :=
  run t (State.opcode q 0x18 fun w s => (s.setGpr q (iA w) (word (bits w 31 0))).retireNext q)
/-- ADD (R134). -/
def execAdd (t q : Nat) : State → Host.Outcome State Fault Refusal :=
  run t (State.opcode q 0x19 (State.aluOp q (· + ·)))
/-- SUB (R134). -/
def execSub (t q : Nat) : State → Host.Outcome State Fault Refusal :=
  run t (State.opcode q 0x1A (State.aluOp q (· - ·)))
/-- AND (R134). -/
def execAndI (t q : Nat) : State → Host.Outcome State Fault Refusal :=
  run t (State.opcode q 0x1B (State.aluOp q (· &&& ·)))
/-- OR (R134). -/
def execOrI (t q : Nat) : State → Host.Outcome State Fault Refusal :=
  run t (State.opcode q 0x1C (State.aluOp q (· ||| ·)))
/-- XOR (R134). -/
def execXorI (t q : Nat) : State → Host.Outcome State Fault Refusal :=
  run t (State.opcode q 0x1D (State.aluOp q (· ^^^ ·)))
/-- SHL (R134). -/
def execShl (t q : Nat) : State → Host.Outcome State Fault Refusal :=
  run t (State.opcode q 0x1E (State.aluOp q fun a x => a <<< fld x 4 0))
/-- SHR (R134): logical. -/
def execShr (t q : Nat) : State → Host.Outcome State Fault Refusal :=
  run t (State.opcode q 0x1F (State.aluOp q fun a x => a >>> fld x 4 0))
/-- LD (R152). -/
def execLd (t q : Nat) : State → Host.Outcome State Fault Refusal := run t (State.opcode q 0x20 (State.ldOp q))
/-- ST (R152). -/
def execSt (t q : Nat) : State → Host.Outcome State Fault Refusal := run t (State.opcode q 0x21 (State.stOp q))
/-- CAPT (R158): the mask joins the next vector command. -/
def execCapt (t q : Nat) : State → Host.Outcome State Fault Refusal :=
  run t (State.opcode q 0x28 fun w s =>
    (s.setSq q { s.sq q with capt := Nat.lor (s.sq q).capt (bits w 7 0) }).retireNext q)
/-- SIG CLEAR (R147). -/
def execSigClear (t q : Nat) : State → Host.Outcome State Fault Refusal := run t (State.sig q 0)
/-- SIG READ (R147). -/
def execSigRead (t q : Nat) : State → Host.Outcome State Fault Refusal := run t (State.sig q 1)
/-- SIG CHECK (R147). -/
def execSigCheck (t q : Nat) : State → Host.Outcome State Fault Refusal := run t (State.sig q 2)
/-- FLAG (R134). -/
def execFlag (t q : Nat) : State → Host.Outcome State Fault Refusal := run t (State.opcode q 0x2A (State.flagOp q))
/-- EVENT (R159). -/
def execEvent (t q : Nat) : State → Host.Outcome State Fault Refusal := run t (State.opcode q 0x2B (State.eventOp q))
/-- PEAL (R160): with POSREG, whole part G[A] and fraction 0. -/
def execPeal (t q : Nat) : State → Host.Outcome State Fault Refusal :=
  run t (State.opcode q 0x2C fun w s =>
    (s.pealSend (bits w 3 0) (if nbit w 4 then some ((s.gpr q (iA w)).toNat * 4096) else none)).retireNext q)
/-- LOG (R161, R162). -/
def execLog (t q : Nat) : State → Host.Outcome State Fault Refusal := run t (State.logCmd q)
/-- SWAPREQ (R160): its trigger instant lies 100 ns after it retires (R257). -/
def execSwapreq (t q : Nat) : State → Host.Outcome State Fault Refusal :=
  run t (State.opcode q 0x2E fun w s => (s.swapTrig (bits w 2 0) (s.now + ns 100) false).retireNext q)
/-- XIP_LINE_READ (R155). -/
def execXipLineRead (t q : Nat) (bad : BitVec 8) : State → Host.Outcome State Fault Refusal := run t (·.lineRead q bad)
/-- ILLEGAL (R136). -/
def execIllegal (t q : Nat) : State → Host.Outcome State Fault Refusal := run t (State.illegal q)

end Sys2Proof.Machine
end

