-- ==== Sys2Proof/Machine/Marks.lean ====
section
/-! DEFINITION. Machine/Marks.lean: a mark fires and performs its actions (R51 to R54), and a new segment reaches the
vector boundaries already issued (R44, R143). -/
namespace Sys2Proof.Machine
namespace State

/-- Firing `g` goes before firing `f`: in an earlier pin cycle, or in the same one in the span of a jump where `f` is not, or
at a lower position of that span, or with a lower mark number (R50, R53). (DEDUCED: assumption 31) -/
def goesBefore (g f : Firing) : Bool :=
  if g.due / pinCycle != f.due / pinCycle then decide (g.due / pinCycle < f.due / pinCycle)
  else match g.span, f.span with
    | some a, some b => decide (a < b) || (a = b && decide (g.mark < f.mark))
    | some _, none => true
    | none, some _ => false
    | none, none => decide (g.mark < f.mark)

/-- The committed firing of mark `m` whose instant has come, if none of the domain's goes before it. -/
def firingDue (s : State) (d m : Nat) : Option Firing :=
  (s.dom d).committed.find? fun f =>
    f.mark = m && f.due ≤ s.now && (s.dom d).committed.all fun g => !goesBefore g f

/-- FIRED, LATE and ARM after a firing. A CTRL write that armed the mark again since the commit applies after the
firing (R54). (DEDUCED: assumption 33) -/
def firedCtrl (f : Firing) (v : Word) : Word :=
  if f.re then v
  else
    let w := setBit (setBit v 14 true) 13 f.late
    if fld f.ctrl 2 1 = 0 then setBit w 0 false else w

/-- The actions of a firing, with CTRL and ARG as they stood at its commit, in the order of Table 2.6: a snapshot captures the
velocity after a RATE of the same firing. (DESIGN CHOICE: assumption 190) -/
def markActs (s : State) (d : Nat) (f : Firing) : State :=
  let s1 := s.raiseIf (bit f.ctrl 8) (pDom d) 13
  let s2 := if bit f.ctrl 9 then s1.swapMarkFire (fld f.arg 2 0) f.due f.late else s1
  let s3 := if bit f.ctrl 10 then s2.pealSend (fld f.arg 11 8) none else s2
  let s4 := if bit f.ctrl 11 then
      s3.presetRequest (fld f.arg 27 24) (fld f.arg 22 20) (200 + 64 * d + f.mark) (some d) else s3
  if bit f.ctrl 12 then s4.snapTake d (fld f.arg 29 28) f.late else s4

/-- MARK_FIRE. Everything happens at the firing's resolved instant. (DEDUCED: assumption 32) -/
def markFire (s : State) (d m : Nat) : State :=
  match s.firingDue d m with
  | none => s
  | some f =>
    let x := s.dom d
    let s0 := s.setDom d { x with
      committed := x.committed.erase f
      fired := tabPut x.fired m (tabGet [] x.fired m ++ [(f.due, f.late)]) }
    let s1 := ({ s0 with now := f.due }).wr (mreg d m 8) (firedCtrl f (s0.markCtrl d m))
    let s2 := s1.markActs d f
    let s3 := ((s2.dumpMark d m f.late).swMark d m f.late)
    noticeMark d m f.late s3

/-- SEGMENT_PUBLISH: the segment comes into force, and a boundary it moves into the past makes its vector LATE. -/
def segmentPublish (s : State) (d : Nat) : State := boundaryLate s d (s.segPublish d)

end State

/-! ### The commands -/

/-- MARK_FIRE (R52). -/
def execMarkFire (t d m : Nat) : State → Host.Outcome State Fault Refusal := run t (·.markFire d m)
/-- SEGMENT_PUBLISH (R44). -/
def execSegmentPublish (t d : Nat) : State → Host.Outcome State Fault Refusal := run t (·.segmentPublish d)

end Sys2Proof.Machine
end

