-- ==== Sys2Proof/Machine/Power.lean ====
section
/-! DEFINITION. Machine/Power.lean: supplies, resets, the start, the rest of an orderly shutdown, thermal monitoring and
PWRFAIL_N (R231, R232, R387 to R401). -/
namespace Sys2Proof.Machine
namespace State

/-- The device runs: it is out of reset. -/
def outOfReset (s : State) : Bool := !s.inReset

/-! ### The roll-forward (R372, R395) -/

/-- A torn step is to be finished, or a bit that reads programmed topped up. -/
def rollOwed (s : State) : Bool :=
  !s.torn.isEmpty || (List.range 42).any fun b => decide (5 ≤ s.cells b) && decide (s.cells b < 8)

/-- The steward finishes torn steps. -/
def rollDone (s : State) : State :=
  let s1 := if s.torn.isEmpty then s
    else { s.wb (lifeReg 0x040) 28 true with life := { s.life with cause := 3 } }
  s1.rollForward

/-- The roll-forward with the outcome `ok` of its verifies; it waits while PWRFAIL_N stops the store (R398).
(DEDUCED: assumption 149) -/
def rollStep (ok : Bool) (s : State) : State :=
  if !s.rollOwed || s.metaStopped then s else if ok then s.rollDone else holdFault 0x22 s

/-! ### Supplies and RESET_N (R389 to R392) -/

/-- POWER_ON: VAUX became valid. -/
def powerOn (ok : Bool) (s : State) : State :=
  if s.pwr.vaux then s
  else
    let s1 := { s with pwr := { s.pwr with vaux := true, phase := .reset } }
    rollStep ok (s1.wr (reg pStw 0x048) 0)

/-- VAUX_LOST: everything resets, what the VAUX domain holds included. -/
def vauxLost (s : State) : State :=
  if !s.pwr.vaux then s
  else
    let s1 := deviceReset 0 0 0 s.supplyFail
    { (s1.wr (reg pStw 0x044) 0).wr (reg pPower 0x040) 0 with
      jtag := {}, pwr := { s1.pwr with vaux := false, smbAddr := 0x5A, smbAr := false } }

/-- RAIL_LOST: rail `r`, numbered as RAIL_LOST.RAIL numbers it. The TAP needs VSTORE and VCORE (Table 14.7).
(DEDUCED: assumption 85, DEDUCED: assumption 161) -/
def railLost (r : Nat) (s : State) : State :=
  let s0 := { s with pwr := { s.pwr with rails := Nat.land s.pwr.rails (0x3E - 2 ^ r) } }
  let s1 := if r ≤ 2 then { s0 with jtag := {} } else s0
  if s1.outOfReset then (deviceReset 1 0 0 s1.supplyFail).wr (reg pPower 0x040) (word r) else s1

/-- The hold of a thermal trip, which a RESET_N pulse ends only at its rise (R393). (DEDUCED: assumption 160) -/
def thermalHold (s : State) : Bool := s.pwr.phase = .fault && s.pwr.hold = 0x30

/-- RESET_N_FALL: RESET_N has been low long enough. (DEDUCED: assumption 160) -/
def resetNFall (s : State) : State :=
  if !s.pwr.vaux then s
  else
    let s1 := if s.thermalHold then s else deviceReset 2 0 0 s
    { s1 with pwr := { s1.pwr with resetN := false, resetLow := some s1.now } }

/-! ### The start (R394 to R398) -/

/-- The results of the power-up tests of units 304 to 307, which have passed. -/
def showPowerUp (s : State) : State :=
  forEach [304, 305, 306, 307] (fun u s => showResult u 2 1 (unitPatterns u) (unitSig u) false s) s

/-- Units 0 to 303 take their state from their records (R351). `all`: RETEST_ALL. (DEDUCED: assumption 165) -/
def takeRecords (all : Bool) (s : State) : State :=
  let recOf (u : Nat) : Option TestRec := (s.bist.recs.find? (·.1 = u)).map (·.2)
  let s1 := forEach s.bist.recs (fun e s =>
    let v := e.2.result * 2 ^ 29 + 2 ^ 27 + b2n e.2.mem * 2 ^ 25 + b2n e.2.logic * 2 ^ 24 + e.2.pats % 65536
    ({ s with bist := { s.bist with misr := tabPut s.bist.misr e.1 e.2.misr } }).wr (breg (0x200 + 4 * e.1)) (word v)) s
  let un (u : Nat) : Bool := (recOf u).all fun x => decide (x.result ≠ 1) && decide (x.result ≠ 2)
  let hold (st ev : Nat) (u : Nat) (s : State) : State :=
    (forEach (unitPages u) (fun p s => s.setUnitState p st) s).raise pBist ev
  let s2 := if all then s1 else forEach ((List.range 304).filter fun u => (recOf u).any (·.result = 2)) (hold 5 3) s1
  let s3 := if all || !s.bist.policy then s2 else forEach ((List.range 304).filter un) (hold 6 4) s2
  let todo := testOrder.filter fun u => all || (!s.bist.policy && un u)
  { s3 with bist := { s3.bist with todo := todo, recs := if s.metaStopped then s.bist.recs else [] } }

/-- Steps 3 to 8 of Table 14.5, from the internal clocks' lock. -/
def startRun (o : StartRun) (s : State) : State :=
  match o.fail with
  | some (u, aborted) => startFault ((if aborted then 0x18 else 0x10) + u) s
  | none =>
    if !rowGood o.factory then startFault 0x20 s
    else if !o.wipe then startFault 0x21 s
    else
      let s1 := (s.wr (reg 0 0x064) 1).showPowerUp
      let s2 := (s1.takeRecords (nbit s1.pwr.straps 1)).wb (breg 0x044) 31 s1.bist.done
      if !s2.bist.todo.isEmpty then ({ s2 with bist := { s2.bist with retest := some s2.now } }).schedule
      else if nbit s2.pwr.straps 0 then s2 else s2.loadBegin

/-- START: T0. In a thermal hold the rise of RESET_N releases the device only below 110 °C.
(DEDUCED: assumption 139, DEDUCED: assumption 146) -/
def start (straps : Nat) (refclk : Bool) (o : StartRun) (s : State) : State :=
  let cool : Bool := s.thermalHold && !s.pwr.resetN && decide (s.pwr.top < 1760)
  if s.thermalHold && !s.pwr.resetN && !cool then
    { s with pwr := { s.pwr with resetN := true, resetLow := none } }
  else if !(s.pwr.vaux && (s.pwr.phase = .reset || cool) && decide (s.pwr.startAt ≤ s.now)) then s
  else
    let latch := s.life.latch
    let s1 := { s with
      pwr := { s.pwr with
        phase := .starting, faultN := false, hold := 0, hot := 0, rails := 0x3E, refclk := refclk, resetN := true
        resetLow := none, straps := straps, t0 := s.now }
      life := { s.life with latch := 0, fault := false } }
    let s0 := (s1.wr (reg pPower 0x044) (s1.vccioWord 0)).wr (reg pPower 0x048) (s1.vccioWord 1)
    let s2 := (((s0.wb (reg pStore 0x040) 2 s0.metaStopped).wr (reg pStw 0x050) (word straps)).wb (reg pStw 0x040) 27
      (nbit straps 0)).wb (lifeReg 0x040) 27 (nbit latch 0)
    let s3 := rollStep o.otp (s2.wb (lifeReg 0x040) 26 (nbit latch 1))
    if s.life.fault then startFault 0x22 s3
    else if s3.pwr.phase = .fault then s3
    else
      let s4 := (s3.claimTake actWipe agStw [resAll] 0 false).2
      if refclk then startRun o s4
      else { s4.wr (reg pStw 0x044) 1 with pwr := { s4.pwr with clockWait := true } }

/-- REFCLK_RETURN (R17). -/
def refclkReturn (o : StartRun) (s : State) : State :=
  let s1 := { s with pwr := { s.pwr with refclk := true, clockWait := false } }
  if s.pwr.clockWait then startRun o s1 else s1

/-- Nothing of the start is left to do. -/
def startOver (s : State) : Bool :=
  let l := s.load
  s.pwr.phase = .starting && !s.pwr.clockWait && l.queue.isEmpty && l.retry.isEmpty && l.failed.isEmpty
    && l.boots.isEmpty && l.revokes.isEmpty && s.bist.todo.isEmpty && s.bist.tests.isEmpty && s.bist.recs.isEmpty
    && !s.rollOwed

/-- START_COMPLETE: step 11. Device time counts from the page-clock cycle that begins then.
(DESIGN CHOICE: assumption 182) -/
def startComplete (s : State) : State :=
  if !s.startOver then s
  else
    let s1 := { s with
      pwr := { s.pwr with phase := .user, ready := true, serving := true }, resetEnd := atOrAfter pageCycle s.now
      ledger := { s.ledger with claims := s.ledger.claims.filter (·.activity != actWipe) } }
    let s2 := ((s1.wb (reg pStore 0x040) 0 true).wb (ireg 0x040) 31 true).wr (reg pStw 0x04C) (word ((s.now - s.pwr.t0) / us 1))
    s2.raiseIf (s2.rb (lifeReg 0x040) 28) pLife 3

/-! ### Orderly shutdown, steps 2 and 3 (R399) -/

/-- Every page, dependents before what they depend on (Table 1.5). -/
def disableOrder : List Nat :=
  [pCnt] ++ (List.range 48).map pSeq ++ protoPages ++ (List.range 16).map pUlane ++ (List.range 48).map pAna
    ++ (List.range 48).map pGrp ++ (List.range 16).map pDom ++ (List.range 96).map pReg ++ [pCar] ++ (List.range 8).map pPort
    ++ [pRtr] ++ (List.range 8).map pRecord ++ [0, pStw, pLedger, pLife, pSec, pPower, pBist, pStore, pRec, pImg, pPcie]

/-- EN of a page is cleared without the refusal of R20. -/
def clearEn (p : Nat) (s : State) : State :=
  if s.isOn p then unitOff p s
  else if s.unitState p = 1 then ({ s with checks := tabDel s.checks p }.setUnitState p 0).wb (reg p oCtrl) 0 false
  else s

/-- Every queued claim is refused with CONFLICT, and what waited for it ends so (R348). -/
def refuseQueued (s : State) : State :=
  let q := s.claimQueue
  let r := reg pLedger 0x094
  let s1 := { s with ledger := { s.ledger with claims := s.ledger.claims.filter (!·.queued) } }
  forEach q (fun c s =>
    let s2 := s.raise pLedger 2
    let s3 := if c.agent = agHost && s2.rf r 31 30 = 2 && s2.rf r 7 0 = c.number
      then s2.wr r (word (3 * 2 ^ 30 + Reason.conflict.code * 65536 + c.number)) else s2
    let s4 := if s3.store.cmd.any (fun x => x.claim = some c.number) then s3.imgEnd 0x09 0 else s3
    { s4 with bist := { s4.bist with tests := s4.bist.tests.filter fun e => e.2.claim != some c.number } }) s1

/-- HOLDER names the steward's self-test after the queued claims were refused. -/
def holderTest (refused : Bool) (s : State) : State :=
  if !refused then s
  else match s.ledger.claims.find? (·.activity = actSelftest) with
    | some c => (s.setHolder c.number agStw actSelftest (s.freeNat % 16)).drew
    | none => (s.setHolder (s.freeNat % 256) agStw actSelftest (s.freeNat / 256 % 16)).drew

/-- DRAIN_DONE: the queues are empty, or 100 ms have passed. (DEDUCED: assumption 163) -/
def drainDone (s : State) : State :=
  let empty := [1, 2, 3].all fun q => s.dqHeld q = 0
  if s.pwr.phase != .drain || !(empty || decide (s.pwr.shutAt + ms 100 ≤ s.now)) then s
  else
    let s1 := forEach [1, 2, 3] (fun q s => if s.dqHeld q = 0 then s else queueReset q s) s
    let s2 := forEach disableOrder clearEn s1
    let s3 := (s2.wf (reg pStw 0x040) 31 29 3).raise pStw 1
    let s4 := { s3 with
      pwr := { s3.pwr with phase := .test }
      bist := { s3.bist with done := false, shut := some s3.now, todo := testOrder } }
    (holderTest (!s4.claimQueue.isEmpty) s4.refuseQueued.schedule).shutDone

/-! ### Thermal monitoring (R401) -/

/-- TEMP_FAB, in 1/16 °C. -/
def tempFab (s : State) : Int := signed 16 (s.rf (reg pPower 0x050) 15 0)

/-- The warning of a reading. -/
def tempWarn (s : State) : State :=
  let cfg := s.rd (reg pPower 0x060)
  let warn := signed 16 (fld cfg 15 0)
  let on := s.rb (reg pPower 0x064) 1
  if !on && decide (warn ≤ s.tempFab) then (s.wb (reg pPower 0x064) 1 true).raise pPower 0
  else if on && decide (s.tempFab < warn - 16 * fld cfg 23 16) then (s.wb (reg pPower 0x064) 1 false).raise pPower 1
  else s

/-- THERMAL_READING: sixteen fabric-die sensors, and the store die's. (DEDUCED: assumption 162) -/
def thermalReading (fab : List (BitVec 16)) (store : BitVec 16) (s : State) : State :=
  if !s.pwr.vaux then s
  else
    let v := (List.range 16).map fun i => fab.getD i 0
    let top := (v.map fun x => signed 16 x.toNat).foldl max (signed 16 (v.headD 0).toNat)
    let s1 := { s with pwr := { s.pwr with
      top := top, sensors := (List.range 16).zip v, hot := if 2000 ≤ top then s.pwr.hot + 1 else 0 } }
    let s2 := (s1.wr (reg pPower 0x050) (word (unsigned 16 top))).wr (reg pPower 0x054) (word store.toNat)
    if !s2.outOfReset then s2
    else
      let s3 := s2.tempWarn
      if 10 ≤ s3.pwr.hot then holdFault 0x30 (deviceReset 5 0 0 s3) else s3

/-! ### PWRFAIL_N (R231, R232, R371, R398) -/

/-- PWRFAIL_N_FALL. (DEDUCED: assumption 84) -/
def pwrfailFall (s : State) : State :=
  let r := reg pStore 0x040
  if s.rb r 1 then s
  else
    let s1 := (s.wb r 1 true).wb r 2 s.outOfReset
    let s2 := { s1 with store := { s1.store with pfStop := true, pfFall := some s.now, pfRise := none } }
    (s2.raiseIf s.outOfReset pStore 6).storeStop

/-- PWRFAIL_N_RISE. -/
def pwrfailRise (s : State) : State :=
  let r := reg pStore 0x040
  if s.rb r 1 then { s.wb r 1 false with store := { s.store with pfRise := some s.now } } else s

/-- What the steward owes the flash and the OTP is written (R231, R398). -/
def startWrites (s : State) : State :=
  if s.pwr.phase != .starting then s.owedWrites
  else
    let s1 := if s.rollOwed then s.rollDone else s
    let s2 := if s.pwr.clockWait then s1 else { s1 with bist := { s1.bist with recs := [] } }
    s2.owedWrites

/-- PWRFAIL_RECOVERY. -/
def pwrfailRecovery (s : State) : State :=
  let r := reg pStore 0x040
  if s.rb r 1 || !s.metaStopped || !(s.store.pfRise.any fun t => t + us 100 ≤ s.now) then s
  else
    let s1 := s.storeRecover
    ({ s1 with store := { s1.store with pfStop := false, pfFall := none, pfRise := none } }).startWrites

end State

/-! ### The commands -/

/-- POWER_ON (R390). -/
def execPowerOn (t : Nat) (ok : Bool) : State → Host.Outcome State Fault Refusal := run t (State.powerOn ok)
/-- VAUX_LOST (R389). -/
def execVauxLost (t : Nat) : State → Host.Outcome State Fault Refusal := run t (·.vauxLost)
/-- RAIL_LOST (R389). -/
def execRailLost (t r : Nat) : State → Host.Outcome State Fault Refusal := run t (State.railLost (r + 1))
/-- RESET_N_FALL (R392). -/
def execResetNFall (t : Nat) : State → Host.Outcome State Fault Refusal := run t (·.resetNFall)
/-- START (R394). -/
def execStart (t : Nat) (straps : BitVec 4) (refclk : Bool) (o : StartRun) : State → Host.Outcome State Fault Refusal :=
  run t (State.start straps.toNat refclk o)
/-- REFCLK_RETURN (R17). -/
def execRefclkReturn (t : Nat) (o : StartRun) : State → Host.Outcome State Fault Refusal := run t (State.refclkReturn o)
/-- START_COMPLETE (R396). -/
def execStartComplete (t : Nat) : State → Host.Outcome State Fault Refusal := run t (·.startComplete)
/-- DRAIN_DONE (R399). -/
def execDrainDone (t : Nat) : State → Host.Outcome State Fault Refusal := run t (·.drainDone)
/-- THERMAL_READING (R401). -/
def execThermalReading (t : Nat) (fab : List (BitVec 16)) (store : BitVec 16) : State → Host.Outcome State Fault Refusal :=
  run t (State.thermalReading fab store)
/-- PWRFAIL_N_FALL (R231). -/
def execPwrfailNFall (t : Nat) : State → Host.Outcome State Fault Refusal := run t (·.pwrfailFall)
/-- PWRFAIL_N_RISE (R232). -/
def execPwrfailNRise (t : Nat) : State → Host.Outcome State Fault Refusal := run t (·.pwrfailRise)
/-- PWRFAIL_RECOVERY (R232). -/
def execPwrfailRecovery (t : Nat) : State → Host.Outcome State Fault Refusal := run t (·.pwrfailRecovery)

end Sys2Proof.Machine
end

