-- ==== Sys2Proof/Machine/RegPort.lean ====
section
/-! DEFINITION. Machine/RegPort.lean: register accesses that do not come from the local host: a region's register port (R187,
R188), remote accesses of the lattice (R276, R277, R443) and the TAP (R122, R377). -/
namespace Sys2Proof.Machine
namespace State

/-! ### The register port (R187, R188) -/

/-- Event number and word of a COUNTER space address: 8 bytes for each event, the low word first.
(DESIGN CHOICE: assumption 60) -/
def cntEvent (addr : Nat) : Nat := addr / 8
def cntHigh (addr : Nat) : Bool := addr / 4 % 2 = 1

/-- The access is outside the port's reach as it is taken. -/
def portDenies (s : State) (r : Nat) (write counter : Bool) (addr : Nat) : Bool :=
  let p := addr / 4096
  if counter then
    write || (assigned (cntEvent addr) && !cntHigh addr && !s.userRead (cntEvent addr / 16))
  else if write then addr % 4096 < 0x040 || !s.reachesWrite (.region r) p
  else !s.reachesRead (.region r) p

/-- REGISTER_PORT_ACCESS: taken while fewer than 4 accesses are outstanding. (DEDUCED: assumption 74) -/
def portAccess (r : Nat) (write counter : Bool) (addr : Nat) (v : Word) (s : State) : State :=
  if 4 ≤ (s.region r).accs.length then s.answer .retry
  else
    let x : PortAcc :=
      { write := write, counter := counter, addr := addr, data := v, taken := s.now
        deny := s.portDenies r write counter addr }
    portReq r 3 (if counter then pCnt else addr / 4096) (.access x) (portPerform r (.access x)) s

/-- REG_DENY of a denied access (Table 6.10). -/
def denyWord (x : PortAcc) : Word :=
  let n := cntEvent x.addr
  let place := if x.counter then n % 512 * 2 ^ 20 + n / 512 % 128 else x.addr / 4096 % 512 * 2 ^ 20 + x.addr % 4096
  word (2 ^ 31 + b2n x.write * 2 ^ 30 + b2n x.counter * 2 ^ 29 + place)

/-- An access performed: the response, and the word read. -/
def portServe (r : Nat) (x : PortAcc) (s : State) : State :=
  if x.deny then ((s.wr (rreg r 0x060) (denyWord x)).ret 0).answer .denied
  else if x.counter then
    if !assigned (cntEvent x.addr) then (s.ret 0).answer .range
    else if cntHigh x.addr then (s.countHi (readerKey (.region r))).answer .ok
    else (s.countLo (readerKey (.region r)) (cntEvent x.addr)).answer .ok
  else if x.write then regWrite (.region r) (x.addr / 4096) (x.addr % 4096) x.data (s.ret 0)
  else regRead (.region r) (x.addr / 4096) (x.addr % 4096) s

/-- REGISTER_PORT_RESPONSE: the oldest outstanding access completes; while the port parks, the data of a read is discarded
(R178, Table 6.4). -/
def portResponse (s : State) (r : Nat) : State :=
  match (s.region r).accs with
  | [] => s
  | x :: rest =>
    let s1 := portServe r x (s.setRegion r { s.region r with accs := rest })
    let s2 := s1.portAns r s1.resp
    if s.regionParked r && !x.write then s2 else heldReady r (s2.emit (.answer (.region r) (s1.resp = .ok) s1.rdata))

/-! ### Remote accesses at their target (R277, R443, R444) -/

/-- The bytes that a read of the window returns, and the state after it. (DEDUCED: assumption 103) -/
def windowRead (a : Agent) (off len : Nat) (s : State) : List Byte × State :=
  if off < 0x200000 then
    let one : Bool := off % 4 + len ≤ 4
    let x : HostAccess := { off := if one then off / 4 * 4 else off, write := false, size := if one then 4 else len }
    let s1 := bar0 a x s
    (((natBytes 8 s1.rdata).drop (if one then off % 4 else 0) ++ List.replicate 32 0).take len, s1)
  else
    let o := off - 0x400000
    let words := (List.range ((o % 4 + len + 3) / 4)).map fun i => o / 4 * 4 + 4 * i
    let shut : Bool := s.pwr.phase = .done
    let r := words.foldl (fun (acc : List Byte × State) w =>
      let g := bar2Get w acc.2
      (acc.1 ++ wordBytes (if shut || 0x03C00000 ≤ w then 0 else g.1), if shut then acc.2 else g.2)) ([], s)
    ((r.1.drop (o % 4)).take len, r.2)

/-- Bytes written into the window. -/
def windowWrite (a : Agent) (off : Nat) (data : List Byte) (s : State) : State :=
  let len := data.length
  if off < 0x200000 then
    bar0 a { off := off, write := true, size := len, data := BitVec.ofNat 64 (bytesNat data) } s
  else if s.pwr.phase = .done then s.answer .ok
  else
    let o := off - 0x400000
    let words := (List.range ((o % 4 + len + 3) / 4)).map fun i => o / 4 * 4 + 4 * i
    let at_ (k : Nat) : Byte := if o ≤ k then data.getD (k - o) 0 else 0
    forEach words (fun w s =>
      let be := ((List.range 4).map fun i => b2n (decide (o ≤ w + i) && decide (w + i < o + len)) * 2 ^ i).sum
      if w < 0x03C00000 then bar2Put w be (bytesWord ((List.range 4).map fun i => at_ (w + i))) s else s) (s.answer .ok)

/-- The profile keeps remote accesses from the LIFECYCLE and SECURITY pages (R376). -/
def windowDenied (s : State) (a : Agent) (off : Nat) : Bool :=
  (off / 4096 = pLife || off / 4096 = pSec) && s.lifeDenies a

/-- A REQUEST at its destination. -/
def serveRequest (f : Flit) (s : State) : State :=
  match f.body with
  | .request write off len data =>
    if !s.rb (rtr 0x048) 0 || s.windowDenied .lattice off then s.undeliver f 4
    else if write then windowWrite .lattice off data s
    else
      let r := windowRead .lattice off len s
      route { cls := 5, dest := f.src, src := s.ownAddr, tag := f.tag, body := .response r.1 } r.2
  | _ => s

/-- A REQUEST that names the device itself is served locally, as the host's own access. (DEDUCED: assumption 102) -/
def serveLocal (f : Flit) (s : State) : State :=
  match f.body with
  | .request write off len data =>
    if write then windowWrite .host off data s
    else
      let r := windowRead .host off len s
      responded { f with cls := 5, body := .response r.1 } r.2
  | _ => s

/-! ### The TAP (R122, R377) -/

/-- The TAP works: VAUX, VSTORE and VCORE are valid (Table 14.7). -/
def tapLive (s : State) : Bool := s.pwr.vaux && nbit s.pwr.rails 1 && nbit s.pwr.rails 2

/-- The instruction register takes `ir`. Pins that leave boundary scan return to Table 4.6 at the next pin-cycle boundary, and
one that returns into a park holds the level it had. (DEDUCED: assumption 46, DESIGN CHOICE: assumption 48) -/
def setIr (ir : Nat) (s : State) : State :=
  let s1 := { s with jtag := { s.jtag with ir := ir } }
  let t := nextAfter pinCycle s.now
  if scanHolds s.jtag.ir && !scanHolds ir then
    forEach ((List.range 3072).filter fun i => s.padOut i != s.padRule i || s.padRank i = 4 || s.padRank i = 5) (fun i s1 =>
      let hold := if s.padRank i = 4 || s.padRank i = 5 then s.padLevel i else (s1.pin i).hold
      let u := disSync { s1.setPin i { s1.pin i with lag := some (t, s.padOut i), hold := hold } with now := t } i
      { u with now := s1.now }) s1
  else forEach (s.pins.map (·.1)) (fun i s1 => s1.disSync i) s1

/-- LC_ACCESS: the scan shifts out the data of the last read, and Update-DR performs the access. -/
def lcAccess (dr : Nat) (s : State) : State :=
  if !(s.tapLive && s.jtag.ir = 0x10) || s.lifeDenies .jtag then s
  else
    let s1 := s.emit (.tdo s.jtag.data)
    let p := if nbit dr 46 then pSec else pLife
    let off := bits dr 43 32
    if nbit dr 47 then regWrite .jtag p off (word dr) s1
    else
      let s2 := regRead .jtag p off s1
      { s2 with jtag := { s2.jtag with data := s2.rdata } }

/-- BOUNDARY_REGISTER_UPDATE. (DEDUCED: assumption 47) -/
def scanUpdate (bits : List (Bool × Bool)) (s : State) : State :=
  if s.tapLive && (s.jtag.ir = 0x02 || s.jtag.ir = irExtest || s.jtag.ir = irClamp) then
    forEach (s.pins.map (·.1)) (fun i s => s.disSync i) { s with jtag := { s.jtag with cells := bits.take 3072 } }
  else s

end State

/-! ### The commands -/

/-- REGISTER_PORT_ACCESS (R187). -/
def execRegisterPortAccess (t r : Nat) (write counter : Bool) (addr : Nat) (v : Word) :
    State → Host.Outcome State Fault Refusal := run t (State.portAccess r write counter addr v)
/-- REGISTER_PORT_RESPONSE (R188). -/
def execRegisterPortResponse (t r : Nat) : State → Host.Outcome State Fault Refusal := run t (·.portResponse r)
/-- REQUEST_FLIT (R276, R277). -/
def execRequestFlit (t n : Nat) (f : Flit) : State → Host.Outcome State Fault Refusal :=
  run t (when (f.cls = 6) (State.receive n f (State.routed f (State.epoch1 f (State.serveRequest f)))))
/-- REMOTE_ACCESS (R276). -/
def execRemoteAccess (t : Nat) (write : Bool) (off len : Nat) (data : List Byte) : State → Host.Outcome State Fault Refusal :=
  run t (State.remoteAccess State.serveLocal write off len data)
/-- JTAG_UPDATE_IR (R377). -/
def execJtagUpdateIr (t : Nat) (ir : BitVec 8) : State → Host.Outcome State Fault Refusal :=
  run t fun s => if s.tapLive then State.setIr ir.toNat s else s
/-- LC_ACCESS (R377). -/
def execLcAccess (t dr : Nat) : State → Host.Outcome State Fault Refusal := run t (State.lcAccess dr)
/-- TEST_LOGIC_RESET (R377). -/
def execTestLogicReset (t : Nat) : State → Host.Outcome State Fault Refusal :=
  run t fun s => if s.tapLive then State.setIr 0x01 s else s
/-- BOUNDARY_REGISTER_UPDATE (R122). -/
def execBoundaryRegisterUpdate (t : Nat) (bits : List (Bool × Bool)) : State → Host.Outcome State Fault Refusal :=
  run t (State.scanUpdate bits)

end Sys2Proof.Machine
end

