-- ==== Sys2Proof/Machine/Dispatch.lean ====
section
/-! DEFINITION. Machine/Dispatch.lean: one arm per command, each one direct call of its meaning. -/
namespace Sys2Proof.Machine

/-- The effect of a command on everything but the queue. -/
def exec (i : Instr) (s : State) : Host.Outcome State Fault Refusal :=
  match i with
  | .registerWrite t a p off v => Sys2Proof.Machine.execRegisterWrite t a p off v s
  | .enable t a p v => Sys2Proof.Machine.execEnable t a p v s
  | .consistencyCheckEnd t p lref => Sys2Proof.Machine.execConsistencyCheckEnd t p lref s
  | .disable t a p v => Sys2Proof.Machine.execDisable t a p v s
  | .eventW1c t a p v => Sys2Proof.Machine.execEventW1c t a p v s
  | .eventMaskWrite t a p v => Sys2Proof.Machine.execEventMaskWrite t a p v s
  | .msixUnmask t vec => Sys2Proof.Machine.execMsixUnmask t vec s
  | .lock t a p v => Sys2Proof.Machine.execLock t a p v s
  | .counterUpdate t => Sys2Proof.Machine.execCounterUpdate t s
  | .encoderSample t inp la lb li sa sb si => Sys2Proof.Machine.execEncoderSample t inp la lb li sa sb si s
  | .incrementStrobe t r inc => Sys2Proof.Machine.execIncrementStrobe t r inc s
  | .segmentPublish t d => Sys2Proof.Machine.execSegmentPublish t d s
  | .eventCommit t d m => Sys2Proof.Machine.execEventCommit t d m s
  | .domainWrap t d => Sys2Proof.Machine.execDomainWrap t d s
  | .stopTimeout t d => Sys2Proof.Machine.execStopTimeout t d s
  | .shaftApply t a d v => Sys2Proof.Machine.execShaftApply t a d v s
  | .rateReached t d => Sys2Proof.Machine.execRateReached t d s
  | .mainsZeroCrossing t c => Sys2Proof.Machine.execMainsZeroCrossing t c s
  | .lockLost t d => Sys2Proof.Machine.execLockLost t d s
  | .holdoverEnd t d => Sys2Proof.Machine.execHoldoverEnd t d s
  | .latHoldoverExpiry t d => Sys2Proof.Machine.execLatHoldoverExpiry t d s
  | .markFire t d m => Sys2Proof.Machine.execMarkFire t d m s
  | .markWrite t a d m reg v => Sys2Proof.Machine.execMarkWrite t a d m reg v s
  | .snapCapture t a d v => Sys2Proof.Machine.execSnapCapture t a d v s
  | .snapStatRead t d slot => Sys2Proof.Machine.execSnapStatRead t d slot s
  | .posLoRead t d => Sys2Proof.Machine.execPosLoRead t d s
  | .velLoRead t d => Sys2Proof.Machine.execVelLoRead t d s
  | .load t a d v => Sys2Proof.Machine.execLoad t a d v s
  | .tsDataWrite t a g v => Sys2Proof.Machine.execTsDataWrite t a g v s
  | .tsDataRead t g => Sys2Proof.Machine.execTsDataRead t g s
  | .edgeCommit t pin => Sys2Proof.Machine.execEdgeCommit t pin s
  | .edgePlace t pin => Sys2Proof.Machine.execEdgePlace t pin s
  | .pinResult t pin => Sys2Proof.Machine.execPinResult t pin s
  | .padCrossing t pin uv hi lo => Sys2Proof.Machine.execPadCrossing t pin uv hi lo s
  | .ringWrite t g => Sys2Proof.Machine.execRingWrite t g s
  | .ringRdWrite t a g v => Sys2Proof.Machine.execRingRdWrite t a g v s
  | .captCountWrite t a pin v => Sys2Proof.Machine.execCaptCountWrite t a pin v s
  | .threshWrite t a pin v => Sys2Proof.Machine.execThreshWrite t a pin v s
  | .pinCfgWrite t a pin v => Sys2Proof.Machine.execPinCfgWrite t a pin v s
  | .serTxHiWrite t a g v => Sys2Proof.Machine.execSerTxHiWrite t a g v s
  | .serRxLoRead t a g => Sys2Proof.Machine.execSerRxLoRead t a g s
  | .reflexEnable t a g k v => Sys2Proof.Machine.execReflexEnable t a g k v s
  | .reflexTableWrite t a g k v => Sys2Proof.Machine.execReflexTableWrite t a g k v s
  | .reflexOutput t g k => Sys2Proof.Machine.execReflexOutput t g k s
  | .vccioMeasUpdate t g mv => Sys2Proof.Machine.execVccioMeasUpdate t g mv s
  | .vccioReturn t g => Sys2Proof.Machine.execVccioReturn t g s
  | .vccioChange t g mv => Sys2Proof.Machine.execVccioChange t g mv s
  | .adcTrig t a g v => Sys2Proof.Machine.execAdcTrig t a g v s
  | .adcResult t g j code => Sys2Proof.Machine.execAdcResult t g j code s
  | .adcResultRead t g j => Sys2Proof.Machine.execAdcResultRead t g j s
  | .adcFifoRead t a g j => Sys2Proof.Machine.execAdcFifoRead t a g j s
  | .dacWrite t a g j v => Sys2Proof.Machine.execDacWrite t a g j v s
  | .pmuCtrlWrite t a g v => Sys2Proof.Machine.execPmuCtrlWrite t a g v s
  | .pmuForceWrite t a g v => Sys2Proof.Machine.execPmuForceWrite t a g v s
  | .pmuClampWrite t a g v => Sys2Proof.Machine.execPmuClampWrite t a g v s
  | .pmuClamp t g => Sys2Proof.Machine.execPmuClamp t g s
  | .pinOwnWrite t a pin v => Sys2Proof.Machine.execPinOwnWrite t a pin v s
  | .ownLockWrite t a g hi v => Sys2Proof.Machine.execOwnLockWrite t a g hi v s
  | .hostOeWrite t a g hi v => Sys2Proof.Machine.execHostOeWrite t a g hi v s
  | .hostLvlWrite t a g hi v => Sys2Proof.Machine.execHostLvlWrite t a g hi v s
  | .switchSubmit t a g v => Sys2Proof.Machine.execSwitchSubmit t a g v s
  | .cancel t a g v => Sys2Proof.Machine.execCancel t a g v s
  | .switchBoundary t g => Sys2Proof.Machine.execSwitchBoundary t g s
  | .newOwnerInput t pin => Sys2Proof.Machine.execNewOwnerInput t pin s
  | .breakEnd t pin => Sys2Proof.Machine.execBreakEnd t pin s
  | .parkEnd t pin => Sys2Proof.Machine.execParkEnd t pin s
  | .protocolRejoin t p => Sys2Proof.Machine.execProtocolRejoin t p s
  | .halt t q => Sys2Proof.Machine.execHalt t q s
  | .haltRetire t q => Sys2Proof.Machine.execHaltRetire t q s
  | .nop t q => Sys2Proof.Machine.execNop t q s
  | .vec t q => Sys2Proof.Machine.execVec t q s
  | .vecr t q => Sys2Proof.Machine.execVecr t q s
  | .tset t q => Sys2Proof.Machine.execTset t q s
  | .matchVec t q => Sys2Proof.Machine.execMatchVec t q s
  | .loop t q => Sys2Proof.Machine.execLoop t q s
  | .endl t q => Sys2Proof.Machine.execEndl t q s
  | .jmp t q => Sys2Proof.Machine.execJmp t q s
  | .jc t q => Sys2Proof.Machine.execJc t q s
  | .call t q => Sys2Proof.Machine.execCall t q s
  | .ret t q => Sys2Proof.Machine.execRet t q s
  | .waitp t q => Sys2Proof.Machine.execWaitp t q s
  | .waitt t q => Sys2Proof.Machine.execWaitt t q s
  | .waittComplete t q => Sys2Proof.Machine.execWaittComplete t q s
  | .waiteDoorbell t q => Sys2Proof.Machine.execWaiteDoorbell t q s
  | .waiteFabric t q => Sys2Proof.Machine.execWaiteFabric t q s
  | .waiteSeq t q => Sys2Proof.Machine.execWaiteSeq t q s
  | .waiteFlag t q => Sys2Proof.Machine.execWaiteFlag t q s
  | .waitTimeout t q => Sys2Proof.Machine.execWaitTimeout t q s
  | .ldi t q => Sys2Proof.Machine.execLdi t q s
  | .add t q => Sys2Proof.Machine.execAdd t q s
  | .sub t q => Sys2Proof.Machine.execSub t q s
  | .andI t q => Sys2Proof.Machine.execAndI t q s
  | .orI t q => Sys2Proof.Machine.execOrI t q s
  | .xorI t q => Sys2Proof.Machine.execXorI t q s
  | .shl t q => Sys2Proof.Machine.execShl t q s
  | .shr t q => Sys2Proof.Machine.execShr t q s
  | .ld t q => Sys2Proof.Machine.execLd t q s
  | .st t q => Sys2Proof.Machine.execSt t q s
  | .capt t q => Sys2Proof.Machine.execCapt t q s
  | .sigClear t q => Sys2Proof.Machine.execSigClear t q s
  | .sigRead t q => Sys2Proof.Machine.execSigRead t q s
  | .sigCheck t q => Sys2Proof.Machine.execSigCheck t q s
  | .flag t q => Sys2Proof.Machine.execFlag t q s
  | .event t q => Sys2Proof.Machine.execEvent t q s
  | .peal t q => Sys2Proof.Machine.execPeal t q s
  | .log t q => Sys2Proof.Machine.execLog t q s
  | .swapreq t q => Sys2Proof.Machine.execSwapreq t q s
  | .vectorIssue t q => Sys2Proof.Machine.execVectorIssue t q s
  | .xipLineRead t q bad => Sys2Proof.Machine.execXipLineRead t q bad s
  | .go t a q v => Sys2Proof.Machine.execGo t a q v s
  | .stop t a q v => Sys2Proof.Machine.execStop t a q v s
  | .step t a q v => Sys2Proof.Machine.execStep t a q v s
  | .doorbell t a q v => Sys2Proof.Machine.execDoorbell t a q v s
  | .flagsWrite t a q v => Sys2Proof.Machine.execFlagsWrite t a q v s
  | .flogRdWrite t a q v => Sys2Proof.Machine.execFlogRdWrite t a q v s
  | .sampleInterrupt t q => Sys2Proof.Machine.execSampleInterrupt t q s
  | .pinDriveRequest t r pin oe lvl => Sys2Proof.Machine.execPinDriveRequest t r pin oe lvl s
  | .serialPush t r pin w => Sys2Proof.Machine.execSerialPush t r pin w s
  | .serialPop t r pin => Sys2Proof.Machine.execSerialPop t r pin s
  | .presetRequest t r d k => Sys2Proof.Machine.execPresetRequest t r d k s
  | .markNotice t r n => Sys2Proof.Machine.execMarkNotice t r n s
  | .flagSet t r q mask => Sys2Proof.Machine.execFlagSet t r q mask s
  | .strobe t r q => Sys2Proof.Machine.execStrobe t r q s
  | .vectorMemoryWrite t r q g entry w v => Sys2Proof.Machine.execVectorMemoryWrite t r q g entry w v s
  | .registerPortAccess t r write counter addr v => Sys2Proof.Machine.execRegisterPortAccess t r write counter addr v s
  | .registerPortResponse t r => Sys2Proof.Machine.execRegisterPortResponse t r s
  | .deepAccess t row east pa pb => Sys2Proof.Machine.execDeepAccess t row east pa pb s
  | .memoryBlockAccess t r blk parity pa pb => Sys2Proof.Machine.execMemoryBlockAccess t r blk parity pa pb s
  | .clockLost t r => Sys2Proof.Machine.execClockLost t r s
  | .portClockResume t r => Sys2Proof.Machine.execPortClockResume t r s
  | .holdWindowExpiry t r => Sys2Proof.Machine.execHoldWindowExpiry t r s
  | .storePortSubmit t r ws => Sys2Proof.Machine.execStorePortSubmit t r ws s
  | .hsubmit t a v => Sys2Proof.Machine.execHsubmit t a v s
  | .storeNop t q => Sys2Proof.Machine.execStoreNop t q s
  | .read t q => Sys2Proof.Machine.execRead t q s
  | .readComplete t q b corr bad => Sys2Proof.Machine.execReadComplete t q b corr bad s
  | .program t q => Sys2Proof.Machine.execProgram t q s
  | .programComplete t q b fail pulses => Sys2Proof.Machine.execProgramComplete t q b fail pulses s
  | .erase t q => Sys2Proof.Machine.execErase t q s
  | .eraseComplete t q b ok pulses spareOk => Sys2Proof.Machine.execEraseComplete t q b ok pulses spareOk s
  | .suspend t q => Sys2Proof.Machine.execSuspend t q s
  | .suspendEffective t b pulses => Sys2Proof.Machine.execSuspendEffective t b pulses s
  | .resume t q => Sys2Proof.Machine.execResume t q s
  | .sectorInfo t q => Sys2Proof.Machine.execSectorInfo t q s
  | .protect t q => Sys2Proof.Machine.execProtect t q s
  | .unprotect t q => Sys2Proof.Machine.execUnprotect t q s
  | .setPassword t q => Sys2Proof.Machine.execSetPassword t q s
  | .marginRead t q => Sys2Proof.Machine.execMarginRead t q s
  | .rawRead t q => Sys2Proof.Machine.execRawRead t q s
  | .hcomp0Read t a => Sys2Proof.Machine.execHcomp0Read t a s
  | .resetHost t a v => Sys2Proof.Machine.execResetHost t a v s
  | .resetFabric t a v => Sys2Proof.Machine.execResetFabric t a v s
  | .resetSequencer t a v => Sys2Proof.Machine.execResetSequencer t a v s
  | .pwrfailNFall t => Sys2Proof.Machine.execPwrfailNFall t s
  | .pwrfailNRise t => Sys2Proof.Machine.execPwrfailNRise t s
  | .pwrfailRecovery t => Sys2Proof.Machine.execPwrfailRecovery t s
  | .commit t a v => Sys2Proof.Machine.execCommit t a v s
  | .commitComplete t bad => Sys2Proof.Machine.execCommitComplete t bad s
  | .revoke t a v => Sys2Proof.Machine.execRevoke t a v s
  | .setBoot t a v => Sys2Proof.Machine.execSetBoot t a v s
  | .loadWave t bad => Sys2Proof.Machine.execLoadWave t bad s
  | .reVerifyEnd t swap bad => Sys2Proof.Machine.execReVerifyEnd t swap bad s
  | .swapArm t a n v => Sys2Proof.Machine.execSwapArm t a n v s
  | .armingEnd t n => Sys2Proof.Machine.execArmingEnd t n s
  | .swapDisarm t a n v => Sys2Proof.Machine.execSwapDisarm t a n v s
  | .swapGo t a n v => Sys2Proof.Machine.execSwapGo t a n v s
  | .swapStart t n => Sys2Proof.Machine.execSwapStart t n s
  | .swapRelease t n bad => Sys2Proof.Machine.execSwapRelease t n bad s
  | .swapRevert t n bad => Sys2Proof.Machine.execSwapRevert t n bad s
  | .linkUp t n id => Sys2Proof.Machine.execLinkUp t n id s
  | .trainingTimeout t n id => Sys2Proof.Machine.execTrainingTimeout t n id s
  | .linkDown t n clock => Sys2Proof.Machine.execLinkDown t n clock s
  | .crcErr t n lseq => Sys2Proof.Machine.execCrcErr t n lseq s
  | .unknown t n f => Sys2Proof.Machine.execUnknown t n f s
  | .requestFlit t n f => Sys2Proof.Machine.execRequestFlit t n f s
  | .responseFlit t n f => Sys2Proof.Machine.execResponseFlit t n f s
  | .undeliverable t n f => Sys2Proof.Machine.execUndeliverable t n f s
  | .streamFlit t n f => Sys2Proof.Machine.execStreamFlit t n f s
  | .streamPush t r ch ws => Sys2Proof.Machine.execStreamPush t r ch ws s
  | .streamGapTimeout t ch => Sys2Proof.Machine.execStreamGapTimeout t ch s
  | .streamEnable t a ch v => Sys2Proof.Machine.execStreamEnable t a ch v s
  | .remoteAccess t write off len data => Sys2Proof.Machine.execRemoteAccess t write off len data s
  | .remoteTimeout t => Sys2Proof.Machine.execRemoteTimeout t s
  | .censusSend t => Sys2Proof.Machine.execCensusSend t s
  | .censusFlit t n f => Sys2Proof.Machine.execCensusFlit t n f s
  | .linkNotice t n f => Sys2Proof.Machine.execLinkNotice t n f s
  | .censusTimeout t addr => Sys2Proof.Machine.execCensusTimeout t addr s
  | .syncSend t n => Sys2Proof.Machine.execSyncSend t n s
  | .sync t n f => Sys2Proof.Machine.execSync t n f s
  | .echo t n f => Sys2Proof.Machine.execEcho t n f s
  | .beatSend t => Sys2Proof.Machine.execBeatSend t s
  | .beat t n f => Sys2Proof.Machine.execBeat t n f s
  | .electionTimeout t => Sys2Proof.Machine.execElectionTimeout t s
  | .beatTimeout t => Sys2Proof.Machine.execBeatTimeout t s
  | .rootLost t n f => Sys2Proof.Machine.execRootLost t n f s
  | .rootHandover t => Sys2Proof.Machine.execRootHandover t s
  | .handover t n f => Sys2Proof.Machine.execHandover t n f s
  | .segmentSend t d => Sys2Proof.Machine.execSegmentSend t d s
  | .segment t n f => Sys2Proof.Machine.execSegment t n f s
  | .pubEnable t a d v => Sys2Proof.Machine.execPubEnable t a d v s
  | .latticeCompatWrite t a v => Sys2Proof.Machine.execLatticeCompatWrite t a v s
  | .compatSet t n f => Sys2Proof.Machine.execCompatSet t n f s
  | .ltimeLoRead t => Sys2Proof.Machine.execLtimeLoRead t s
  | .pealSend t a v => Sys2Proof.Machine.execPealSend t a v s
  | .pealRelease t => Sys2Proof.Machine.execPealRelease t s
  | .pealFlit t n f => Sys2Proof.Machine.execPealFlit t n f s
  | .ring t a v => Sys2Proof.Machine.execRing t a v s
  | .clear t a v => Sys2Proof.Machine.execClear t a v s
  | .gongRingFlit t n f => Sys2Proof.Machine.execGongRingFlit t n f s
  | .gongClearFlit t n f => Sys2Proof.Machine.execGongClearFlit t n f s
  | .abortNFall t => Sys2Proof.Machine.execAbortNFall t s
  | .abortFilterExpiry t => Sys2Proof.Machine.execAbortFilterExpiry t s
  | .abortNRise t => Sys2Proof.Machine.execAbortNRise t s
  | .hotReset t => Sys2Proof.Machine.execHotReset t s
  | .flr t => Sys2Proof.Machine.execFlr t s
  | .perstN t level => Sys2Proof.Machine.execPerstN t level s
  | .d3hot t enter bme c => Sys2Proof.Machine.execD3hot t enter bme c s
  | .bar0Access t acc => Sys2Proof.Machine.execBar0Access t acc s
  | .bar2Write t off be v => Sys2Proof.Machine.execBar2Write t off be v s
  | .ulaneRxWord t k w errs => Sys2Proof.Machine.execUlaneRxWord t k w errs s
  | .ulaneTxWord t k => Sys2Proof.Machine.execUlaneTxWord t k s
  | .ulanePush t r k w => Sys2Proof.Machine.execUlanePush t r k w s
  | .ulaneLockChange t k lk khz => Sys2Proof.Machine.execUlaneLockChange t k lk khz s
  | .ulaneStatRead t k => Sys2Proof.Machine.execUlaneStatRead t k s
  | .prbsErrRead t k => Sys2Proof.Machine.execPrbsErrRead t k s
  | .txPush t a p v => Sys2Proof.Machine.execTxPush t a p v s
  | .txAbort t a p v => Sys2Proof.Machine.execTxAbort t a p v s
  | .txDataWrite t a p v => Sys2Proof.Machine.execTxDataWrite t a p v s
  | .rxPop t a p v => Sys2Proof.Machine.execRxPop t a p v s
  | .rxDataRead t p => Sys2Proof.Machine.execRxDataRead t p s
  | .protocolPortRequest t r p push w => Sys2Proof.Machine.execProtocolPortRequest t r p push w s
  | .pstatRead t p => Sys2Proof.Machine.execPstatRead t p s
  | .frameReceived t p fr => Sys2Proof.Machine.execFrameReceived t p fr s
  | .frameSent t p status start => Sys2Proof.Machine.execFrameSent t p status start s
  | .atCrossing t p => Sys2Proof.Machine.execAtCrossing t p s
  | .busOffRecovered t p => Sys2Proof.Machine.execBusOffRecovered t p s
  | .noResponse t p id start => Sys2Proof.Machine.execNoResponse t p id start s
  | .wake t a p v => Sys2Proof.Machine.execWake t a p v s
  | .mdioGo t a p v => Sys2Proof.Machine.execMdioGo t a p v s
  | .mdioDone t p data => Sys2Proof.Machine.execMdioDone t p data s
  | .smbusIdentity t => Sys2Proof.Machine.execSmbusIdentity t s
  | .smbusTemperature t => Sys2Proof.Machine.execSmbusTemperature t s
  | .smbusStatus t => Sys2Proof.Machine.execSmbusStatus t s
  | .smbusFaultCode t => Sys2Proof.Machine.execSmbusFaultCode t s
  | .smbusArp t op => Sys2Proof.Machine.execSmbusArp t op s
  | .cntSelWrite t a v => Sys2Proof.Machine.execCntSelWrite t a v s
  | .cntLoRead t a => Sys2Proof.Machine.execCntLoRead t a s
  | .cntHiRead t a => Sys2Proof.Machine.execCntHiRead t a s
  | .cntHiWrite t a v => Sys2Proof.Machine.execCntHiWrite t a v s
  | .cntWrite t a v => Sys2Proof.Machine.execCntWrite t a v s
  | .dumpEnable t a c v => Sys2Proof.Machine.execDumpEnable t a c v s
  | .dtrigCapture t a c v => Sys2Proof.Machine.execDtrigCapture t a c v s
  | .dumpPeriod t c => Sys2Proof.Machine.execDumpPeriod t c s
  | .dumpDone t c => Sys2Proof.Machine.execDumpDone t c s
  | .drdWrite t a c v => Sys2Proof.Machine.execDrdWrite t a c v s
  | .sampleEnable t a k v => Sys2Proof.Machine.execSampleEnable t a k v s
  | .sampleHit t k => Sys2Proof.Machine.execSampleHit t k s
  | .bistRun t a v => Sys2Proof.Machine.execBistRun t a v s
  | .bistAbort t a v => Sys2Proof.Machine.execBistAbort t a v s
  | .testStart t u => Sys2Proof.Machine.execTestStart t u s
  | .testEnd t u pats caps mem => Sys2Proof.Machine.execTestEnd t u pats caps mem s
  | .isolationEnd t u => Sys2Proof.Machine.execIsolationEnd t u s
  | .selftestHoldTimeout t => Sys2Proof.Machine.execSelftestHoldTimeout t s
  | .bistCfgWrite t a v => Sys2Proof.Machine.execBistCfgWrite t a v s
  | .claimSubmit t a v => Sys2Proof.Machine.execClaimSubmit t a v s
  | .release t a v => Sys2Proof.Machine.execRelease t a v s
  | .budgetWrite t a v => Sys2Proof.Machine.execBudgetWrite t a v s
  | .advance t a v => Sys2Proof.Machine.execAdvance t a v s
  | .unlock t a v => Sys2Proof.Machine.execUnlock t a v s
  | .otpBitDone t verified => Sys2Proof.Machine.execOtpBitDone t verified s
  | .profileWrite t a v => Sys2Proof.Machine.execProfileWrite t a v s
  | .writeDigest t a v => Sys2Proof.Machine.execWriteDigest t a v s
  | .installKey t a v => Sys2Proof.Machine.execInstallKey t a v s
  | .revokeKey t a v => Sys2Proof.Machine.execRevokeKey t a v s
  | .setSealDefault t a v => Sys2Proof.Machine.execSetSealDefault t a v s
  | .jtagUpdateIr t ir => Sys2Proof.Machine.execJtagUpdateIr t ir s
  | .lcAccess t dr => Sys2Proof.Machine.execLcAccess t dr s
  | .testLogicReset t => Sys2Proof.Machine.execTestLogicReset t s
  | .powerOn t otp => Sys2Proof.Machine.execPowerOn t otp s
  | .vauxLost t => Sys2Proof.Machine.execVauxLost t s
  | .railLost t rail => Sys2Proof.Machine.execRailLost t rail s
  | .resetNFall t => Sys2Proof.Machine.execResetNFall t s
  | .devReset t a v => Sys2Proof.Machine.execDevReset t a v s
  | .start t straps refclk o => Sys2Proof.Machine.execStart t straps refclk o s
  | .refclkReturn t o => Sys2Proof.Machine.execRefclkReturn t o s
  | .startComplete t => Sys2Proof.Machine.execStartComplete t s
  | .shutdown t a v => Sys2Proof.Machine.execShutdown t a v s
  | .drainDone t => Sys2Proof.Machine.execDrainDone t s
  | .thermalReading t fab store => Sys2Proof.Machine.execThermalReading t fab store s
  | .illegal t q => Sys2Proof.Machine.execIllegal t q s
  | .claimQueueTimeout t => Sys2Proof.Machine.execClaimQueueTimeout t s
  | .dmaReadCompletion t steward e => Sys2Proof.Machine.execDmaReadCompletion t steward e s
  | .dmaReadTimeout t steward => Sys2Proof.Machine.execDmaReadTimeout t steward s
  | .pcieLinkUp t speed width => Sys2Proof.Machine.execPcieLinkUp t speed width s
  | .linkDownReset t => Sys2Proof.Machine.execLinkDownReset t s
  | .pmuClampRelease t g => Sys2Proof.Machine.execPmuClampRelease t g s
  | .boundaryRegisterUpdate t bits => Sys2Proof.Machine.execBoundaryRegisterUpdate t bits s
  | .wakeup t p => Sys2Proof.Machine.execWakeup t p s
  | .linkChange t p => Sys2Proof.Machine.execLinkChange t p s
  | .spcTimeout t p => Sys2Proof.Machine.execSpcTimeout t p s

end Sys2Proof.Machine
end

