-- ==== Sys2Proof/Safety.lean ====
section
/-! DEFINITION. Safety.lean: the words the statements use: that a command has its effect and what then holds, and what
an effect leaves as it was. -/
namespace Sys2Proof
open Machine

/-- Command `c` has its effect on `s`, and `P` holds of the state after it. -/
def Yields (c : Instr) (s : State) (P : State → Prop) : Prop := ∃ u, exec c s = .next u ∧ P u

/-- The parts of the state beside the registers, the clock and the queue. -/
inductive Part where
  | out | rdata | resp | free | checks | mem | doms | ctr | lat | ep | pins | groups | anas | tsets | trims
  | seqs | xips | pwr | resetEnd | regions | undef | blocks | ledger | bist | store | life | jtag | protos
  | lanes | taken | offs | deepLast | lagged
deriving DecidableEq, Repr

/-- Part `p` of `u` is that of `s`. -/
def Part.kept (s u : State) : Part → Prop
  | .out => u.out = s.out
  | .rdata => u.rdata = s.rdata
  | .resp => u.resp = s.resp
  | .free => u.free = s.free
  | .checks => u.checks = s.checks
  | .mem => u.mem = s.mem
  | .doms => u.doms = s.doms
  | .ctr => u.ctr = s.ctr
  | .lat => u.lat = s.lat
  | .ep => u.ep = s.ep
  | .pins => u.pins = s.pins
  | .groups => u.groups = s.groups
  | .anas => u.anas = s.anas
  | .tsets => u.tsets = s.tsets
  | .trims => u.trims = s.trims
  | .seqs => u.seqs = s.seqs
  | .xips => u.xips = s.xips
  | .pwr => u.pwr = s.pwr
  | .resetEnd => u.resetEnd = s.resetEnd
  | .regions => u.regions = s.regions
  | .undef => u.undef = s.undef
  | .blocks => u.blocks = s.blocks
  | .ledger => u.ledger = s.ledger
  | .bist => u.bist = s.bist
  | .store => u.store = s.store
  | .life => u.life = s.life
  | .jtag => u.jtag = s.jtag
  | .protos => u.protos = s.protos
  | .lanes => u.lanes = s.lanes
  | .taken => u.taken = s.taken
  | .offs => u.offs = s.offs
  | .deepLast => u.deepLast = s.deepLast
  | .lagged => u.lagged = s.lagged

/-- From `s` to `u`, no register but those of `ks` and no part but those of `ps` differs. -/
def Only (ks : List Nat) (ps : List Part) (s u : State) : Prop :=
  (∀ k, k ∉ ks → u.rd k = s.rd k) ∧ ∀ p, p ∉ ps → p.kept s u

/-- The parts that raising an event touches beside its EVENT register: the counters, the MSI-X state and what leaves
the device (R310, R327). -/
def eventParts : List Part := [.ctr, .ep, .out]

/-- A write by agent `a` to page `p` takes place: the page is no reserved one, the device serves the agent, the page is
neither closed nor under self-test, the agent's path reaches it, OWNER allows it, and LIFECYCLE and SECURITY obey the
profile (R8, R307, R346, R376, R400, R433). -/
abbrev Opens (a : Agent) (p : Nat) (s : State) : Prop :=
  (blockOf p).isSome = true ∧ granted a p s = true ∧ ((p = pLife ∨ p = pSec) → s.lifeDenies a = false)

/-- A read of page `p` has its effect: the device serves it, and the page is neither closed nor under self-test
(R307, R346, R400). -/
abbrev Reads (p : Nat) (s : State) : Prop :=
  s.pwr.serving = true ∧ s.closed p = false ∧ s.inSelftest p = false

/-- No later agent's write of the same page-clock cycle has overtaken one by `a` to the register at `off` of page `p`
(R177, R439). -/
abbrev Prevails (a : Agent) (p off : Nat) (s : State) : Prop :=
  ∀ x ∈ orderPlace a p off, s.outranked x.1 x.2 = false

/-- No register outside the pages `ps` differs. -/
def OffPage (ps : List Nat) (s u : State) : Prop := ∀ k, k / 4096 ∉ ps → u.rd k = s.rd k


/-- The instant at which a command is taken. -/
def Instr.time : Instr → Nat
  | .registerWrite t _ _ _ _ | .enable t _ _ _ | .consistencyCheckEnd t _ _ | .disable t _ _ _ | .eventW1c t _ _ _
  | .eventMaskWrite t _ _ _ | .msixUnmask t _ | .lock t _ _ _ | .counterUpdate t | .encoderSample t _ _ _ _ _ _ _
  | .incrementStrobe t _ _ | .segmentPublish t _ | .eventCommit t _ _ | .domainWrap t _ | .stopTimeout t _
  | .shaftApply t _ _ _ | .rateReached t _ | .mainsZeroCrossing t _ | .lockLost t _ | .holdoverEnd t _
  | .latHoldoverExpiry t _ | .markFire t _ _ | .markWrite t _ _ _ _ _ | .snapCapture t _ _ _ | .snapStatRead t _ _
  | .posLoRead t _ | .velLoRead t _ | .load t _ _ _ | .tsDataWrite t _ _ _ | .tsDataRead t _ | .edgeCommit t _
  | .edgePlace t _ | .pinResult t _ | .padCrossing t _ _ _ _ | .ringWrite t _ | .ringRdWrite t _ _ _
  | .captCountWrite t _ _ _ | .threshWrite t _ _ _ | .pinCfgWrite t _ _ _ | .serTxHiWrite t _ _ _
  | .serRxLoRead t _ _ | .reflexEnable t _ _ _ _ | .reflexTableWrite t _ _ _ _ | .reflexOutput t _ _
  | .vccioMeasUpdate t _ _ | .vccioReturn t _ | .vccioChange t _ _ | .adcTrig t _ _ _ | .adcResult t _ _ _
  | .adcResultRead t _ _ | .adcFifoRead t _ _ _ | .dacWrite t _ _ _ _ | .pmuCtrlWrite t _ _ _
  | .pmuForceWrite t _ _ _ | .pmuClampWrite t _ _ _ | .pmuClamp t _ | .pinOwnWrite t _ _ _
  | .ownLockWrite t _ _ _ _ | .hostOeWrite t _ _ _ _ | .hostLvlWrite t _ _ _ _ | .switchSubmit t _ _ _
  | .cancel t _ _ _ | .switchBoundary t _ | .newOwnerInput t _ | .breakEnd t _ | .parkEnd t _ | .protocolRejoin t _
  | .halt t _ | .haltRetire t _ | .nop t _ | .vec t _ | .vecr t _ | .tset t _ | .matchVec t _ | .loop t _
  | .endl t _ | .jmp t _ | .jc t _ | .call t _ | .ret t _ | .waitp t _ | .waitt t _ | .waittComplete t _
  | .waiteDoorbell t _ | .waiteFabric t _ | .waiteSeq t _ | .waiteFlag t _ | .waitTimeout t _ | .ldi t _ | .add t _
  | .sub t _ | .andI t _ | .orI t _ | .xorI t _ | .shl t _ | .shr t _ | .ld t _ | .st t _ | .capt t _
  | .sigClear t _ | .sigRead t _ | .sigCheck t _ | .flag t _ | .event t _ | .peal t _ | .log t _ | .swapreq t _
  | .vectorIssue t _ | .xipLineRead t _ _ | .go t _ _ _ | .stop t _ _ _ | .step t _ _ _ | .doorbell t _ _ _
  | .flagsWrite t _ _ _ | .flogRdWrite t _ _ _ | .sampleInterrupt t _ | .pinDriveRequest t _ _ _ _
  | .serialPush t _ _ _ | .serialPop t _ _ | .presetRequest t _ _ _ | .markNotice t _ _ | .flagSet t _ _ _
  | .strobe t _ _ | .vectorMemoryWrite t _ _ _ _ _ _ | .registerPortAccess t _ _ _ _ _ | .registerPortResponse t _
  | .deepAccess t _ _ _ _ | .memoryBlockAccess t _ _ _ _ _ | .clockLost t _ | .portClockResume t _
  | .holdWindowExpiry t _ | .storePortSubmit t _ _ | .hsubmit t _ _ | .storeNop t _ | .read t _
  | .readComplete t _ _ _ _ | .program t _ | .programComplete t _ _ _ _ | .erase t _ | .eraseComplete t _ _ _ _ _
  | .suspend t _ | .suspendEffective t _ _ | .resume t _ | .sectorInfo t _ | .protect t _ | .unprotect t _
  | .setPassword t _ | .marginRead t _ | .rawRead t _ | .hcomp0Read t _ | .resetHost t _ _ | .resetFabric t _ _
  | .resetSequencer t _ _ | .pwrfailNFall t | .pwrfailNRise t | .pwrfailRecovery t | .commit t _ _
  | .commitComplete t _ | .revoke t _ _ | .setBoot t _ _ | .loadWave t _ | .reVerifyEnd t _ _ | .swapArm t _ _ _
  | .armingEnd t _ | .swapDisarm t _ _ _ | .swapGo t _ _ _ | .swapStart t _ | .swapRelease t _ _
  | .swapRevert t _ _ | .linkUp t _ _ | .trainingTimeout t _ _ | .linkDown t _ _ | .crcErr t _ _ | .unknown t _ _
  | .requestFlit t _ _ | .responseFlit t _ _ | .undeliverable t _ _ | .streamFlit t _ _ | .streamPush t _ _ _
  | .streamGapTimeout t _ | .streamEnable t _ _ _ | .remoteAccess t _ _ _ _ | .remoteTimeout t | .censusSend t
  | .censusFlit t _ _ | .linkNotice t _ _ | .censusTimeout t _ | .syncSend t _ | .sync t _ _ | .echo t _ _
  | .beatSend t | .beat t _ _ | .electionTimeout t | .beatTimeout t | .rootLost t _ _ | .rootHandover t
  | .handover t _ _ | .segmentSend t _ | .segment t _ _ | .pubEnable t _ _ _ | .latticeCompatWrite t _ _
  | .compatSet t _ _ | .ltimeLoRead t | .pealSend t _ _ | .pealRelease t | .pealFlit t _ _ | .ring t _ _
  | .clear t _ _ | .gongRingFlit t _ _ | .gongClearFlit t _ _ | .abortNFall t | .abortFilterExpiry t
  | .abortNRise t | .hotReset t | .flr t | .perstN t _ | .d3hot t _ _ _ | .bar0Access t _ | .bar2Write t _ _ _
  | .ulaneRxWord t _ _ _ | .ulaneTxWord t _ | .ulanePush t _ _ _ | .ulaneLockChange t _ _ _ | .ulaneStatRead t _
  | .prbsErrRead t _ | .txPush t _ _ _ | .txAbort t _ _ _ | .txDataWrite t _ _ _ | .rxPop t _ _ _ | .rxDataRead t _
  | .protocolPortRequest t _ _ _ _ | .pstatRead t _ | .frameReceived t _ _ | .frameSent t _ _ _ | .atCrossing t _
  | .busOffRecovered t _ | .noResponse t _ _ _ | .wake t _ _ _ | .mdioGo t _ _ _ | .mdioDone t _ _
  | .smbusIdentity t | .smbusTemperature t | .smbusStatus t | .smbusFaultCode t | .smbusArp t _
  | .cntSelWrite t _ _ | .cntLoRead t _ | .cntHiRead t _ | .cntHiWrite t _ _ | .cntWrite t _ _
  | .dumpEnable t _ _ _ | .dtrigCapture t _ _ _ | .dumpPeriod t _ | .dumpDone t _ | .drdWrite t _ _ _
  | .sampleEnable t _ _ _ | .sampleHit t _ | .bistRun t _ _ | .bistAbort t _ _ | .testStart t _
  | .testEnd t _ _ _ _ | .isolationEnd t _ | .selftestHoldTimeout t | .bistCfgWrite t _ _ | .claimSubmit t _ _
  | .release t _ _ | .budgetWrite t _ _ | .advance t _ _ | .unlock t _ _ | .otpBitDone t _ | .profileWrite t _ _
  | .writeDigest t _ _ | .installKey t _ _ | .revokeKey t _ _ | .setSealDefault t _ _ | .jtagUpdateIr t _
  | .lcAccess t _ | .testLogicReset t | .powerOn t _ | .vauxLost t | .railLost t _ | .resetNFall t
  | .devReset t _ _ | .start t _ _ _ | .refclkReturn t _ | .startComplete t | .shutdown t _ _ | .drainDone t
  | .thermalReading t _ _ | .illegal t _ | .claimQueueTimeout t | .dmaReadCompletion t _ _ | .dmaReadTimeout t _
  | .pcieLinkUp t _ _ | .linkDownReset t | .pmuClampRelease t _ | .boundaryRegisterUpdate t _ | .wakeup t _
  | .linkChange t _ | .spcTimeout t _ => t

/-- The commands that can change a byte of a BAR2 memory: the accesses to it, the writes that can reset the device or
reach the memory through another path, the device's own writes of results, and the resets. -/
def Instr.storing : Instr → Bool
  | .bar2Write _ _ _ _ | .bar0Access _ _ | .registerWrite _ _ _ _ _ | .vectorMemoryWrite _ _ _ _ _ _ _
  | .deepAccess _ _ _ _ _ | .readComplete _ _ _ _ _ | .remoteAccess _ _ _ _ _ | .requestFlit _ _ _
  | .registerPortResponse _ _ | .lcAccess _ _ | .ringWrite _ _ | .vectorIssue _ _ | .pinResult _ _ | .st _ _
  | .dumpDone _ _ | .testEnd _ _ _ _ _ | .isolationEnd _ _ | .advance _ _ _ | .unlock _ _ _ | .otpBitDone _ _ | .devReset _ _ _
  | .railLost _ _ | .vauxLost _ | .resetNFall _ | .start _ _ _ _ | .refclkReturn _ _ | .thermalReading _ _ _ => true
  | _ => false

/-- The agent and the page of a command that is a write to the page of a position domain, a pin group, an analogue block
or a protocol block: the pages that agents other than the host reach (Table 16.1). -/
def Instr.sharedPage : Instr → Option (Agent × Nat)
  | .shaftApply _ a d _ | .markWrite _ a d _ _ _ | .snapCapture _ a d _ | .load _ a d _ => some (a, pDom d)
  | .tsDataWrite _ a g _ | .ringRdWrite _ a g _ | .serTxHiWrite _ a g _ | .reflexEnable _ a g _ _
  | .reflexTableWrite _ a g _ _ | .hostOeWrite _ a g _ _ | .hostLvlWrite _ a g _ _ | .switchSubmit _ a g _
  | .cancel _ a g _ => some (a, pGrp g)
  | .captCountWrite _ a i _ | .threshWrite _ a i _ | .pinCfgWrite _ a i _ | .pinOwnWrite _ a i _ =>
    some (a, pGrp (i / 64))
  | .adcTrig _ a g _ | .dacWrite _ a g _ _ | .pmuCtrlWrite _ a g _ | .pmuForceWrite _ a g _
  | .pmuClampWrite _ a g _ => some (a, pAna g)
  | .txPush _ a p _ | .txAbort _ a p _ | .txDataWrite _ a p _ | .rxPop _ a p _ =>
    if isProto p then some (a, p) else none
  | .wake _ a p _ => if isProto p (some .lin) then some (a, p) else none
  | .mdioGo _ a p _ => if isProto p (some .eth) then some (a, p) else none
  | _ => none

end Sys2Proof
end

