-- ==== Sys2Proof/Certificates/Slice0/Obligations.lean ====
section
/-! DEFINITION. Certificates/Slice0/Obligations.lean: the statements for the provers. `Yields c s P` says that command
`c` answers a next state of which `P` holds; `Only ks ps s u` is its frame: no register but those of `ks` and no part of
the state but those of `ps` differs (the clock and the queue are `Obligations.ClockAndQueue`'s). -/
section
open Sys2Proof Sys2Proof.Machine Sys2Proof.Machine.State

/-- A step takes the command at the front of the queue and runs it with the queue's rest.
Model's choices: assumption 7. -/
def Obligations.StepRunsFront : Prop :=
  ∀ (c : Instr) (q : List Instr) (s : State), s.pending = c :: q → step s = exec c { s with pending := q }

/-- EN written 1 on a page that is OFF, REFUSED, SAFE or UNTESTED, the check that follows it, and EN written 0 on a page that
is ON (R20, R432, R437). Model's choices: assumptions 10, 20, 23, 189. -/
def Obligations.EnableAndDisable : Prop :=
  (∀ (t : Nat) (a : Agent) (p : Fin 512) (v : Word) (s : State), privileged a = true → Opens a p s →
    Prevails a p oCtrl (s.upTo t) → s.enZero p = true → bit v 0 = true →
    Yields (.enable t a p v) s fun u =>
      u.unitState p = 1 ∧ u.rf (reg p oStatus) 15 8 = Reason.none.code ∧ tabGet 0 u.checks p = s.unitState p ∧
        Only [reg p oCtrl, reg p oStatus] [.resp, .checks, .taken] s u) ∧
  (∀ (t : Nat) (p : Fin 512) (lref : Bool) (r : Reason) (s : State), s.unitState p = 1 → tabGet 0 s.checks p ≠ 5 →
    tabGet 0 s.checks p ≠ 6 → (blockOf p = some .region → s.lcState ≠ 5) →
    ((s.upTo t).unchecked p).blockCheck p lref = some r →
    Yields (.consistencyCheckEnd t p lref) s fun u =>
      u.unitState p = 3 ∧ u.rb (reg p oCtrl) 0 = false ∧ u.rf (reg p oStatus) 15 8 = r.code ∧
        Only [reg p oCtrl, reg p oStatus] [.checks] s u) ∧
  (∀ (t : Nat) (p : Fin 512) (lref : Bool) (s : State), s.unitState p = 1 → tabGet 0 s.checks p ≠ 5 →
    tabGet 0 s.checks p ≠ 6 → (blockOf p = some .region → s.lcState ≠ 5) →
    ((s.upTo t).unchecked p).blockCheck p lref = none →
    Yields (.consistencyCheckEnd t p lref) s fun u => u.unitState p = 2 ∧ u.rb (reg p oCtrl) 0 = true) ∧
  (∀ (t : Nat) (a : Agent) (p : Fin 512) (v : Word) (s : State), privileged a = true → Opens a p s →
    Prevails a p oCtrl (s.upTo t) → s.unitState p = 2 → bit v 0 = false → s.held p = false →
    Yields (.disable t a p v) s fun u =>
      u.unitState p = 0 ∧ fld (u.statusWord p) 3 0 = 2 ∧ u.rb (reg p oCtrl) 0 = false) ∧
  (∀ (t : Nat) (a : Agent) (p : Fin 512) (v : Word) (s : State), privileged a = true → Opens a p s →
    Prevails a p oCtrl (s.upTo t) → s.unitState p = 2 → bit v 0 = false → s.held p = true →
    Yields (.disable t a p v) s fun u =>
      u.unitState p = 2 ∧ u.rf (reg p oStatus) 15 8 = Reason.dependency.code ∧ u.resp = .refused ∧
        Only [reg p oCtrl, reg p oStatus] [.resp, .taken] s u)

/-- The header of a page, and a register written by an agent: a register that stores, one that takes writes only while
EN = 0, one that a 1 clears, OWNER, the pages and bits that take none, and a write that a later agent's of the same cycle has
overtaken (R5, R6, R8, R177, R310, R433, R434, R435, R438, R439). Model's choices: assumptions 7, 10, 18, 203. -/
def Obligations.RegisterWrites : Prop :=
  (∀ (t : Nat) (a : Agent) (p : Fin 512) (v : Word) (s : State), privileged a = true → Opens a p s →
    Prevails a p oMask (s.upTo t) →
    Yields (.eventMaskWrite t a p v) s fun u =>
      u.rd (reg p oMask) = v &&& 0xFFFF ∧ u.resp = .ok ∧ Only [reg p oMask] [.resp, .ep, .out, .taken] s u) ∧
  (∀ (t : Nat) (a : Agent) (p : Fin 512) (v : Word) (s : State), privileged a = true → Opens a p s →
    blockOf p ≠ some .pingroup →
    Yields (.eventW1c t a p v) s fun u =>
      u.rd (reg p oEvent) = s.rd (reg p oEvent) &&& ~~~(v &&& ~~~(word ((s.upTo t).raisedNow p))) ∧ u.resp = .ok ∧
        Only [reg p oEvent] [.resp, .ep, .out] s u) ∧
  (∀ (t : Nat) (a : Agent) (g : Fin 48) (v : Word) (s z : State), z = ((s.upTo t).answer .ok).rxGroup g →
    privileged a = true → Opens a (pGrp g) s →
    Yields (.eventW1c t a ⟨pGrp g, by simp only [pGrp]; omega⟩ v) s fun u =>
      u.rd (reg (pGrp g) oEvent) =
        z.rd (reg (pGrp g) oEvent) &&& ~~~(v &&& ~~~(word (z.raisedNow (pGrp g)))) ∧ u.resp = .ok ∧
        Only [reg (pGrp g) oEvent] (.resp :: .pins :: .free :: eventParts) s u) ∧
  (∀ (t : Nat) (a : Agent) (p : Fin 512) (v : Word) (s : State), privileged a = true → Opens a p s → bit v 0 = true →
    Yields (.lock t a p v) s fun u =>
      u.locked p = true ∧ u.rd (reg p oLock) = setBit (s.rd (reg p oLock)) 0 true ∧
        u.rd (reg p oCtrl) = setBit (s.rd (reg p oCtrl)) 1 false ∧ u.resp = .ok ∧
        Only [reg p oLock, reg p oCtrl] [.resp] s u) ∧
  (∀ (t : Nat) (a : Agent) (p : Fin 512) (v : Word) (s : State), privileged a = true → Opens a p s → bit v 0 = false →
    Yields (.lock t a p v) s fun u => u.resp = .ok ∧ Only [] [.resp] s u) ∧
  (∀ (t : Nat) (a : Agent) (d : Fin 16) (v : Word) (s : State), Opens a (pDom d) s →
    Prevails a (pDom d) 0x074 (s.upTo t) →
    Yields (.registerWrite t a ⟨pDom d, by simp only [pDom]; omega⟩ 0x074 v) s fun u =>
      u.rd (reg (pDom d) 0x074) = (s.rd (reg (pDom d) 0x074) &&& 0xFFF00000) ||| (v &&& 0xFFFFF) ∧ u.resp = .ok ∧
        Only [reg (pDom d) 0x074] [.resp, .taken] s u) ∧
  (∀ (t : Nat) (a : Agent) (d : Fin 16) (v : Word) (s : State), Opens a (pDom d) s →
    Prevails a (pDom d) 0x040 (s.upTo t) → s.enZero (pDom d) = true →
    Yields (.registerWrite t a ⟨pDom d, by simp only [pDom]; omega⟩ 0x040 v) s fun u =>
      u.rd (reg (pDom d) 0x040) = (s.rd (reg (pDom d) 0x040) &&& 0xFF800000) ||| (v &&& 0x7FFFFF) ∧ u.resp = .ok ∧
        Only [reg (pDom d) 0x040] [.resp, .taken] s u) ∧
  (∀ (t : Nat) (a : Agent) (d : Fin 16) (v : Word) (s : State), Opens a (pDom d) s → s.enZero (pDom d) = false →
    Yields (.registerWrite t a ⟨pDom d, by simp only [pDom]; omega⟩ 0x040 v) s fun u =>
      u.resp = .ok ∧ Only [] [.resp, .taken] s u) ∧
  (∀ (t : Nat) (a : Agent) (g : Fin 48) (v : Word) (s : State), Opens a (pGrp g) s →
    Yields (.registerWrite t a ⟨pGrp g, by simp only [pGrp]; omega⟩ 0x068 v) s fun u =>
      u.rd (reg (pGrp g) 0x068) = s.rd (reg (pGrp g) 0x068) &&& ~~~v ∧ u.resp = .ok ∧
        Only [reg (pGrp g) 0x068] [.resp] s u) ∧
  (∀ (t : Nat) (a : Agent) (p : Fin 512) (v : Word) (s : State), privileged a = true → Opens a p s →
    Prevails a p oOwner (s.upTo t) → s.locked p = false → fld v 7 0 ∈ [0x00, 0x01, 0x10, 0x3F, 0xF0] →
    Yields (.registerWrite t a p oOwner v) s fun u =>
      u.rd (reg p oOwner) = word (fld v 7 0) ∧ u.resp = .ok ∧ Only [reg p oOwner] [.resp, .taken] s u) ∧
  (∀ (t : Nat) (a : Agent) (p : Fin 512) (off : Nat) (v : Word) (s : State), Opens a p s → off < 4096 → off % 4 = 0 →
    (privileged a = true ∨ 0x40 ≤ off) → ¬Prevails a p off (s.upTo t) →
    Yields (.registerWrite t a p off v) s fun u => u.resp = .ok ∧ Only [] [.resp] s u) ∧
  (∀ (t : Nat) (d : Fin 16) (v : Word) (s : State), Opens .lattice (pDom d) s →
    Prevails .lattice (pDom d) 0x074 (s.upTo t) →
    Yields (.registerWrite t .lattice ⟨pDom d, by simp only [pDom]; omega⟩ 0x074 v) s fun u =>
      ¬Prevails .host (pDom d) 0x074 u) ∧
  (∀ (t : Nat) (a : Agent) (p : Fin 512) (off : Nat) (v : Word) (s : State), blockOf p = none →
    Yields (.registerWrite t a p off v) s fun u => Only [] [.resp] s u) ∧
  (∀ (t off : Nat) (s : State), s.pwr.serving = true → off % 4 = 0 → blockOf (off / 4096) = none →
    Yields (.bar0Access t { off := off, write := false }) s fun u =>
      u.rdata = 0xFFFFFFFF ∧ u.resp = .ok ∧ Only [] [.rdata, .resp] s u)


/-- One access to BAR0 by the host (R306, R307). Model's choices: assumption 22. -/
def Obligations.HostAccesses : Prop :=
  (∀ (t : Nat) (x : HostAccess) (s : State), s.pwr.serving = true → x.write = true → x.size = 4 → x.be = 0xF →
    x.off % 4 = 0 → x.poisoned = false → (h : x.off / 4096 < 512) →
    exec (.bar0Access t x) s =
      exec (.registerWrite t .host ⟨x.off / 4096, h⟩ (x.off % 4096) (x.data.setWidth 32)) s) ∧
  (∀ (t : Nat) (x : HostAccess) (s : State), s.pwr.serving = true → x.write = true →
    (x.size ≠ 4 ∨ x.be ≠ 0xF ∨ x.off % 4 ≠ 0) → s.inSelftest pPcie = false →
    Yields (.bar0Access t x) s fun u =>
      u.rd (reg pPcie oEvent) = setBit (s.rd (reg pPcie oEvent)) 6 true ∧ u.resp = .ok ∧
        Only [reg pPcie oEvent] (.rdata :: .resp :: eventParts) s u) ∧
  (∀ (t : Nat) (x : HostAccess) (s : State), s.pwr.serving = true → x.write = true → x.size = 4 → x.be = 0xF →
    x.off % 4 = 0 → x.poisoned = true → s.inSelftest pPcie = false →
    Yields (.bar0Access t x) s fun u =>
      u.rd (reg pPcie oEvent) = setBit (s.rd (reg pPcie oEvent)) 7 true ∧ u.resp = .ok ∧
        Only [reg pPcie oEvent] (.resp :: eventParts) s u) ∧
  (∀ (t : Nat) (x : HostAccess) (s : State), s.pwr.serving = true → x.write = false → x.size ≠ 4 → x.size ≠ 8 →
    s.inSelftest pPcie = false →
    Yields (.bar0Access t x) s fun u =>
      u.rdata = 0 ∧ u.rd (reg pPcie oEvent) = setBit (s.rd (reg pPcie oEvent)) 6 true ∧
        Only [reg pPcie oEvent] (.rdata :: .resp :: eventParts) s u) ∧
  (∀ (t : Nat) (p : Fin 512) (x : HostAccess) (s : State), s.pwr.serving = true → x.write = false → x.size = 4 →
    x.off = reg p oMask → (blockOf p).isSome = true → s.closed p = false →
    ((p.val = pLife ∨ p.val = pSec) → s.lifeDenies .host = false) →
    Yields (.bar0Access t x) s fun u =>
      u.rdata = (s.rd (reg p oMask)).toNat ∧ u.resp = .ok ∧ Only [] [.rdata, .resp] s u) ∧
  (∀ (t : Nat) (x : HostAccess) (s : State), s.pwr.serving = false →
    Yields (.bar0Access t x) s fun u => u.rdata = 0 ∧ u.resp = .ur ∧ Only [] [.rdata, .resp] s u)

/-- The live reads, the snapshots and LOAD of a position domain (R49, R55, R56). `z` is the state at the instant of
the command. Model's choices: assumptions 11, 26, 176. -/
def Obligations.DomainReads : Prop :=
  (∀ (t : Nat) (d : Fin 16) (s z : State), z = s.upTo t → Reads (pDom d) s →
    Yields (.posLoRead t d) s fun u =>
      u.rdata = z.posAt d z.now % 4294967296 ∧ u.rd (dreg d 0x054) = word (z.posAt d z.now / 4294967296) ∧
        u.rd (dreg d 0x058) = word (z.cycAt d z.now) ∧ Only [dreg d 0x054, dreg d 0x058] [.rdata] s u) ∧
  (∀ (t : Nat) (d : Fin 16) (s z : State), z = s.upTo t → Reads (pDom d) s →
    Yields (.velLoRead t d) s fun u =>
      u.rdata = unsigned 64 (z.velNow d) % 4294967296 ∧
        u.rd (dreg d 0x064) = word (unsigned 64 (z.velNow d) / 4294967296) ∧ Only [dreg d 0x064] [.rdata] s u) ∧
  (∀ (t : Nat) (a : Agent) (d : Fin 16) (v : Word) (s z : State), z = s.upTo t → Opens a (pDom d) s → bit v 0 = true →
    Yields (.snapCapture t a d v) s fun u =>
      tabGet {} (u.dom d).snaps 0 =
        { pos := z.posAt d z.now, cyc := z.cycAt d z.now, vel := z.velNow d, time := z.devTime
          seq := ((tabGet {} (s.dom d).snaps 0).seq + 1) % 65536, valid := true, late := false
          overrun := (tabGet {} (s.dom d).snaps 0).overrun || (tabGet {} (s.dom d).snaps 0).unread, unread := true } ∧
        (∀ k, k ≠ 0 → tabGet {} (u.dom d).snaps k = tabGet {} (s.dom d).snaps k) ∧
        (∀ e, e ≠ d.val → u.dom e = s.dom e) ∧ Only [] [.doms, .resp] s u) ∧
  (∀ (t : Nat) (d : Fin 16) (k : Fin 4) (s : State), Reads (pDom d) s →
    Yields (.snapStatRead t d k) s fun u =>
      u.rdata = (snapStat (tabGet {} (s.dom d).snaps k)).toNat ∧
        u.rd (dreg d (0x200 + 32 * k)) = word (tabGet {} (s.dom d).snaps k).pos ∧
        u.rd (dreg d (0x208 + 32 * k)) = word (tabGet {} (s.dom d).snaps k).cyc ∧
        u.rd (dreg d (0x214 + 32 * k)) = word (tabGet {} (s.dom d).snaps k).time ∧
        (tabGet {} (u.dom d).snaps k).overrun = false ∧ (tabGet {} (u.dom d).snaps k).unread = false ∧
        (∀ e, e ≠ d.val → u.dom e = s.dom e) ∧
        Only ((List.range 8).map fun j => dreg d (0x200 + 32 * k + 4 * j)) [.doms, .rdata] s u) ∧
  (∀ (t : Nat) (a : Agent) (d : Fin 16) (v : Word) (s : State), Opens a (pDom d) s → s.enZero (pDom d) = true →
    bit v 0 = true →
    Yields (.load t a d v) s fun u =>
      (u.dom d).pos = s.posPair (dreg d 0x070) (dreg d 0x074) ∧ (u.dom d).cyc = (s.rd (dreg d 0x078)).toNat ∧
        (∀ e, e ≠ d.val → u.dom e = s.dom e) ∧ Only [] [.doms, .resp] s u) ∧
  (∀ (t : Nat) (a : Agent) (d : Fin 16) (v : Word) (s : State), Opens a (pDom d) s → s.enZero (pDom d) = false →
    Yields (.load t a d v) s fun u => Only [] [.resp] s u) ∧
  (∀ (t : Nat) (d : Fin 16) (o : Nat) (s : State), Reads (pDom d) s → (o = 0x054 ∨ o = 0x058 ∨ o = 0x064) →
    Yields (.bar0Access t { off := dreg d o, write := false }) s fun u =>
      u.rdata = (s.rd (dreg d o)).toNat ∧ u.resp = .ok ∧ Only [] [.rdata, .resp] s u)

/-- The next forward crossing of mark `m` that is neither past nor committed ahead (R29, R44, R51). -/
def crossingOf (z : State) (d m : Nat) : Int :=
  levelAbove (z.markPos d m * posUnit) (z.modFine d)
    (max (settleRef (z.markRef d m) (z.markAhead d m) (z.passedPos d)) (z.markAhead d m))

/-- The marks of a position domain and its wraps (R27, R44, R45, R51, R52, R54, R446). Model's choices: assumptions 9, 26,
31, 33, 167, 175, 190. -/
def Obligations.DomainMarks : Prop :=
  (∀ (t : Nat) (a : Agent) (d : Fin 16) (m : Fin 64) (v : Word) (s : State), Opens a (pDom d) s →
    Prevails a (pDom d) (0x400 + 16 * m + 0) (s.upTo t) → s.armed d m = false →
    Yields (.markWrite t a d m 0 v) s fun u =>
      u.rd (mreg d m 0) = v ∧ u.resp = .ok ∧ Only [mreg d m 0] [.resp, .taken] s u) ∧
  (∀ (t : Nat) (a : Agent) (d : Fin 16) (m : Fin 64) (v : Word) (s : State), Opens a (pDom d) s →
    Prevails a (pDom d) (0x400 + 16 * m + 4) (s.upTo t) → s.armed d m = false →
    Yields (.markWrite t a d m 1 v) s fun u =>
      u.rd (mreg d m 4) = v &&& 0xFFFFF ∧ u.resp = .ok ∧ Only [mreg d m 4] [.resp, .taken] s u) ∧
  (∀ (t : Nat) (a : Agent) (d : Fin 16) (m : Fin 64) (v : Word) (s : State), Opens a (pDom d) s →
    Prevails a (pDom d) (0x400 + 16 * m + 12) (s.upTo t) → s.armed d m = false →
    Yields (.markWrite t a d m 3 v) s fun u =>
      u.rd (mreg d m 12) = v &&& 0x3F700F07 ∧ u.resp = .ok ∧ Only [mreg d m 12] [.resp, .taken] s u) ∧
  (∀ (t : Nat) (a : Agent) (d : Fin 16) (m : Fin 64) (v : Word) (s z : State), z = s.upTo t → Opens a (pDom d) s →
    Prevails a (pDom d) (0x400 + 16 * m + 8) z → bit v 0 = true → fld v 2 1 < 2 → bit v 12 = false → s.markPos d m < s.mod4096 d →
    Yields (.markWrite t a d m 2 v) s fun u =>
      u.rd (mreg d m 8) = v &&& 0xFFFF1F0F ∧ u.markRef d m = z.armRef d ∧ u.resp = .ok ∧
        (∀ e, e ≠ d.val → u.dom e = s.dom e) ∧ Only [mreg d m 8] [.resp, .doms, .taken] s u) ∧
  (∀ (t : Nat) (a : Agent) (d : Fin 16) (m : Fin 64) (v : Word) (s : State), Opens a (pDom d) s →
    Prevails a (pDom d) (0x400 + 16 * m + 8) (s.upTo t) → bit v 0 = true → s.mod4096 d ≤ s.markPos d m →
    Yields (.markWrite t a d m 2 v) s fun u =>
      u.armed d m = false ∧ u.rf (reg (pDom d) oStatus) 15 8 = Reason.range.code) ∧
  (∀ (t : Nat) (d : Fin 16) (m : Fin 64) (up : Int) (s z : State), z = s.upTo t → s.isOn (pDom d) = true →
    s.homedOk d = true →
    s.armed d m = true → (fld (s.markCtrl d m) 2 1 = 0 → (s.dom d).committed.any (·.mark = m.val) = false) →
    bit (s.markCtrl d m) 3 = false → fld (s.markCtrl d m) 31 16 = 0 → up = crossingOf z d m →
    up ≤ z.reachUp d →
    Yields (.eventCommit t d m) s fun u =>
      (∃ f, (u.dom d).committed = (s.dom d).committed ++ [f] ∧ f.mark = m.val ∧ f.due = z.now + ns 10 ∧
        f.ctrl = s.markCtrl d m ∧ f.arg = s.markArg d m ∧ (f.late = true ↔ z.commitLate d up = true)) ∧
        u.markAhead d m = up ∧
        (∀ e, e ≠ d.val → u.dom e = s.dom e) ∧ Only [reg (pDom d) oEvent] (.doms :: eventParts) s u) ∧
  (∀ (t : Nat) (d : Fin 16) (m : Fin 64) (up : Int) (s z : State), z = s.upTo t → s.isOn (pDom d) = true →
    s.homedOk d = true →
    s.armed d m = true → (fld (s.markCtrl d m) 2 1 = 0 → (s.dom d).committed.any (·.mark = m.val) = false) →
    bit (s.markCtrl d m) 3 = false → 0 < fld (s.markCtrl d m) 31 16 → up = crossingOf z d m →
    up ≤ z.reachUp d →
    Yields (.eventCommit t d m) s fun u =>
      fld (u.markCtrl d m) 31 16 = fld (s.markCtrl d m) 31 16 - 1 ∧ (u.dom d).committed = (s.dom d).committed ∧
        u.markAhead d m = up ∧ (∀ e, e ≠ d.val → u.dom e = s.dom e) ∧ Only [mreg d m 8] [.doms] s u) ∧
  (∀ (t : Nat) (d : Fin 16) (m : Fin 64) (f : Firing) (s : State), (s.upTo t).firingDue d m = some f →
    fld f.ctrl 12 8 = 0 →
    Yields (.markFire t d m) s fun u =>
      u.rd (mreg d m 8) = firedCtrl f (s.markCtrl d m) ∧ 
        tabGet [] (u.dom d).fired m = tabGet [] (s.dom d).fired m ++ [(f.due, f.late)] ∧
        (u.dom d).committed = (s.dom d).committed.erase f ∧ (∀ e, e ≠ d.val → u.dom e = s.dom e)) ∧
  (∀ (t : Nat) (d : Fin 16) (s z : State), z = s.upTo t → s.isOn (pDom d) = true →
    (s.dom d).wraps < z.totalAt d z.now / s.modFine d →
    Yields (.domainWrap t d) s fun u =>
      (u.dom d).wraps = (s.dom d).wraps + 1 ∧ u.rb (reg (pDom d) oEvent) 0 = true ∧
        (∀ e, e ≠ d.val → u.dom e = s.dom e) ∧ Only [reg (pDom d) oEvent] (.doms :: eventParts) s u) ∧
  (∀ (t : Nat) (d : Fin 16) (s z : State), z = s.upTo t → s.isOn (pDom d) = true →
    z.totalAt d z.now / s.modFine d < (s.dom d).wraps →
    Yields (.domainWrap t d) s fun u =>
      (u.dom d).wraps = (s.dom d).wraps - 1 ∧ (∀ e, e ≠ d.val → u.dom e = s.dom e) ∧
        Only [reg (pDom d) oEvent] (.doms :: eventParts) s u)

/-- What moves a position domain: encoder samples, increment strobes, segments, stop, presets (R31, R32, R36, R42, R43,
R44, R48). Model's choices: assumptions 27, 30, 168, 170, 171, 176. -/
def Obligations.DomainSources : Prop :=
  (∀ (t : Nat) (inp d : Fin 16) (la lb li : Bool) (sa sb si : Nat) (s : State), s.isOn (pDom d) = true →
    s.srcType d = 1 → s.srcInput d = inp → (s.dom d).enc.sampled = false →
    Yields (.encoderSample t inp la lb li sa sb si) s fun u =>
      (u.dom d).enc = { (s.dom d).enc with
        sampled := true, la := { level := la }, lb := { level := lb }, li := { level := li } } ∧
        (u.dom d).exact = (s.dom d).exact) ∧
  (∀ (t : Nat) (inp d : Fin 16) (li : Bool) (sa sb si : Nat) (s : State), s.isOn (pDom d) = true →
    s.srcType d = 1 → s.srcInput d = inp → (s.dom d).enc.sampled = true → (s.dom d).enc.la.level = false →
    (s.dom d).enc.lb.level = false → (s.dom d).enc.li.level = li → (s.dom d).enc.idx = false →
    (s.dom d).enc.la.n = 0 → (s.dom d).enc.accum = 0 → s.rf (dreg d 0x080) 11 8 = 0 → s.rf (dreg d 0x080) 2 0 = 0 →
    s.rf (dreg d 0x080) 23 16 = 0 →
    Yields (.encoderSample t inp true false li sa sb si) s fun u =>
      (u.dom d).exact = (s.dom d).exact + s.rf (dreg d 0x084) 23 0 * posUnit ∧ 
        (u.dom d).lastCount = max 1 (s.roundStep sa) ∧
        (u.dom d).reverse = false ∧ (u.dom d).stopped = false) ∧
  (∀ (t : Nat) (r : Fin 96) (d : Fin 16) (inc : BitVec 24) (s z : State), z = s.upTo t → s.regionParked r = false →
    z.portBusy r 1 = false → s.isOn (pDom d) = true → s.srcType d = 5 → s.srcRegion d = r → inc ≠ 0 →
    Yields (.incrementStrobe t r inc) s fun u =>
      (u.dom d).exact = (s.dom d).exact + inc.toInt * posUnit ∧ (u.dom d).lastCount = max 1 z.now ∧
        (u.dom d).reverse = decide (inc.toInt < 0) ∧ (u.dom d).stopped = false) ∧
  (∀ (t : Nat) (d : Fin 16) (at_ : Nat) (g : Traj) (rest : List (Nat × Traj)) (s z : State), z = s.upTo t →
    (s.dom d).segs = (at_, g) :: rest → at_ ≤ z.now → s.isOn (pDom d) = true →
    Yields (.segmentPublish t d) s fun u =>
      (u.dom d).traj = g ∧ (u.dom d).segs = rest ∧ (u.dom d).frontier = z.frontierNow d ∧
        ∀ e, e ≠ d.val → u.dom e = s.dom e) ∧
  (∀ (t : Nat) (d : Fin 16) (s z : State), z = s.upTo t → s.isOn (pDom d) = true → s.srcType d = 1 ∨ s.srcType d = 5 →
    (s.dom d).stopped = false → (s.dom d).lastCount + ns (10 * (s.rd (dreg d 0x068)).toNat) ≤ z.now →
    Yields (.stopTimeout t d) s fun u =>
      (u.dom d).stopped = true ∧ (u.dom d).traj = restAt z.now (s.dom d).exact ∧
        (u.dom d).tail = some (s.dom d).traj ∧ (u.dom d).counts = [] ∧
        u.rb (reg (pDom d) oEvent) 2 = true ∧ (∀ e, e ≠ d.val → u.dom e = s.dom e) ∧
        Only [reg (pDom d) oEvent] (.doms :: .pins :: eventParts) s u) ∧
  (∀ (t : Nat) (a : Agent) (d : Fin 16) (v : Word) (s z : State), z = s.upTo t → Opens a (pDom d) s → bit v 3 = true →
    s.srcType d = 2 → s.isOn (pDom d) = true → s.presetRate d (fld v 2 0) ≤ maxRate → s.presetRamp d (fld v 2 0) = 0 →
    (s.dom d).req.all (fun r => r.cycle != z.now / pinCycle) = true →
    Yields (.shaftApply t a d v) s fun u =>
      (u.dom d).traj = { t0 := z.now, p0 := trajAt (s.dom d).traj z.now, w := s.presetRate d (fld v 2 0) * velUnit } ∧
        (u.dom d).ramp = { target := s.presetRate d (fld v 2 0) * velUnit, ramping := false, owed := true } ∧
        (u.dom d).stopped = decide (s.presetRate d (fld v 2 0) = 0) ∧ (∀ e, e ≠ d.val → u.dom e = s.dom e) ∧
        Only [reg (pDom d) oEvent] (.doms :: .pins :: .resp :: eventParts) s u) ∧
  (∀ (t : Nat) (a : Agent) (d : Fin 16) (v : Word) (s : State), Opens a (pDom d) s → bit v 3 = true →
    s.srcType d = 2 → s.isOn (pDom d) = true → maxRate < s.presetRate d (fld v 2 0) →
    Yields (.shaftApply t a d v) s fun u =>
      u.rb (reg (pDom d) oEvent) 11 = true ∧ Only [reg (pDom d) oEvent] (.resp :: eventParts) s u) ∧
  (∀ (t : Nat) (d : Fin 16) (s : State), s.isOn (pDom d) = true → (s.dom d).ramp.owed = true →
    (s.dom d).ramp.ramping = false →
    Yields (.rateReached t d) s fun u =>
      (u.dom d).ramp.owed = false ∧ u.rb (reg (pDom d) oEvent) 12 = true ∧
        (∀ e, e ≠ d.val → u.dom e = s.dom e) ∧ Only [reg (pDom d) oEvent] (.doms :: .pins :: eventParts) s u) ∧
  (∀ (t : Nat) (d : Fin 16) (s z : State), z = s.upTo t → s.isOn (pDom d) = true → (s.dom d).ramp.owed = true →
    (s.dom d).ramp.ramping = true → capped (s.dom d).traj (s.dom d).ramp.target z.now = true →
    Yields (.rateReached t d) s fun u =>
      (u.dom d).traj = (s.dom d).traj ∧ (u.dom d).ramp = { (s.dom d).ramp with ramping := false, owed := false } ∧
        ((s.dom d).traj.cap = some (s.dom d).ramp.target → (s.dom d).traj.off = 0 → (s.dom d).traj.slew = 0 →
          trajVel (u.dom d).traj z.now = (s.dom d).ramp.target) ∧
        (u.dom d).stopped = decide ((s.dom d).ramp.target = 0) ∧ u.rb (reg (pDom d) oEvent) 12 = true ∧
        (∀ e, e ≠ d.val → u.dom e = s.dom e) ∧ Only [reg (pDom d) oEvent] (.doms :: .pins :: eventParts) s u)

/-- The frequency that a mains period shows, in mHz (R38). -/
def mainsFreq (period : Nat) : Nat := 1000 * second / max 1 period

/-- The period that a crossing shows a locked tracker, `dt` after the last one: half of it where one crossing is missing
(R39). -/
def lockedPeriod (k : Tracker) (dt : Nat) : Nat :=
  if 3 * k.period ≤ 2 * dt ∧ 2 * dt < 5 * k.period then dt / 2 else dt

/-- Since when the input of an unlocked tracker is steady, at a crossing `dt` after the last one (Table 2.4). -/
def steadySince (k : Tracker) (dt peak now : Nat) : Nat :=
  if State.mainsSteady k (max 1 dt) (mainsFreq dt) peak then k.since else now

/-- The mains and the lattice source of a position domain (R38, R39, R41).
Model's choices: assumptions 28, 29, 172, 188. -/
def Obligations.DomainTracking : Prop :=
  (∀ (t : Nat) (c : MainsCycle) (d : Fin 16) (s z : State), z = s.upTo t → s.isOn (pDom d) = true → s.srcType d = 3 →
    s.srcInput d = c.sense → (s.dom d).tracker.last = none →
    Yields (.mainsZeroCrossing t c) s fun u =>
      (u.dom d).tracker = { (s.dom d).tracker with last := some z.now, period := 0, since := z.now }) ∧
  (∀ (t : Nat) (c : MainsCycle) (d : Fin 16) (t0 : Nat) (s z : State), z = s.upTo t →
    s.isOn (pDom d) = true →
    s.srcType d = 3 → s.srcInput d = c.sense → (s.dom d).tracker.last = some t0 → (s.dom d).tracker.locked = true →
    (mainsFreq (lockedPeriod (s.dom d).tracker (z.now - t0)) < 40000 ∨
      70000 < mainsFreq (lockedPeriod (s.dom d).tracker (z.now - t0))) →
    Yields (.mainsZeroCrossing t c) s fun u =>
      (u.dom d).tracker.locked = false ∧ (u.dom d).tracker.good = 0 ∧
        (u.dom d).tracker.holdEnd = some (z.now + s.rf (dreg d 0x0C8) 15 8 * (s.dom d).tracker.period) ∧
        u.rb (reg (pDom d) oEvent) 8 = true) ∧
  (∀ (t : Nat) (c : MainsCycle) (d : Fin 16) (t0 n : Nat) (s z : State), z = s.upTo t →
    s.isOn (pDom d) = true →
    s.srcType d = 3 → s.srcInput d = c.sense → (s.dom d).tracker.last = some t0 → (s.dom d).tracker.locked = true →
    n = lockedPeriod (s.dom d).tracker (z.now - t0) → 40000 ≤ mainsFreq n → mainsFreq n ≤ 70000 →
    Yields (.mainsZeroCrossing t c) s fun u =>
      (u.dom d).tracker.locked = true ∧ (u.dom d).tracker.last = some z.now ∧
        (u.dom d).traj.w = s.mainsCycle d / max 1 n ∧
        trajAt (u.dom d).traj z.now = trajAt (s.dom d).traj z.now ∧
        u.rd (dreg d 0x0CC) = word (mainsFreq n)) ∧
  (∀ (t : Nat) (c : MainsCycle) (d : Fin 16) (t0 : Nat) (s z : State), z = s.upTo t →
    s.isOn (pDom d) = true →
    s.srcType d = 3 → s.srcInput d = c.sense →
    (∀ e, e < d.val → ¬(s.isOn (pDom e) = true ∧ s.srcType e = 3 ∧ s.srcInput e = c.sense)) →
    (s.dom d).tracker.last = some t0 → (s.dom d).tracker.locked = false → (s.dom d).tracker.good = 7 →
    40000 ≤ mainsFreq (z.now - t0) → mainsFreq (z.now - t0) ≤ 70000 →
    Yields (.mainsZeroCrossing t c) s fun u =>
      (z.freeInt % 1000000 ≤ 1000 → 4 * s.rf (dreg c.sense 0x804) 7 0 ≤ c.peak.toNat →
        (u.dom d).tracker.locked = true ∧ u.rb (reg (pDom d) oEvent) 9 = true ∧
        u.rd (dreg d 0x0CC) = word (mainsFreq (z.now - t0))) ∧
      (c.peak.toNat < 4 * s.rf (dreg c.sense 0x804) 7 0 → (u.dom d).tracker.locked = false) ∧
      (1000 < z.freeInt % 1000000 → z.now + 9 * max 1 (z.now - t0) <
          steadySince (s.dom d).tracker (z.now - t0) c.peak.toNat z.now + s.mainsLockMax d →
        (u.dom d).tracker.locked = false ∧ (u.dom d).tracker.good = 0) ∧
      (steadySince (s.dom d).tracker (z.now - t0) c.peak.toNat z.now + s.mainsLockMax d ≤
          z.now + 9 * max 1 (z.now - t0) → 4 * s.rf (dreg c.sense 0x804) 7 0 ≤ c.peak.toNat →
        (u.dom d).tracker.locked = true)) ∧
  (∀ (t : Nat) (d : Fin 16) (s z : State), z = s.upTo t → s.isOn (pDom d) = true → s.srcType d = 3 →
    (s.dom d).tracker.locked = true → 2 * (s.dom d).tracker.last.getD 0 + 5 * (s.dom d).tracker.period ≤ 2 * z.now →
    Yields (.lockLost t d) s fun u =>
      (u.dom d).tracker.locked = false ∧ (u.dom d).tracker.last = none ∧
        (u.dom d).tracker.holdEnd = some (z.now + s.rf (dreg d 0x0C8) 15 8 * (s.dom d).tracker.period) ∧
        u.rb (reg (pDom d) oEvent) 8 = true ∧ (∀ e, e ≠ d.val → u.dom e = s.dom e) ∧
        Only [reg (pDom d) oEvent] (.doms :: eventParts) s u) ∧
  (∀ (t : Nat) (d : Fin 16) (h : Nat) (s z : State), z = s.upTo t → s.isOn (pDom d) = true → s.srcType d = 3 →
    (s.dom d).tracker.holdEnd = some h → h ≤ z.now →
    Yields (.holdoverEnd t d) s fun u =>
      (u.dom d).tracker.holdEnd = none ∧ (u.dom d).tracker.stoppedByHoldover = true ∧ (u.dom d).stopped = true ∧
        (u.dom d).traj = restAt z.now (z.totalAt d z.now) ∧ u.rb (reg (pDom d) oEvent) 10 = true ∧
        (∀ e, e ≠ d.val → u.dom e = s.dom e) ∧ Only [reg (pDom d) oEvent] (.doms :: .pins :: eventParts) s u) ∧
  (∀ (t : Nat) (d : Fin 16) (s z : State), z = s.upTo t → s.isOn (pDom d) = true → s.srcType d = 4 →
    (s.dom d).stopped = false → (s.dom d).lastUpd + us (s.rf (dreg d 0x0E0) 15 0) ≤ z.now →
    Yields (.latHoldoverExpiry t d) s fun u =>
      (u.dom d).stopped = true ∧ (u.dom d).current = false ∧ (u.dom d).holdover = false ∧
        (u.dom d).traj = restAt z.now (z.totalAt d z.now) ∧ u.rb (reg (pDom d) oEvent) 2 = true ∧
        (∀ e, e ≠ d.val → u.dom e = s.dom e) ∧ Only [reg (pDom d) oEvent] (.doms :: .pins :: eventParts) s u) ∧
  (∀ (t : Nat) (d : Fin 16) (s z : State), z = s.upTo t → s.isOn (pDom d) = true → s.srcType d = 4 →
    (s.dom d).stopped = true → (s.dom d).current = true ∨ (s.dom d).holdover = true →
    (s.dom d).lastUpd + us (s.rf (dreg d 0x0E0) 15 0) ≤ z.now →
    Yields (.latHoldoverExpiry t d) s fun u =>
      (u.dom d).stopped = true ∧ (u.dom d).current = false ∧ (u.dom d).holdover = false ∧
        (∀ e, e ≠ d.val → u.dom e = s.dom e) ∧ Only [] [.doms, .pins] s u)

/-- Timing sets and the edge queue of a pin (R60, R61, R62, R64, R97, R110, R112,
R181). Model's choices: assumptions 9, 34, 35, 192. -/
def Obligations.PinTiming : Prop :=
  (∀ (t : Nat) (a : Agent) (g : Fin 48) (v : Word) (pin set w : Nat) (s : State), Opens a (pGrp g) s →
    pin = s.rf (greg g 0x048) 13 8 → set = s.rf (greg g 0x048) 7 3 → w = s.rf (greg g 0x048) 2 0 → w ≠ 7 →
    tsOk w v = true →
    Yields (.tsDataWrite t a g v) s fun u =>
      tabGet 0 u.tsets (tsKey g pin set w) = (if w = 6 then v &&& 0xFF37 else v &&& 0xCFFFFFFF) ∧
        (s.rb (greg g 0x048) 30 = false → ∀ k, k ≠ tsKey g pin set w → tabGet 0 u.tsets k = tabGet 0 s.tsets k) ∧
        u.rf (greg g 0x048) 13 0 = (s.rf (greg g 0x048) 13 0 + b2n (s.rb (greg g 0x048) 31)) % 16384 ∧
        Only [greg g 0x048] [.tsets, .resp, .lagged] s u) ∧
  (∀ (t : Nat) (a : Agent) (g : Fin 48) (v : Word) (s : State), Opens a (pGrp g) s → s.rf (greg g 0x048) 2 0 = 6 →
    tsOk 6 v = false →
    Yields (.tsDataWrite t a g v) s fun u =>
      u.rf (reg (pGrp g) oStatus) 15 8 = Reason.range.code ∧ u.resp = .refused ∧
        Only [reg (pGrp g) oStatus, greg g 0x048] [.resp] s u) ∧
  (∀ (t : Nat) (g : Fin 48) (s : State), Reads (pGrp g) s →
    Yields (.tsDataRead t g) s fun u =>
      u.rdata = (tabGet 0 s.tsets (tsKey g (s.rf (greg g 0x048) 13 8) (s.rf (greg g 0x048) 7 3)
        (s.rf (greg g 0x048) 2 0))).toNat ∧
        u.rf (greg g 0x048) 13 0 = (s.rf (greg g 0x048) 13 0 + b2n (s.rb (greg g 0x048) 31)) % 16384 ∧
        Only [greg g 0x048] [.rdata] s u) ∧
  (∀ (t : Nat) (i : Fin 3072) (e : Edge) (at_ : Nat) (s z : State), z = s.upTo t →
    z.firstDue (s.pin i).edges = some (e, at_) → e.at_ = none → edgeCompares e.act = true ∨ s.owner i = e.own →
    s.rf (cfgReg i) 9 8 ≠ 1 → e.act ≠ .bit → s.inSelftest (pGrp (i / 64)) = false →
    Yields (.edgeCommit t i) s fun u =>
      (∃ q, (u.pin i).queue = (s.pin i).queue ++ [q] ∧ q.act = e.act ∧ q.own = e.own ∧
        q.due = z.roundStep (max at_ (z.now + ns 10))) ∧
        (u.pin i).edges = (s.pin i).edges.erase e ∧
        (at_ < z.now + ns 10 → u.rb (reg (pGrp (i / 64)) oEvent) 1 = true) ∧
        (∀ j, j ≠ i.val → u.pin j = s.pin j) ∧
        Only [reg (pGrp (i / 64)) oEvent, reg (pDom (s.grpDomain (i / 64))) oEvent, greg (i / 64) 0x044]
          (.pins :: .groups :: eventParts) s u) ∧
  (∀ (t : Nat) (i : Fin 3072) (e : Edge) (c at_ : Nat) (oe lvl : Bool) (s z : State), z = s.upTo t →
    z.firstDue (s.pin i).edges = some (e, at_) → e.at_ = some c → e.act = .both oe lvl → s.owner i = e.own →
    s.rf (cfgReg i) 9 8 ≠ 1 →
    Yields (.edgeCommit t i) s fun u =>
      (∃ q, (u.pin i).queue = (s.pin i).queue ++ [q] ∧ q.act = e.act ∧ q.own = e.own ∧ q.due = at_) ∧
        (u.pin i).edges = (s.pin i).edges.erase e ∧ (∀ j, j ≠ i.val → u.pin j = s.pin j) ∧
        Only [reg (pGrp (i / 64)) oEvent, greg (i / 64) 0x044] (.pins :: .groups :: eventParts) s u) ∧
  (∀ (t : Nat) (i : Fin 3072) (e : Edge) (at_ : Nat) (s z : State), z = s.upTo t →
    z.firstDue (s.pin i).edges = some (e, at_) → edgeCompares e.act = false → s.owner i ≠ e.own →
    Yields (.edgeCommit t i) s fun u =>
      (u.pin i).edges = ((s.pin i).edges.erase e).map (fixBits e at_) ∧ (u.pin i).queue = (s.pin i).queue ∧
        (∀ j, j ≠ i.val → u.pin j = s.pin j) ∧ Only [] [.pins] s u) ∧
  (∀ (t : Nat) (i : Fin 3072) (q : QEdge) (r : List QEdge) (s z : State), z = s.upTo t → (s.pin i).queue = q :: r →
    q.due / pinCycle * pinCycle ≤ z.now → z.beyondSwitch (s.pin i) q = false →
    Yields (.edgePlace t i) s fun u =>
      (u.pin i).queue = r ∧ ((u.pin i).oe, (u.pin i).lvl) = actOn q.act (s.pin i).oe (s.pin i).lvl ∧
        (∀ j, j ≠ i.val → ∃ x y, u.pin j = { s.pin j with disagree := x, moved := y }) ∧
        Only [reg (pGrp (i / 64)) oEvent, greg (i / 64) 0x044] (.pins :: .groups :: eventParts) s u) ∧
  (∀ (t : Nat) (i : Fin 3072) (q : QEdge) (r : List QEdge) (s : State), (s.pin i).queue = q :: r →
    s.beyondSwitch (s.pin i) q = true → Yields (.edgePlace t i) s fun u => Only [] [] s u)


/-- Where the next record of group `g`'s Snare ring is stored (R78). -/
def snareSlot (s : State) (g : Nat) : Nat := resBase g + s.rf (greg g 0x050) 16 5 * 32 + s.rf (greg g 0x058) 16 0

/-- RING_WR after one more record of 32 bytes (R78). -/
def ringNext (s : State) (g : Nat) : Nat :=
  if s.rf (greg g 0x054) 7 0 * 1024 ≤ s.rf (greg g 0x058) 16 0 + 32 then 0 else s.rf (greg g 0x058) 16 0 + 32

/-- The first pin of group `g`, in turn, whose Snare FIFO holds a record (R78). -/
def snareTurn (s : State) (g : Nat) : Option Nat :=
  ((List.range 64).map fun k => 64 * g + ((s.grp g).next + k) % 64).find? fun i => !(s.pin i).fifo.isEmpty

/-- What a pin records: a compare result and a pad crossing; the Snare ring of a group: a record goes to result memory, a
full ring holds it, and software moves RING_RD (R71, R74, R77, R78, Table 3.12). Model's choices: assumptions 37, 38, 39, 40,
177, 197. -/
def Obligations.PinResultsAndSnareRing : Prop :=
  (∀ (t : Nat) (i : Fin 3072) (j : Judge) (at_ : Nat) (b : Option Nat) (s z : State), z = s.upTo t →
    z.judgeDue (s.pin i).judges = some (j, at_, b) → j.code ≠ 10 → z.judgeFail i j at_ b = some true →
    fld (z.cfgNow i) 18 16 ≠ 4 → s.inSelftest (pGrp (i / 64)) = false →
    Yields (.pinResult t i) s fun u =>
      u.rb (greg (i / 64) (0x068 + 4 * (i % 64 / 32))) (i % 32) = true ∧
        u.rb (reg (pGrp (i / 64)) oEvent) 4 = true ∧ u.rd (captReg i) = s.rd (captReg i)) ∧
  (∀ (t : Nat) (i : Fin 3072) (j : Judge) (at_ : Nat) (b : Option Nat) (s z : State), z = s.upTo t →
    z.judgeDue (s.pin i).judges = some (j, at_, b) → j.code = 10 → fld (z.cfgNow i) 18 16 = 1 →
    s.rf (cfgReg i) 9 8 = 0 → (s.pin i).fifo.length < 8 → s.rd (captReg i) = 0 →
    Yields (.pinResult t i) s fun u =>
      (u.pin i).judges = (s.pin i).judges.erase j ∧ (u.pin i).fifo.length = (s.pin i).fifo.length + 1 ∧
        u.rd (captReg i) = 1 ∧ (u.grp (i / 64)).seq = ((s.grp (i / 64)).seq + 1) % 65536 ∧
        (∀ k, k ≠ i.val → u.pin k = s.pin k) ∧ Only [captReg i] [.pins, .groups, .free] s u) ∧
  (∀ (t : Nat) (i : Fin 3072) (uv : BitVec 22) (hi lo : Bool) (s z : State), z = s.upTo t → s.cmpRuns i = true →
    Yields (.padCrossing t i uv hi lo) s fun u =>
      ((u.pin i).cmph, (u.pin i).cmpl, (u.pin i).mid) = z.cmpTo i uv.toNat hi lo ∧ (u.pin i).uv = uv.toNat ∧
        ∀ k, k ≠ i.val → ∃ x y, u.pin k = { s.pin k with disagree := x, moved := y }) ∧
  (∀ (t : Nat) (i : Fin 3072) (uv : BitVec 22) (hi lo : Bool) (θ : Int) (s z : State), z = s.upTo t → s.cmpRuns i = true →
    s.trimmed i = false →
    θ = s.threshUv i (s.rf (threshReg i) 25 16) → (cmpHeld (s.pin i) z.now).1 = false → (s.pin i).uv < uv.toNat →
    θ + z.hystHalf i z.now + s.threshAcc i < uv.toNat * 1024 →
    Yields (.padCrossing t i uv hi lo) s fun u => (u.pin i).cmph = true) ∧
  (∀ (t : Nat) (i : Fin 3072) (uv : BitVec 22) (hi lo : Bool) (θ : Int) (s z : State), z = s.upTo t → s.cmpRuns i = true →
    s.trimmed i = false →
    θ = s.threshUv i (s.rf (threshReg i) 25 16) → (cmpHeld (s.pin i) z.now).1 = true → uv.toNat < (s.pin i).uv →
    (uv.toNat * 1024 : Int) < θ - z.hystHalf i z.now - s.threshAcc i →
    Yields (.padCrossing t i uv hi lo) s fun u => (u.pin i).cmph = false) ∧
  (∀ (t : Nat) (i : Fin 3072) (uv : BitVec 22) (hi lo : Bool) (s : State), s.cmpRuns i = false →
    Yields (.padCrossing t i uv hi lo) s fun u =>
      (u.pin i).cmph = (s.pin i).cmph ∧ (u.pin i).cmpl = (s.pin i).cmpl ∧ (u.pin i).uv = uv.toNat ∧
        (2 * uv.toNat ≠ (s.grp (i / 64)).mv * 1000 →
          (u.pin i).mid = decide ((s.grp (i / 64)).mv * 1000 < 2 * uv.toNat)) ∧
        (∀ k, k ≠ i.val → u.pin k = s.pin k) ∧
        Only [reg (pGrp (i / 64)) oEvent] (.pins :: .groups :: .free :: eventParts) s u) ∧
  (∀ (t : Nat) (g : Fin 48) (i : Nat) (s : State), snareTurn s g = some i → 0 < s.rf (greg g 0x054) 7 0 →
    s.isOn (pGrp g) = true → ringNext s g ≠ s.rf (greg g 0x05C) 16 0 →
    Yields (.ringWrite t g) s fun u =>
      u.rd (greg g 0x058) = word (ringNext s g) ∧ (u.pin i).fifo = (s.pin i).fifo.tail ∧
        (u.grp g).next = (i + 1) % 64 ∧ (u.grp g).full = false ∧ (∀ k, k ≠ i → u.pin k = s.pin k) ∧
        (∀ b, b < snareSlot s g ∨ snareSlot s g + 4 * ((s.pin i).fifo.headD []).length ≤ b → u.byte b = s.byte b) ∧
        Only [greg g 0x058] [.pins, .groups, .mem, .free, .taken] s u) ∧
  (∀ (t : Nat) (g : Fin 48) (i k : Nat) (s : State), snareTurn s g = some i → 0 < s.rf (greg g 0x054) 7 0 →
    s.isOn (pGrp g) = true → ringNext s g ≠ s.rf (greg g 0x05C) 16 0 → s.isOn (pSeq g) = false →
    (h : k < ((s.pin i).fifo.headD []).length) →
    Yields (.ringWrite t g) s fun u => u.memWord (snareSlot s g + 4 * k) = ((s.pin i).fifo.headD [])[k]) ∧
  (∀ (t : Nat) (g : Fin 48) (i : Nat) (s : State), snareTurn s g = some i → 0 < s.rf (greg g 0x054) 7 0 →
    s.isOn (pGrp g) = true → ringNext s g = s.rf (greg g 0x05C) 16 0 → s.rb (greg g 0x060) 0 = false →
    (s.grp g).full = false →
    Yields (.ringWrite t g) s fun u =>
      (u.grp g).full = true ∧ u.rb (reg (pGrp g) oEvent) 5 = true ∧ (∀ k, u.pin k = s.pin k) ∧
        Only [reg (pGrp g) oEvent] (.groups :: eventParts) s u) ∧
  (∀ (t : Nat) (a : Agent) (g : Fin 48) (v : Word) (s : State), Opens a (pGrp g) s →
    Prevails a (pGrp g) 0x05C (s.upTo t) → fld v 16 0 % 32 = 0 →
    fld v 16 0 < s.rf (greg g 0x054) 7 0 * 1024 →
    Yields (.ringRdWrite t a g v) s fun u =>
      u.rd (greg g 0x05C) = word (fld v 16 0) ∧ (u.grp g).full = false ∧ u.resp = .ok ∧ (∀ h, h ≠ g.val → u.grp h = s.grp h) ∧
        Only [greg g 0x05C] [.groups, .resp, .taken] s u) ∧
  (∀ (t : Nat) (a : Agent) (g : Fin 48) (v : Word) (s : State), Opens a (pGrp g) s →
    Prevails a (pGrp g) 0x05C (s.upTo t) → (fld v 16 0 % 32 ≠ 0 ∨ s.rf (greg g 0x054) 7 0 * 1024 ≤ fld v 16 0) →
    Yields (.ringRdWrite t a g v) s fun u =>
      u.rf (reg (pGrp g) oStatus) 15 8 = Reason.range.code ∧ u.resp = .refused ∧
        Only [reg (pGrp g) oStatus] [.resp, .taken] s u)

/-- The registers of a pin and the supply of its bank (R75, R79, R93, R120, Table 3.14).
Model's choices: assumptions 10, 37, 177, 187, 195. -/
def Obligations.PinRegisters : Prop :=
  (∀ (t : Nat) (a : Agent) (i : Fin 3072) (v : Word) (s : State), Opens a (pGrp (i / 64)) s →
    Prevails a (pGrp (i / 64)) (0x300 + 4 * (i % 64)) (s.upTo t) →
    Yields (.captCountWrite t a i v) s fun u =>
      u.rd (captReg i) = v &&& 0x7FFFFFFF ∧ u.resp = .ok ∧ Only [captReg i] [.resp, .taken] s u) ∧
  (∀ (t : Nat) (a : Agent) (i : Fin 3072) (v : Word) (s z : State), z = s.upTo t → Opens a (pGrp (i / 64)) s →
    Prevails a (pGrp (i / 64)) (0x200 + 4 * (i % 64)) z →
    (s.isOn (pGrp (i / 64)) = true → fld v 9 0 ≤ fld v 25 16) →
    Yields (.threshWrite t a i v) s fun u =>
      u.rd (threshReg i) = v &&& 0x03FF03FF ∧ (u.pin i).undefTo = z.now + ns 500 ∧ u.resp = .ok ∧
        (∀ k, k ≠ i.val → ∃ x y, u.pin k = { s.pin k with disagree := x, moved := y }) ∧
        Only [threshReg i] [.pins, .resp, .free, .taken] s u) ∧
  (∀ (t : Nat) (a : Agent) (i : Fin 3072) (v : Word) (s : State), Opens a (pGrp (i / 64)) s →
    Prevails a (pGrp (i / 64)) (0x200 + 4 * (i % 64)) (s.upTo t) → s.isOn (pGrp (i / 64)) = true →
    fld v 25 16 < fld v 9 0 →
    Yields (.threshWrite t a i v) s fun u =>
      u.rf (reg (pGrp (i / 64)) oStatus) 15 8 = Reason.inconsistent.code ∧ u.resp = .refused ∧
        Only [reg (pGrp (i / 64)) oStatus] [.resp, .taken] s u) ∧
  (∀ (t : Nat) (a : Agent) (i : Fin 3072) (v : Word) (s z : State), z = s.upTo t → Opens a (pGrp (i / 64)) s →
    Prevails a (pGrp (i / 64)) (0x100 + 4 * (i % 64)) z → s.pinCfgCheck a i v = none →
    fld v 9 8 = s.rf (cfgReg i) 9 8 →
    Yields (.pinCfgWrite t a i v) s fun u =>
      u.rd (cfgReg i) = setFld (v &&& 0x00E7FF1F) 9 8 (fld v 9 8) ∧
        (∀ w, u.cfgAt i w = if w < nextAfter pinCycle z.now then z.cfgNow i else u.rd (cfgReg i)) ∧ u.resp = .ok ∧
        (∀ k, k ≠ i.val → ∃ x y, u.pin k = { s.pin k with disagree := x, moved := y }) ∧
        (fld v 13 12 = s.rf (cfgReg i) 13 12 → Only [cfgReg i] [.resp, .taken, .lagged] s u) ∧
        Only [cfgReg i] [.resp, .taken, .lagged, .pins, .groups, .free] s u) ∧
  (∀ (t : Nat) (a : Agent) (i : Fin 3072) (v : Word) (s z : State), z = s.upTo t → Opens a (pGrp (i / 64)) s →
    Prevails a (pGrp (i / 64)) (0x100 + 4 * (i % 64)) z → s.pinCfgCheck a i v = none →
    fld v 9 8 ≠ s.rf (cfgReg i) 9 8 → z.swBeaten (swRank a) i = false →
    Yields (.pinCfgWrite t a i v) s fun u =>
      u.rf (cfgReg i) 9 8 = s.rf (cfgReg i) 9 8 ∧
        (∃ w, (u.pin i).switch = some w ∧ w.owner = none ∧ w.mode = fld v 9 8 ∧ w.bound = some (z.swBound [i])) ∧
        u.rb (ownReg i) 0 = true ∧
        (∀ k, k ≠ i.val → ∃ x y, u.pin k = { s.pin k with disagree := x, moved := y }) ∧
        Only [cfgReg i, ownReg i, greg (i / 64) 0x70C] [.pins, .resp, .taken, .lagged, .groups, .free] s u) ∧
  (∀ (t : Nat) (a : Agent) (i : Fin 3072) (v : Word) (s z : State), z = s.upTo t → Opens a (pGrp (i / 64)) s →
    Prevails a (pGrp (i / 64)) (0x100 + 4 * (i % 64)) z → s.pinCfgCheck a i v = none →
    fld v 9 8 ≠ s.rf (cfgReg i) 9 8 → z.swBeaten (swRank a) i = true →
    Yields (.pinCfgWrite t a i v) s fun u =>
      u.rf (cfgReg i) 9 8 = s.rf (cfgReg i) 9 8 ∧ (u.pin i).switch = (s.pin i).switch ∧
        u.rb (greg (i / 64) 0x70C) 2 = true ∧
        Only [cfgReg i, greg (i / 64) 0x70C] [.pins, .resp, .taken, .lagged, .groups, .free] s u) ∧
  (∀ (t : Nat) (g : Fin 48) (mv : BitVec 16) (s : State), s.inBand g mv.toNat = false → s.isOn (pGrp g) = true →
    s.inBand g (s.rf (greg g 0x064) 15 0) = true →
    Yields (.vccioMeasUpdate t g mv) s fun u =>
      u.rd (greg g 0x064) = word mv.toNat ∧ u.vccioOk g = false ∧ (u.grp g).padsOff = true ∧
        u.rb (reg (pGrp g) oEvent) 13 = true) ∧
  (∀ (t : Nat) (g : Fin 48) (mv : BitVec 16) (s : State), s.inBand g mv.toNat = true →
    Yields (.vccioMeasUpdate t g mv) s fun u =>
      u.rd (greg g 0x064) = word mv.toNat ∧ u.vccioOk g = true ∧ (u.grp g).inBand.isSome = true) ∧
  (∀ (t : Nat) (g : Fin 48) (b : Nat) (s z : State), z = s.upTo t → (s.grp g).padsOff = true →
    (s.grp g).inBand = some b → b + us 100 ≤ z.now →
    Yields (.vccioReturn t g) s fun u => (u.grp g).padsOff = false ∧ Only [] [.groups, .pins] s u) ∧
  (∀ (t : Nat) (g : Fin 48) (mv : BitVec 16) (s : State), s.pwr.phase ≠ .reset → s.pwr.phase ≠ .fault →
    Yields (.vccioChange t g mv) s fun u =>
      (u.grp g).mv = mv.toNat ∧ u.rb (reg pPower (0x044 + 4 * (g / 32))) (g % 32) = decide (1000 < mv.toNat) ∧
        (∀ h, h ≠ g.val → u.grp h = s.grp h) ∧
        Only [reg pPower (0x044 + 4 * (g / 32)), reg pPower oEvent] (.groups :: .pins :: eventParts) s u) ∧
  (∀ (t : Nat) (g : Fin 48) (mv : BitVec 16) (s : State), s.pwr.phase = .reset ∨ s.pwr.phase = .fault →
    Yields (.vccioChange t g mv) s fun u =>
      (u.grp g).mv = mv.toNat ∧ (∀ h, h ≠ g.val → u.grp h = s.grp h) ∧ Only [] [.groups, .pins] s u)

/-- The serial FIFOs and the reflex cells of a group (R73, R81, R82, R83, Table 3.13).
Model's choices: assumptions 43, 201. -/
def Obligations.SerialAndReflex : Prop :=
  (∀ (t : Nat) (a : Agent) (g : Fin 48) (v : Word) (i : Nat) (s : State), Opens a (pGrp g) s →
    i = 64 * g + s.rf (greg g 0x070) 5 0 → (s.pin i).tx.length < 16 →
    Yields (.serTxHiWrite t a g v) s fun u =>
      (u.pin i).tx = (s.pin i).tx ++ [v ++ (s.grp g).serTxLo] ∧ (∀ k, k ≠ i → u.pin k = s.pin k) ∧
        Only [] [.pins, .resp] s u) ∧
  (∀ (t : Nat) (a : Agent) (g : Fin 48) (v : Word) (i : Nat) (s : State), Opens a (pGrp g) s →
    i = 64 * g + s.rf (greg g 0x070) 5 0 → 16 ≤ (s.pin i).tx.length →
    Yields (.serTxHiWrite t a g v) s fun u =>
      u.pin i = s.pin i ∧ u.rb (reg (pGrp g) oEvent) 12 = true ∧
        Only [reg (pGrp g) oEvent] (.resp :: eventParts) s u) ∧
  (∀ (t : Nat) (a : Agent) (g : Fin 48) (i : Nat) (w : BitVec 64) (r : List (BitVec 64)) (s : State), Reads (pGrp g) s →
    i = 64 * g + s.rf (greg g 0x070) 5 0 → (s.pin i).rx = w :: r →
    Yields (.serRxLoRead t a g) s fun u =>
      u.rdata = w.toNat % 2 ^ 32 ∧ u.rd (greg g 0x080) = word (w.toNat / 2 ^ 32) ∧
        (∃ r', (u.pin i).rx = r ++ r') ∧ (∀ k, k ≠ i → u.pin k = s.pin k) ∧
        Only [greg g 0x080, reg (pGrp g) oEvent] (.pins :: .free :: .rdata :: eventParts) s u) ∧
  (∀ (t : Nat) (a : Agent) (g : Fin 48) (k : Fin 16) (v : Word) (s z : State), z = s.upTo t → Opens a (pGrp g) s →
    Prevails a (pGrp g) (0x40C + 16 * k) z → s.rfxEn g k = false →
    bit v 0 = true → s.rf (greg g (0x408 + 16 * k)) 10 0 ≤ 1664 → s.rf (greg g (0x408 + 16 * k)) 29 28 ≠ 3 →
    s.isOn (pGrp g) = true →
    (∀ j, j < 16 → j ≠ k.val → s.rfxEn g j = true →
      s.rf (greg g (0x408 + 16 * j)) 21 16 ≠ s.rf (greg g (0x408 + 16 * k)) 21 16) →
    Yields (.reflexEnable t a g k v) s fun u =>
      u.rfxEn g k = true ∧ u.rf (greg g (0x40C + 16 * k)) 15 8 = fld v 15 8 ∧ (u.rfx g k).out = z.rfxLook g k z.now ∧
        (u.rfx g k).path = [] ∧
        Only [greg g (0x40C + 16 * k), reg (pGrp g) oEvent] (.groups :: .pins :: .resp :: .taken :: eventParts) s u) ∧
  (∀ (t : Nat) (a : Agent) (g : Fin 48) (k : Fin 16) (v : Word) (s : State), Opens a (pGrp g) s →
    Prevails a (pGrp g) (0x40C + 16 * k) (s.upTo t) → s.rfxEn g k = false →
    bit v 0 = true → 1664 < s.rf (greg g (0x408 + 16 * k)) 10 0 →
    Yields (.reflexEnable t a g k v) s fun u =>
      u.rfxEn g k = false ∧ u.rf (reg (pGrp g) oStatus) 15 8 = Reason.range.code ∧ u.resp = .refused) ∧
  (∀ (t : Nat) (a : Agent) (g : Fin 48) (k : Fin 16) (v : Word) (s z : State), z = s.upTo t → Opens a (pGrp g) s →
    Prevails a (pGrp g) (0x404 + 16 * k) z →
    Yields (.reflexTableWrite t a g k v) s fun u =>
      u.rd (greg g (0x404 + 16 * k)) = v &&& 0xFFFF ∧
        (∀ w, u.rdAt (greg g (0x404 + 16 * k)) w =
          if w < nextAfter pinCycle z.now then z.rdAt (greg g (0x404 + 16 * k)) z.now else v &&& 0xFFFF) ∧
        nextAfter pinCycle z.now ∈ (u.rfx g k).looks ∧
        (∀ h, h ≠ g.val → u.grp h = s.grp h) ∧ Only [greg g (0x404 + 16 * k)] [.groups, .resp, .taken, .lagged] s u) ∧
  (∀ (t : Nat) (g : Fin 48) (k : Fin 16) (at_ : Nat) (o : Bool) (r : List (Nat × Bool)) (s z : State), z = s.upTo t →
    (s.rfx g k).path = (at_, o) :: r →
    at_ + 5018 + s.rf (greg g (0x408 + 16 * k)) 10 0 * timeStep ≤ z.now →
    Yields (.reflexOutput t g k) s fun u =>
      (∃ r', (u.rfx g k).path = r ++ r') ∧ (u.rfx g k).pad = o ∧ (∀ h, h ≠ g.val → u.grp h = s.grp h) ∧
        Only [reg (pGrp g) oEvent] (.groups :: .pins :: eventParts) s u)

/-- The converters of an analogue block (R88, Table 3.19). Model's choices: assumption 44. -/
def Obligations.AnalogConverters : Prop :=
  (∀ (t : Nat) (a : Agent) (g : Fin 48) (j : Fin 2) (v : Word) (s z : State), z = s.upTo t → Opens a (pAna g) s →
    bit v j = true → fld (s.adcCfg g j) 9 8 = 0 → bit (s.adcCfg g j) 0 = true → s.isOn (pAna g) = true →
    (s.adc g j).busy = none →
    Yields (.adcTrig t a g v) s fun u =>
      (u.adc g j).busy = some (z.now + 2 ^ fld (s.adcCfg g j) 15 12 * ns 500) ∧ (u.adc g j).fifo = (s.adc g j).fifo ∧
        (∀ h, h ≠ g.val → u.ana h = s.ana h) ∧ Only [] [.anas, .resp] s u) ∧
  (∀ (t : Nat) (g : Fin 48) (j : Fin 2) (code : BitVec 16) (b : Nat) (s z : State), z = s.upTo t →
    (s.adc g j).busy = some b → b ≤ z.now → (s.adc g j).fifo.length < 256 → s.inSelftest (pAna g) = false →
    Yields (.adcResult t g j code) s fun u =>
      u.rd (areg g (0x050 + 4 * j)) = word (0x80000000 + code.toNat) ∧
        (u.adc g j).fifo = (s.adc g j).fifo ++ [code] ∧ u.adc g (1 - j) = s.adc g (1 - j) ∧
        u.rb (reg (pAna g) oEvent) j = true ∧ (∀ h, h ≠ g.val → u.ana h = s.ana h) ∧
        Only [areg g (0x050 + 4 * j), reg (pAna g) oEvent] (.anas :: eventParts) s u) ∧
  (∀ (t : Nat) (g : Fin 48) (j : Fin 2) (code : BitVec 16) (b : Nat) (s z : State), z = s.upTo t →
    (s.adc g j).busy = some b → b ≤ z.now → 256 ≤ (s.adc g j).fifo.length → s.inSelftest (pAna g) = false →
    Yields (.adcResult t g j code) s fun u =>
      (u.adc g j).fifo = (s.adc g j).fifo ∧ u.rb (reg (pAna g) oEvent) j = true ∧
        u.rb (reg (pAna g) oEvent) (2 + j) = true ∧
        Only [areg g (0x050 + 4 * j), reg (pAna g) oEvent] (.anas :: eventParts) s u) ∧
  (∀ (t : Nat) (g : Fin 48) (j : Fin 2) (s : State), Reads (pAna g) s →
    Yields (.adcResultRead t g j) s fun u =>
      u.rdata = (s.rd (areg g (0x050 + 4 * j))).toNat ∧
        u.rd (areg g (0x050 + 4 * j)) = setBit (s.rd (areg g (0x050 + 4 * j))) 31 false ∧
        Only [areg g (0x050 + 4 * j)] [.rdata] s u) ∧
  (∀ (t : Nat) (a : Agent) (g : Fin 48) (j : Fin 2) (c : BitVec 16) (r : List (BitVec 16)) (s : State),
    Reads (pAna g) s → (s.adc g j).fifo = c :: r →
    Yields (.adcFifoRead t a g j) s fun u =>
      u.rdata = c.toNat ∧ u.adc g j = { s.adc g j with fifo := r } ∧ u.adc g (1 - j) = s.adc g (1 - j) ∧
        (∀ h, h ≠ g.val → u.ana h = s.ana h) ∧ Only [] [.anas, .rdata] s u) ∧
  (∀ (t : Nat) (a : Agent) (g : Fin 48) (j : Fin 2) (s : State), Reads (pAna g) s → (s.adc g j).fifo = [] →
    Yields (.adcFifoRead t a g j) s fun u => u.rdata = 0 ∧ Only [] [.rdata] s u)

/-- The sources of an analogue block: DACs, the PMU and its clamp, one forcing source a bus, and what is forced (R87, R89,
R90).
Model's choices: assumptions 44, 193. -/
def Obligations.AnalogSources : Prop :=
  (∀ (t : Nat) (a : Agent) (g : Fin 48) (j : Fin 2) (v : Word) (s : State), Opens a (pAna g) s →
    Prevails a (pAna g) (0x070 + 4 * j) (s.upTo t) →
    (dacForces v = true →
      ¬(dacForces (s.rd (areg g (0x074 - 4 * j))) = true ∧ dacBus (s.rd (areg g (0x074 - 4 * j))) = dacBus v) ∧
      ¬(pmuForces (s.rd (areg g 0x080)) = true ∧ pmuBus (s.rd (areg g 0x080)) = dacBus v)) →
    Yields (.dacWrite t a g j v) s fun u =>
      u.rd (areg g (0x070 + 4 * j)) = v &&& 0x8007FFFF ∧ u.resp = .ok ∧
        (s.isOn (pAna g) = true → dacForces v = true →
          u.out = .volts g (dacBus v) (min (fld v 15 0) (s.bankCode g)) :: s.out) ∧
        Only [areg g (0x070 + 4 * j)] [.resp, .out, .taken] s u) ∧
  (∀ (t : Nat) (a : Agent) (g : Fin 48) (j : Fin 2) (v : Word) (s : State), Opens a (pAna g) s →
    Prevails a (pAna g) (0x070 + 4 * j) (s.upTo t) → dacForces v = true →
    (dacForces (s.rd (areg g (0x074 - 4 * j))) = true ∧ dacBus (s.rd (areg g (0x074 - 4 * j))) = dacBus v ∨
      pmuForces (s.rd (areg g 0x080)) = true ∧ pmuBus (s.rd (areg g 0x080)) = dacBus v) →
    Yields (.dacWrite t a g j v) s fun u =>
      u.rf (reg (pAna g) oStatus) 15 8 = Reason.conflict.code ∧ u.rb (reg (pAna g) oEvent) 5 = true ∧
        u.resp = .refused ∧ Only [reg (pAna g) oStatus, reg (pAna g) oEvent] (.resp :: .taken :: eventParts) s u) ∧
  (∀ (t : Nat) (a : Agent) (g : Fin 48) (v : Word) (s : State), Opens a (pAna g) s →
    Prevails a (pAna g) (0x080) (s.upTo t) → fld v 2 1 ≠ 3 →
    (bit v 0 = true ∨ s.rb (areg g 0x080) 0 = true → clampEmpty v (s.rd (areg g 0x088)) = false) →
    (pmuForces v = true → ∀ j, j < 2 → dacForces (s.rd (areg g (0x070 + 4 * j))) = true →
      dacBus (s.rd (areg g (0x070 + 4 * j))) ≠ pmuBus v) →
    Yields (.pmuCtrlWrite t a g v) s fun u =>
      u.rd (areg g 0x080) = v &&& 0x737 ∧ u.rb (areg g 0x090) 0 = (s.isOn (pAna g) && pmuForces v) ∧ u.resp = .ok ∧
        (s.isOn (pAna g) = true → fld v 2 1 = 1 → bit v 0 = true →
          .volts g (pmuBus v) (min (s.rf (areg g 0x084) 15 0) (s.bankCode g)) ∈ u.out) ∧
        (s.isOn (pAna g) = true → fld v 2 1 = 2 → bit v 0 = true →
          .amps g (pmuBus v) (fld v 5 4) (signed 16 (s.rf (areg g 0x084) 15 0)) ∈ u.out) ∧
        Only [areg g 0x080, areg g 0x090] [.resp, .out, .taken] s u) ∧
  (∀ (t : Nat) (a : Agent) (g : Fin 48) (v : Word) (s : State), Opens a (pAna g) s →
    Prevails a (pAna g) (0x080) (s.upTo t) → fld v 2 1 ≠ 3 → (bit v 0 = true ∨ s.rb (areg g 0x080) 0 = true) →
    clampEmpty v (s.rd (areg g 0x088)) = true →
    Yields (.pmuCtrlWrite t a g v) s fun u =>
      u.rf (reg (pAna g) oStatus) 15 8 = Reason.inconsistent.code ∧ u.resp = .refused ∧
        Only [reg (pAna g) oStatus] [.resp, .taken] s u) ∧
  (∀ (t : Nat) (a : Agent) (g : Fin 48) (v : Word) (s : State), Opens a (pAna g) s →
    Prevails a (pAna g) (0x080) (s.upTo t) → fld v 2 1 = 3 →
    Yields (.pmuCtrlWrite t a g v) s fun u =>
      u.rf (reg (pAna g) oStatus) 15 8 = Reason.range.code ∧ u.resp = .refused ∧
        Only [reg (pAna g) oStatus] [.resp, .taken] s u) ∧
  (∀ (t : Nat) (a : Agent) (g : Fin 48) (v : Word) (s : State), Opens a (pAna g) s →
    Prevails a (pAna g) (0x084) (s.upTo t) → s.forceBad g (s.rd (areg g 0x080)) v = false →
    Yields (.pmuForceWrite t a g v) s fun u =>
      u.rd (areg g 0x084) = v &&& 0xFFFF ∧ u.resp = .ok ∧ Only [areg g 0x084] [.resp, .out, .taken] s u) ∧
  (∀ (t : Nat) (a : Agent) (g : Fin 48) (v : Word) (s : State), Opens a (pAna g) s →
    Prevails a (pAna g) (0x084) (s.upTo t) → s.forceBad g (s.rd (areg g 0x080)) v = true →
    Yields (.pmuForceWrite t a g v) s fun u =>
      u.rf (reg (pAna g) oStatus) 15 8 = Reason.range.code ∧ u.resp = .refused ∧
        Only [reg (pAna g) oStatus] [.resp, .taken] s u) ∧
  (∀ (t : Nat) (a : Agent) (g : Fin 48) (v : Word) (s : State), Opens a (pAna g) s →
    Prevails a (pAna g) (0x088) (s.upTo t) →
    (s.rb (areg g 0x080) 0 = true → clampEmpty (s.rd (areg g 0x080)) v = false) →
    Yields (.pmuClampWrite t a g v) s fun u =>
      u.rd (areg g 0x088) = v ∧ u.resp = .ok ∧ Only [areg g 0x088] [.resp, .out, .taken] s u) ∧
  (∀ (t : Nat) (a : Agent) (g : Fin 48) (v : Word) (s : State), Opens a (pAna g) s →
    Prevails a (pAna g) (0x088) (s.upTo t) → s.rb (areg g 0x080) 0 = true →
    clampEmpty (s.rd (areg g 0x080)) v = true →
    Yields (.pmuClampWrite t a g v) s fun u =>
      u.rf (reg (pAna g) oStatus) 15 8 = Reason.inconsistent.code ∧ u.resp = .refused ∧
        Only [reg (pAna g) oStatus] [.resp, .taken] s u) ∧
  (∀ (t : Nat) (g : Fin 48) (s : State), s.rb (areg g 0x090) 0 = true → s.rb (areg g 0x090) 1 = false →
    s.inSelftest (pAna g) = false →
    Yields (.pmuClamp t g) s fun u =>
      u.rb (areg g 0x090) 1 = true ∧ u.rb (reg (pAna g) oEvent) 4 = true ∧
        Only [areg g 0x090, reg (pAna g) oEvent] eventParts s u) ∧
  (∀ (t : Nat) (g : Fin 48) (s : State),
    Yields (.pmuClampRelease t g) s fun u =>
      u.rd (areg g 0x090) = setBit (s.rd (areg g 0x090)) 1 false ∧ Only [areg g 0x090] [] s u)

/-- PIN_OWN, OWN_LOCK and the host's drive of its pins (R99, R102, R103, Table 4.12).
Model's choices: assumptions 10, 194. -/
def Obligations.OwnershipWrites : Prop :=
  (∀ (t : Nat) (a : Agent) (i : Fin 3072) (v m : Word) (s : State), Opens a (pGrp (i / 64)) s →
    Prevails a (pGrp (i / 64)) (0x600 + 4 * (i % 64)) (s.upTo t) → s.pinOwnCheck a i v = none →
    m = (if i.val % 2 = 1 then 0x00FFFFC0 else 0x00FFFF80) →
    Yields (.pinOwnWrite t a i v) s fun u =>
      u.rd (ownReg i) = (s.rd (ownReg i) &&& ~~~m) ||| (v &&& m) ∧ u.owner i = s.owner i ∧ u.resp = .ok ∧
        (∀ e w b, (s.pin i).brk = some e → (s.pin i).switch = some w → w.bound = some b → ∃ w', (u.pin i).switch = some w' ∧
          w'.bound = some (max (e + fld v 19 12 * pinCycle - s.breakTime i) b)) ∧
        (∀ k, k ≠ i.val → ∃ w x y, u.pin k = { s.pin k with switch := w, disagree := x, moved := y }) ∧
        ((s.pin i).brk = none → ∀ k, k ≠ i.val → (u.pin k).switch = (s.pin k).switch) ∧
        Only [ownReg i] [.pins, .resp, .taken] s u) ∧
  (∀ (t : Nat) (a : Agent) (i : Fin 3072) (v : Word) (r : Reason) (s : State), Opens a (pGrp (i / 64)) s →
    Prevails a (pGrp (i / 64)) (0x600 + 4 * (i % 64)) (s.upTo t) → s.pinOwnCheck a i v = some r →
    Yields (.pinOwnWrite t a i v) s fun u =>
      u.rf (reg (pGrp (i / 64)) oStatus) 15 8 = r.code ∧ u.resp = .refused ∧
        Only [reg (pGrp (i / 64)) oStatus] [.resp, .taken] s u) ∧
  (∀ (t : Nat) (a : Agent) (g : Fin 48) (hi : Bool) (v : Word) (s : State), privileged a = true → Opens a (pGrp g) s →
    Yields (.ownLockWrite t a g hi v) s fun u =>
      u.rd (greg g (0x720 + 4 * b2n hi)) = s.rd (greg g (0x720 + 4 * b2n hi)) ||| v ∧ u.resp = .ok ∧
        Only [greg g (0x720 + 4 * b2n hi)] [.resp] s u) ∧
  (∀ (t : Nat) (a : Agent) (g : Fin 48) (hi : Bool) (v : Word) (s : State), Opens a (pGrp g) s →
    Prevails a (pGrp g) (0x710 + 4 * b2n hi) (s.upTo t) →
    Yields (.hostOeWrite t a g hi v) s fun u =>
      u.rd (greg g (0x710 + 4 * b2n hi)) = v ∧
        (∀ i, i / 32 = 2 * g + b2n hi → s.owner i = 0xF0 → (u.pin i).oe = bit v (i % 32)) ∧
        (∀ i, i / 32 ≠ 2 * g + b2n hi ∨ s.owner i ≠ 0xF0 → ∃ x y, u.pin i = { s.pin i with disagree := x, moved := y }) ∧
        Only [greg g (0x710 + 4 * b2n hi), reg (pGrp g) oEvent] (.pins :: .resp :: .taken :: eventParts) s u) ∧
  (∀ (t : Nat) (a : Agent) (g : Fin 48) (hi : Bool) (v : Word) (s : State), Opens a (pGrp g) s →
    Prevails a (pGrp g) (0x718 + 4 * b2n hi) (s.upTo t) →
    Yields (.hostLvlWrite t a g hi v) s fun u =>
      u.rd (greg g (0x718 + 4 * b2n hi)) = v ∧
        (∀ i, i / 32 = 2 * g + b2n hi → s.owner i = 0xF0 → (u.pin i).lvl = bit v (i % 32)) ∧
        (∀ i, i / 32 ≠ 2 * g + b2n hi ∨ s.owner i ≠ 0xF0 → ∃ x y, u.pin i = { s.pin i with disagree := x, moved := y }) ∧
        Only [greg g (0x718 + 4 * b2n hi), reg (pGrp g) oEvent] (.pins :: .resp :: .taken :: eventParts) s u)

/-- Function switches: the request, its refusal, its cancellation, and the hand-over at the boundary (R103 to R107, R109,
R114, Table 4.3). Model's choices: assumptions 9, 180, 200. -/
def Obligations.FunctionSwitches : Prop :=
  (∀ (t : Nat) (a : Agent) (g : Fin 48) (v : Word) (s z : State), z = s.upTo t → Opens a (pGrp g) s →
    bit v 23 = true → bit v 22 = false → s.swMask g ≠ [] → ownerCodeOk (fld v 31 24) = true → fld v 21 20 < 2 →
    s.swRefusal a (s.swMask g) = none → (∀ i, i ∈ s.swMask g → z.swBeaten (swRank a) i = false) →
    Yields (.switchSubmit t a g v) s fun u =>
      u.rd (greg g 0x708) = v &&& 0xFF3F3F00 ∧ u.resp = .ok ∧
        (∀ i, i ∈ s.swMask g → u.rb (ownReg i) 0 = true ∧ ∃ w, (u.pin i).switch = some w ∧
          w.owner = some (fld v 31 24) ∧ (fld v 21 20 = 0 → w.mark = none ∧ w.bound = some (z.swBound (s.swMask g))) ∧
          (fld v 21 20 = 1 → w.mark = some (fld v 19 16, fld v 13 8) ∧ w.bound = none)) ∧
        (∀ i, i ∉ s.swMask g → u.pin i = s.pin i) ∧
        Only (greg g 0x708 :: greg g 0x70C :: (s.swMask g).map ownReg) [.pins, .resp] s u) ∧
  (∀ (t : Nat) (a : Agent) (g : Fin 48) (v : Word) (n : Nat) (r : Reason) (s : State), Opens a (pGrp g) s →
    bit v 23 = true → bit v 22 = false → s.swMask g ≠ [] → ownerCodeOk (fld v 31 24) = true → fld v 21 20 < 2 →
    s.swRefusal a (s.swMask g) = some (n, r) →
    Yields (.switchSubmit t a g v) s fun u =>
      u.rf (reg (pGrp g) oStatus) 15 8 = r.code ∧ u.rb (greg g 0x70C) 0 = true ∧ u.rf (greg g 0x70C) 23 16 = r.code ∧
        u.rf (greg g 0x70C) 13 8 = n ∧ u.resp = .refused ∧
        Only [greg g 0x708, greg g 0x70C, reg (pGrp g) oStatus] [.resp] s u) ∧
  (∀ (t : Nat) (a : Agent) (g : Fin 48) (v : Word) (s z : State), z = s.upTo t → Opens a (pGrp g) s →
    bit v 22 = true → bit v 23 = false → s.swMask g ≠ [] → ownerCodeOk (fld v 31 24) = true → fld v 21 20 < 2 →
    s.swRefusal a (s.swMask g) = none → (∀ i, i ∈ s.swMask g → z.swBeaten (swRank a) i = false) →
    Yields (.cancel t a g v) s fun u =>
      (∀ i, i ∈ s.swMask g → u.rb (ownReg i) 0 = false ∧
        u.pin i = { s.pin i with switch := none, swLast := some (z.now / pageCycle, swRank a) }) ∧
        (∀ i, i ∉ s.swMask g → u.pin i = s.pin i) ∧ u.resp = .ok ∧
        Only (greg g 0x708 :: greg g 0x70C :: (s.swMask g).map ownReg) [.pins, .resp] s u) ∧
  (∀ (t : Nat) (g : Fin 48) (i b c : Nat) (w : Switch) (s z : State), z = s.upTo t → i / 64 = g.val →
    (s.pin i).switch = some w → w.bound = some b → b ≤ z.now → w.owner = some c → c < 256 → s.isOn (pGrp g) = true →
    Yields (.switchBoundary t g) s fun u =>
      u.owner i = c ∧ u.rb (ownReg i) 0 = false ∧ (u.pin i).switch = none ∧
        (u.pin i).brk = some (b + s.breakTime i) ∧
        ∀ j, (∀ x e, (s.pin j).switch = some x → x.bound = some e → z.now < e) →
          u.owner j = s.owner j ∧ (u.pin j).switch = (s.pin j).switch) ∧
  (∀ (t : Nat) (i : Fin 3072) (b : Nat) (x : Bool × Bool) (s z : State), z = s.upTo t →
    (s.pin i).frozen = some (b, x) → b + 2 * pinCycle ≤ z.now →
    Yields (.newOwnerInput t i) s fun u =>
      (u.pin i).frozen = none ∧ (u.pin i).hist = (z.now, z.cmpNow i) :: (s.pin i).hist ∧ ({ u with now := z.now }).ownerInput i = z.cmpNow i ∧
        (∀ k, k ≠ i.val → u.pin k = s.pin k) ∧ Only [] [.pins] s u) ∧
  (∀ (t : Nat) (i : Fin 3072) (e : Nat) (s z : State), z = s.upTo t → (s.pin i).brk = some e → e ≤ z.now →
    (s.pin i).switch.all (fun w => w.bound.all (e < ·)) = true →
    Yields (.breakEnd t i) s fun u =>
      (u.pin i).brk = none ∧
        ((∀ k, k < 16 → s.rfxPin (i / 64) k = i → s.rfxEn (i / 64) k = false ∧ (s.rfx (i / 64) k).active = false) →
          (u.pin i).lastAt = some e) ∧ (u.pin i).analog = decide (s.rf (cfgReg i) 9 8 = 1) ∧
        (u.pin i).oe = (s.pin i).oe ∧ (u.pin i).lvl = (s.pin i).lvl ∧
        (∀ k, k ≠ i.val → ∃ l x y a c,
          u.pin k = { s.pin k with lag := l, disagree := x, moved := y, lastAt := a, cycN := c }) ∧
        Only (reg (pGrp (i / 64)) oEvent :: (List.range 16).map fun k => greg (i / 64) (0x40C + 16 * k))
          (.pins :: .groups :: eventParts) s u) ∧
  (∀ (t : Nat) (i : Fin 3072) (e b : Nat) (w : Switch) (s : State), (s.pin i).brk = some e → (s.pin i).switch = some w →
    w.bound = some b → b ≤ e → Yields (.breakEnd t i) s fun u => Only [] [] s u) ∧
  (∀ (t : Nat) (i : Fin 3072) (e : Nat) (s z : State), z = s.upTo t → (s.pin i).after = some e → e ≤ z.now →
    Yields (.parkEnd t i) s fun u =>
      (u.pin i).after = none ∧ (u.pin i).lastAt = some e ∧
        (∀ k, k ≠ i.val → ∃ x y, u.pin k = { s.pin k with disagree := x, moved := y }) ∧
        Only [] [.pins] s u) ∧
  (∀ (t : Nat) (p : Fin 512) (s : State), s.isOn p = true → s.quiet p = true → s.quietNow p = false →
    Yields (.protocolRejoin t p) s fun u =>
      u.quiet p = false ∧ u.rb (reg p oEvent) 5 = true ∧ Only [reg p 0x04C, reg p oEvent] eventParts s u)

/-- The count of event `n` after the update of the present counter cycle (R327, R328). -/
def counted (s : State) (n : Nat) : Nat :=
  if s.arrived (s.now / seqCycle) n = 0 then s.count n
  else (s.count n + s.arrived (s.now / seqCycle) n) % 2 ^ 48

/-- The registers that bringing the counters up to date writes: OVF_STAT, EVENT of COUNTER, SSTAT, the SREM and SCNT of each
preset, and EVENT of the groups whose receive paths overran. -/
def updateRegs : List Nat :=
  [creg 0x058, reg pCnt oEvent, creg 0x060] ++ ((List.range 16).flatMap fun k => [sampReg k 8, sampReg k 12]) ++
    (List.range 48).map fun g => reg (pGrp g) oEvent

/-- The parts of the state that bringing the counters up to date writes. -/
def updateParts : List Part := .pins :: .free :: eventParts

/-- Where no sampling preset is enabled, `u` counts what `w` has raised, of every event but COUNTER's own (R327, R328). -/
def CountsRaised (w u : State) : Prop :=
  (∀ k, k < 16 → w.rb (sampReg k 0) 31 = false) → ∀ n, n / 16 ≠ pCnt → u.count n = counted w n

/-- Event counters and the compatibility interface (R327 to R332, Table 11.1). `w` is the state at the instant of the
command, its receive paths up to date. Model's choices: assumptions 134, 203. -/
def Obligations.EventCounters : Prop :=
  (∀ (t : Nat) (s w : State), w = (s.upTo t).rxAll →
    Yields (.counterUpdate t) s fun u =>
      CountsRaised w u ∧
        ((∀ k, k < 16 → s.rb (sampReg k 0) 31 = false) → ∀ n, n / 16 ≠ pCnt → 0 < w.arrived (w.now / seqCycle) n →
          2 ^ 48 ≤ s.count n + w.arrived (w.now / seqCycle) n →
          u.ovfOf n = true ∧ (s.inSelftest pCnt = false → u.rb (reg pCnt oEvent) 0 = true)) ∧
        Only updateRegs updateParts s u) ∧
  (∀ (t : Nat) (a : Agent) (v : Word) (s : State), Opens a pCnt s → assigned (fld v 15 0) = true →
    Yields (.cntSelWrite t a v) s fun u =>
      u.rd (creg 0x040) = v &&& 0x8000FFFF ∧ u.resp = .ok ∧ Only [creg 0x040] [.resp] s u) ∧
  (∀ (t : Nat) (a : Agent) (v : Word) (s : State), Opens a pCnt s → assigned (fld v 15 0) = false →
    Yields (.cntSelWrite t a v) s fun u =>
      u.rf (reg pCnt oStatus) 15 8 = Reason.range.code ∧ u.resp = .refused ∧
        Only [reg pCnt oStatus] [.resp] s u) ∧
  (∀ (t : Nat) (a : Agent) (s w : State), w = (s.upTo t).rxAll → Reads pCnt s → assigned s.cntSel = true →
    Yields (.cntLoRead t a) s fun u =>
      u.rdata = u.count s.cntSel % 2 ^ 32 ∧
        tabGet 0 u.ctr.shadows (readerKey a) = u.count s.cntSel / 2 ^ 32 + b2n (u.ovfOf s.cntSel) * 2 ^ 31 ∧
        CountsRaised w u ∧ Only updateRegs (.rdata :: updateParts) s u) ∧
  (∀ (t : Nat) (a : Agent) (s : State), Reads pCnt s → assigned s.cntSel = true →
    Yields (.cntHiRead t a) s fun u =>
      u.rdata = tabGet 0 s.ctr.shadows (readerKey a) ∧
        u.cntSel = (if s.rb (creg 0x040) 31 then nextAssigned s.cntSel else s.cntSel) ∧
        Only [creg 0x040] [.rdata] s u) ∧
  (∀ (t : Nat) (a : Agent) (v : Word) (s y : State), y = ((s.upTo t).answer .ok).counterSync → Opens a pCnt s →
    assigned s.cntSel = true → bit v 31 = true →
    Yields (.cntHiWrite t a v) s fun u =>
      u.ovfOf s.cntSel = false ∧ (∀ n, n ≠ s.cntSel → u.ovfOf n = y.ovfOf n) ∧ (∀ n, u.count n = y.count n) ∧
        u.resp = .ok ∧ Only updateRegs (.resp :: updateParts) s u) ∧
  (∀ (t : Nat) (a : Agent) (v : Word) (s y : State), y = ((s.upTo t).answer .ok).countBy (max s.now t / seqCycle - 1) →
    privileged a = true → Opens a pCnt s → assigned s.cntSel = true → bit v 0 = true →
    Yields (.cntWrite t a v) s fun u =>
      u.count s.cntSel = (s.rd (creg 0x04C)).toNat + s.rf (creg 0x050) 15 0 * 2 ^ 32 ∧
        (∀ n, n ≠ s.cntSel → u.count n = y.count n) ∧ (∀ n, u.ovfOf n = y.ovfOf n) ∧ u.resp = .ok ∧
        u.ctr.raisings = y.ctr.raisings.filter (fun e =>
          !(e.2 = s.cntSel && decide (reachCycle e.1 = max s.now t / seqCycle))) ∧
        Only updateRegs (.resp :: updateParts) s u)

/-- The registers that a look at every receive path writes. -/
def rxRegs : List Nat := (List.range 48).map fun g => reg (pGrp g) oEvent

/-- Counter dumps: enable, triggers, records and the ring (R333 to R337, Table 11.4). `w` is the state at the instant of the
command, its receive paths up to date. Model's choices: assumptions 83, 133, 135, 203, 206. -/
def Obligations.CounterDumps : Prop :=
  (∀ (t : Nat) (a : Agent) (c : Fin 4) (v : Word) (s z : State), z = s.upTo t → Opens a pCnt s →
    s.rb (dumpReg c 0) 31 = false → bit v 31 = true → (s.wr (dumpReg c 0) (v &&& 0x780F0F3F)).dumpCheck c = none →
    Yields (.dumpEnable t a c v) s fun u =>
      u.rd (dumpReg c 0) = setBit (v &&& 0x780F0F3F) 31 true ∧ u.rd (dumpReg c 0x18) = 0 ∧ u.rd (dumpReg c 0x1C) = 0 ∧
        u.rd (dumpReg c 0x20) = 0 ∧ (u.dumpOf c).seq = 0 ∧ (u.dumpOf c).skips = 0 ∧
        (u.dumpOf c).nextAt = z.now + us (s.rd (dumpReg c 0x08)).toNat ∧ u.resp = .ok ∧
        (∀ e, e ≠ c.val → u.dumpOf e = s.dumpOf e) ∧
        Only [dumpReg c 0, dumpReg c 0x18, dumpReg c 0x1C, dumpReg c 0x20] [.ctr, .resp] s u) ∧
  (∀ (t : Nat) (a : Agent) (c : Fin 4) (v : Word) (r : Reason) (s : State), Opens a pCnt s →
    s.rb (dumpReg c 0) 31 = false → bit v 31 = true → (s.wr (dumpReg c 0) (v &&& 0x780F0F3F)).dumpCheck c = some r →
    Yields (.dumpEnable t a c v) s fun u =>
      u.rb (dumpReg c 0) 31 = false ∧ u.rf (reg pCnt oStatus) 15 8 = r.code ∧ u.resp = .refused ∧
        Only [dumpReg c 0, reg pCnt oStatus] [.resp] s u) ∧
  (∀ (t : Nat) (a : Agent) (c : Fin 4) (v : Word) (at_ : Nat) (s w : State), w = ((s.upTo t).answer .ok).rxAll →
    at_ = nextAfter seqCycle w.now → Opens a pCnt s → bit v 0 = true → s.rf (dumpReg c 0) 29 28 = 2 →
    s.isOn pCnt = true → s.rb (dumpReg c 0) 31 = true → (s.dumpOf c).cap = none →
    s.dumpOverlap c (at_ / seqCycle) = false → s.dumpFull c = false →
    Yields (.dtrigCapture t a c v) s fun u =>
      (∃ k, (u.dumpOf c).cap = some k ∧ k.time = at_ ∧ k.seq = ((s.dumpOf c).seq + 1) % 65536 ∧
        k.skipped = (s.dumpOf c).skips ∧ k.entries = w.dumpEntries c (at_ / seqCycle) ∧ k.trig = 2 ∧
        k.cfg = s.rd (dumpReg c 0) ∧ k.range = s.rd (dumpReg c 0x04) ∧ k.ring = s.ringBytes c ∧
        k.base = (s.rd (dumpReg c 0x0C)).toNat + (s.rd (dumpReg c 0x10)).toNat * 2 ^ 32 ∧
        k.dwr = (s.rd (dumpReg c 0x18)).toNat ∧ k.wrote = 0) ∧
        (u.dumpOf c).skips = 0 ∧ (∀ e, e ≠ c.val → u.dumpOf e = s.dumpOf e) ∧ Only rxRegs (.resp :: updateParts) s u) ∧
  (∀ (t : Nat) (a : Agent) (c : Fin 4) (v : Word) (s : State), Opens a pCnt s → bit v 0 = true →
    s.rf (dumpReg c 0) 29 28 = 2 → s.isOn pCnt = true → s.rb (dumpReg c 0) 31 = true → (s.dumpOf c).cap.isSome = true →
    Yields (.dtrigCapture t a c v) s fun u =>
      (u.dumpOf c).cap = (s.dumpOf c).cap ∧ u.rb (reg pCnt oEvent) 2 = true ∧
        u.rf (dumpReg c 0x20) 31 16 = min 65535 (s.rf (dumpReg c 0x20) 31 16 + 1) ∧
        Only (dumpReg c 0x20 :: reg pCnt oEvent :: rxRegs) (.resp :: updateParts) s u) ∧
  (∀ (t : Nat) (c : Fin 4) (at_ : Nat) (s z w : State), z = s.upTo t → w = z.rxAll → at_ = atOrAfter seqCycle z.now →
    s.rf (dumpReg c 0) 29 28 = 0 → s.rb (dumpReg c 0) 31 = true → (s.dumpOf c).nextAt ≤ z.now → s.isOn pCnt = true →
    (s.dumpOf c).cap = none → s.dumpOverlap c (at_ / seqCycle) = false → s.dumpFull c = false →
    Yields (.dumpPeriod t c) s fun u =>
      (∃ k, (u.dumpOf c).cap = some k ∧ k.time = at_ ∧ k.entries = w.dumpEntries c (at_ / seqCycle) ∧ k.trig = 0) ∧
        (u.dumpOf c).nextAt = (s.dumpOf c).nextAt + us (s.rd (dumpReg c 0x08)).toNat ∧
        (∀ e, e ≠ c.val → u.dumpOf e = s.dumpOf e) ∧ Only rxRegs updateParts s u) ∧
  (∀ (t : Nat) (c : Fin 4) (k : Capture) (s : State), (s.dumpOf c).cap = some k →
    (∀ e, e < 4 → e ≠ c.val → (s.dumpOf e).cap = none) → s.busReady = true → bit k.cfg 30 = true → s.inSelftest pCnt = false →
    Yields (.dumpDone t c) s fun u =>
      .hostWrite (k.base + k.dwr) (s.recordBytes c k) ∈ u.out ∧
        (k.stale = false → u.rd (dumpReg c 0x18) =
            word (if k.ring ≤ k.dwr + recLen k.range then 0 else k.dwr + recLen k.range) ∧
          u.rf (dumpReg c 0x20) 15 0 = k.seq % 65536) ∧
        u.rb (reg pCnt oEvent) 1 = true ∧ (u.dumpOf c).cap = none ∧
        Only [dumpReg c 0x18, dumpReg c 0x20, reg pCnt oEvent] eventParts s u) ∧
  (∀ (t : Nat) (c : Fin 4) (k : Capture) (dp b : Nat) (s : State), (s.dumpOf c).cap = some k →
    (∀ e, e < 4 → e ≠ c.val → (s.dumpOf e).cap = none) → bit k.cfg 30 = false →
    dp = fld k.cfg 19 16 → s.deepHeld dp = false → (∀ e, e ∈ s.deepLast → e.1 ≠ deepKey dp false) →
    s.inSelftest pCnt = false → b = k.base % 2 ^ 19 + k.dwr → b % 8 = 0 →
    (s.recordBytes c k).length = recLen k.range →
    Yields (.dumpDone t c) s fun u =>
      (∀ i (h : i < (s.recordBytes c k).length), 8 * k.wrote ≤ i →
          u.byte (deepBase dp + b + i) = (s.recordBytes c k)[i]) ∧
        (∀ x, x < deepBase dp + b + 8 * k.wrote ∨ deepBase dp + b + recLen k.range ≤ x → u.byte x = s.byte x) ∧
        (k.stale = false → u.rd (dumpReg c 0x18) =
            word (if k.ring ≤ k.dwr + recLen k.range then 0 else k.dwr + recLen k.range) ∧
          u.rf (dumpReg c 0x20) 15 0 = k.seq % 65536) ∧
        u.rb (reg pCnt oEvent) 1 = true ∧ (u.dumpOf c).cap = none ∧
        Only [dumpReg c 0x18, dumpReg c 0x20, reg pCnt oEvent] (.mem :: .undef :: .deepLast :: eventParts) s u) ∧
  (∀ (t : Nat) (c : Fin 4) (k : Capture) (s : State), (s.dumpOf c).cap = some k →
    (∀ e, e < 4 → e ≠ c.val → (s.dumpOf e).cap = none) → bit k.cfg 30 = false → 8 * k.wrote < recLen k.range →
    s.deepHeld (fld k.cfg 19 16) = true → s.inSelftest pCnt = false →
    Yields (.dumpDone t c) s fun u =>
      u.rb (reg pCnt oEvent) 4 = true ∧ (u.dumpOf c).cap = none ∧ Only [reg pCnt oEvent] eventParts s u) ∧
  (∀ (t : Nat) (c : Fin 4) (e : Nat) (s y : State), y = (s.upTo t).dumpSync → e < c.val →
    (y.dumpOf e).cap.isSome = true →
    Yields (.dumpDone t c) s fun u => u.ctr = y.ctr ∧ u.out = s.out) ∧
  (∀ (t : Nat) (a : Agent) (c : Fin 4) (v : Word) (s : State), Opens a pCnt s → v.toNat % s.recBytes c = 0 →
    v.toNat < s.ringBytes c →
    Yields (.drdWrite t a c v) s fun u =>
      u.rd (dumpReg c 0x1C) = v ∧ u.resp = .ok ∧ (u.dumpOf c).cap = (s.dumpOf c).cap ∧
        Only [dumpReg c 0x1C] [.ctr, .resp] s u) ∧
  (∀ (t : Nat) (a : Agent) (c : Fin 4) (v : Word) (s : State), Opens a pCnt s →
    (v.toNat % s.recBytes c ≠ 0 ∨ s.ringBytes c ≤ v.toNat) →
    Yields (.drdWrite t a c v) s fun u =>
      u.rf (reg pCnt oStatus) 15 8 = Reason.range.code ∧ u.resp = .refused ∧
        Only [reg pCnt oStatus] [.resp] s u)

/-- Sampling presets (R338). Model's choices: assumptions 9, 203, 204. -/
def Obligations.SamplingPresets : Prop :=
  (∀ (t : Nat) (a : Agent) (k : Fin 16) (v : Word) (s : State), Opens a pCnt s → s.rb (sampReg k 0) 31 = false →
    bit v 31 = true → assigned (fld v 15 0) = true → s.rd (sampReg k 4) ≠ 0 → s.isOn pCnt = true →
    Yields (.sampleEnable t a k v) s fun u =>
      u.rd (sampReg k 0) = setBit (v &&& 0xFFFF) 31 true ∧ u.rd (sampReg k 8) = s.rd (sampReg k 4) ∧
        tabGet {} u.ctr.presets k = { rem := (s.rd (sampReg k 4)).toNat } ∧ u.resp = .ok ∧
        Only (sampReg k 0 :: updateRegs) (.resp :: updateParts) s u) ∧
  (∀ (t : Nat) (a : Agent) (k : Fin 16) (v : Word) (s : State), Opens a pCnt s → s.rb (sampReg k 0) 31 = false →
    bit v 31 = true → (assigned (fld v 15 0) = false ∨ s.rd (sampReg k 4) = 0) →
    Yields (.sampleEnable t a k v) s fun u =>
      u.rb (sampReg k 0) 31 = false ∧ u.rf (reg pCnt oStatus) 15 8 = Reason.range.code ∧ u.resp = .refused ∧
        Only (sampReg k 0 :: reg pCnt oStatus :: updateRegs) (.resp :: updateParts) s u) ∧
  (∀ (t : Nat) (k : Fin 16) (h : Nat) (x : Preset) (s y : State), y = (s.upTo t).countBy (max s.now t / seqCycle - 1) →
    x = tabGet {} y.ctr.presets k →
    s.rb (sampReg k 0) 31 = true → x.hitAt = some h → h ≤ y.now → x.rem ≤ 0 → s.rd (sampReg k 4) ≠ 0 →
    s.inSelftest pCnt = false →
    Yields (.sampleHit t k) s fun u =>
      (∃ r, tabGet {} u.ctr.presets k = { rem := r } ∧ 0 < r ∧ r ≤ (s.rd (sampReg k 4)).toNat ∧
        (((s.rd (sampReg k 4)).toNat : Int) ∣ r - x.rem)) ∧
        u.rf (sampReg k 12) 15 0 = (y.rf (sampReg k 12) 15 0 + 1) % 65536 ∧ u.rd (creg 0x060) = word k ∧
        u.rb (reg pCnt oEvent) 5 = true ∧
        (∀ b, blockRow (s.rf (sampReg k 0) 15 0 / 16) = some (.seq, b) →
          u.ctr.samples = y.ctr.samples ++ [(h + 3 * seqCycle, s.rf (sampReg k 0) 15 0 / 16 - b)]) ∧
        Only updateRegs updateParts s u)

/-- Sequencer `q` can execute the instruction at PC: its word is `w`, of opcode `op`, and its condition is true (R131,
R135). No GO waits for a mark, no STEP is under way, and no group of the span refused a vector. Where the word came
undefined, it does not act beyond the sequencer (R3). -/
abbrev Executes (q op w : Nat) (s : State) : Prop :=
  s.canExec q = true ∧ (s.sq q).armed = none ∧ (s.sq q).step = false ∧ (s.sq q).spanFault = false ∧
    (∃ d, s.fetch q = .word w d ∧ (d = true → outward w = false)) ∧ iOp w = op ∧ s.condition q (iCond w) = .yes

/-- The instruction of sequencer `q` retired, `next` is executed next, and beside the sequencer's record no register but
PC and those of `ks`, and no part but those of `ps`, differs. -/
def Retires (q next : Nat) (ks : List Nat) (ps : List Part) (s u : State) : Prop :=
  u.pcOf q = next % 2 ^ 20 ∧ (u.sq q).busy = .idle ∧ u.runOf q = 2 ∧ (∀ p, p ≠ q → u.sq p = s.sq p) ∧
    Only (qreg q 0x060 :: ks) (.seqs :: .xips :: .free :: ps) s u

/-- An arithmetic or logical instruction of opcode `op`: G[A] takes `f` of G[A] and the second operand, and Z says
whether it is 0 (R134). -/
def AluDoes (c : Nat → Fin 48 → Instr) (op : Nat) (f : Word → Word → Word) : Prop :=
  ∀ (t : Nat) (q : Fin 48) (w : Nat) (r : Word) (s z : State), z = s.upTo t → Executes q op w z →
    r = f (s.gpr q (iA w)) (s.aluX q w) →
    Yields (c t q) s fun u =>
      u.gpr q (iA w) = r ∧ u.rd (qreg q 0x064) = setBit (s.rd (qreg q 0x064)) 12 (decide (r = 0)) ∧
        Retires q (s.pcOf q + 1) [qreg q (0x100 + 4 * iA w), qreg q 0x064] [] s u

/-- The instructions that the word's opcode alone selects. -/
def opcodes : List ((Nat → Fin 48 → Instr) × Nat) :=
  [(.halt, 0x00), (.nop, 0x01), (.vec, 0x02), (.vecr, 0x03), (.tset, 0x04), (.matchVec, 0x05), (.loop, 0x08),
   (.endl, 0x09), (.jmp, 0x0A), (.jc, 0x0B), (.call, 0x0C), (.ret, 0x0D), (.waitp, 0x10), (.waitt, 0x11), (.ldi, 0x18),
   (.add, 0x19), (.sub, 0x1A), (.andI, 0x1B), (.orI, 0x1C), (.xorI, 0x1D), (.shl, 0x1E), (.shr, 0x1F), (.ld, 0x20),
   (.st, 0x21), (.capt, 0x28), (.flag, 0x2A), (.event, 0x2B), (.peal, 0x2C), (.log, 0x2D), (.swapreq, 0x2E)]

/-- The arithmetic and logical instructions of a Roll sequencer, conditions, single steps, illegal words, and undefined words
that would act beyond the sequencer (R3, R134, R135, R136, R146, R157, R163, R442, Table 5.2).
Model's choices: assumptions 49, 51, 54, 66, 67. -/
def Obligations.SequencerComputation : Prop :=
  (∀ (t : Nat) (q : Fin 48) (w : Nat) (s z : State), z = s.upTo t → Executes q 0x18 w z →
    Yields (.ldi t q) s fun u =>
      u.gpr q (iA w) = word (bits w 31 0) ∧
        u.rd (qreg q 0x064) = setBit (s.rd (qreg q 0x064)) 12 (decide (word (bits w 31 0) = 0)) ∧
        Retires q (s.pcOf q + 1) [qreg q (0x100 + 4 * iA w), qreg q 0x064] [] s u) ∧
  AluDoes .add 0x19 (fun a x => a + x) ∧ AluDoes .sub 0x1A (fun a x => a - x) ∧
  AluDoes .andI 0x1B (fun a x => a &&& x) ∧ AluDoes .orI 0x1C (fun a x => a ||| x) ∧
  AluDoes .xorI 0x1D (fun a x => a ^^^ x) ∧ AluDoes .shl 0x1E (fun a x => a <<< (x.toNat % 32)) ∧
  AluDoes .shr 0x1F (fun a x => a >>> (x.toNat % 32)) ∧
  (∀ e, e ∈ opcodes → ∀ (t : Nat) (q : Fin 48) (w : Nat) (d : Bool) (s z : State), z = s.upTo t →
    z.canExec q = true → (s.sq q).armed = none → (s.sq q).step = false → (s.sq q).spanFault = false →
    z.fetch q = .word w d → iOp w = e.2 → z.condition q (iCond w) = .no →
    Yields (e.1 t q) s fun u => Retires q (s.pcOf q + 1) [] [] s u) ∧
  (∀ e, e ∈ opcodes → ∀ (t : Nat) (q : Fin 48) (w : Nat) (d : Bool) (s z : State), z = s.upTo t →
    z.canExec q = true → (s.sq q).armed = none → z.fetch q = .word w d → iOp w = e.2 →
    z.condition q (iCond w) = .wait →
    Yields (e.1 t q) s fun u => Only [] [] s u) ∧
  (∀ (t : Nat) (q : Fin 48) (w : Nat) (s z : State), z = s.upTo t → z.canExec q = true → (s.sq q).armed = none →
    (s.sq q).step = false → (s.sq q).spanFault = false → z.fetch q = .word w true →
    ∀ e, e ∈ opcodes → outward w = true → iOp w = e.2 → z.condition q (iCond w) = .yes →
    Yields (e.1 t q) s fun u =>
      Retires q (s.pcOf q + 1) (if iOp w = 0x20 then [qreg q (0x100 + 4 * iA w), qreg q 0x064] else []) [] s u) ∧
  (∀ (t : Nat) (q : Fin 48) (w : Nat) (d : Bool) (s z : State), z = s.upTo t → z.canExec q = true →
    (s.sq q).armed = none → (s.sq q).step = true → (s.sq q).spanFault = false → z.fetch q = .word w d → iOp w = 0x01 →
    z.condition q (iCond w) = .yes →
    Yields (.nop t q) s fun u =>
      u.pcOf q = (s.pcOf q + 1) % 2 ^ 20 ∧ u.runOf q = 4 ∧ u.rf (qreg q 0x05C) 11 8 = 3 ∧ (u.sq q).step = false ∧
        u.rb (reg (pSeq q) oEvent) 0 = true) ∧
  (∀ (t : Nat) (q : Fin 48) (w : Nat) (d : Bool) (s z : State), z = s.upTo t → z.canExec q = true →
    (s.sq q).armed = none → z.fetch q = .word w d →
    (opKnown (iOp w) = false ∨ z.condition q (iCond w) = .bad ∨
      iOp w = 0x29 ∧ bits w 1 0 = 3 ∧ z.condition q (iCond w) = .yes) →
    Yields (.illegal t q) s fun u =>
      u.pcOf q = s.pcOf q ∧ u.runOf q = 5 ∧ u.rf (qreg q 0x05C) 15 12 = 1 ∧ (u.sq q).busy = .idle ∧
        u.rb (reg (pSeq q) oEvent) 1 = true) ∧
  (∀ (t : Nat) (q : Fin 48) (s z : State), z = s.upTo t → z.canExec q = true → (s.sq q).armed = none →
    z.fetch q = .fault →
    Yields (.illegal t q) s fun u =>
      u.pcOf q = s.pcOf q ∧ u.runOf q = 5 ∧ u.rf (qreg q 0x05C) 15 12 = 4 ∧ u.rb (reg (pSeq q) oEvent) 1 = true) ∧
  (∀ (t : Nat) (q : Fin 48) (w : Nat) (s z : State), z = s.upTo t → Executes q 0x00 w z →
    Yields (.halt t q) s fun u =>
      u.rd (qreg q 0x06C) = word (bits w 15 0) ∧ (u.sq q).busy = .halt ∧ u.pcOf q = s.pcOf q ∧
        (∀ p, p ≠ q.val → u.sq p = s.sq p) ∧ Only [qreg q 0x06C] [.seqs, .xips, .free] s u) ∧
  (∀ (t : Nat) (q : Fin 48) (s : State), (s.sq q).busy = .halt → (s.sq q).fifo = [] → (s.sq q).spanFault = false →
    s.inSelftest (pSeq q) = false →
    Yields (.haltRetire t q) s fun u =>
      u.pcOf q = (s.pcOf q + 1) % 2 ^ 20 ∧ u.runOf q = 4 ∧ u.rf (qreg q 0x05C) 11 8 = 1 ∧ (u.sq q).busy = .idle ∧
        (u.sq q).issuing = false ∧ u.rb (reg (pSeq q) oEvent) 0 = true)


/-- The vector commands, and a vector as the issue unit hands it to the pins (R67, R134, R140 to R143, R149, R158). Model's
choices: assumptions 49, 55, 196, 197. -/
def Obligations.SequencerVectors : Prop :=
  (∀ (t : Nat) (q : Fin 48) (w : Nat) (s z : State), z = s.upTo t → Executes q 0x02 w z → (s.sq q).fifo.length < 32 →
    Yields (.vec t q) s fun u =>
      (u.sq q).fifo = (s.sq q).fifo ++ [{ addr := s.vaddr q w
                                          left := if bits w 31 16 = 0 then 65536 else bits w 31 16
                                          rep := false, tset := (s.sq q).tset, caddr := s.pcOf q
                                          capt := (s.sq q).capt }] ∧
        (u.sq q).capt = 0 ∧ Retires q (s.pcOf q + 1) [] [] s u) ∧
  (∀ (t : Nat) (q : Fin 48) (w : Nat) (s z : State), z = s.upTo t → Executes q 0x03 w z → (s.sq q).fifo.length < 32 →
    Yields (.vecr t q) s fun u =>
      (u.sq q).fifo = (s.sq q).fifo ++ [{ addr := s.vaddr q w
                                          left := if bits w 31 16 = 0 then 65536 else bits w 31 16
                                          rep := true, tset := (s.sq q).tset, caddr := s.pcOf q
                                          capt := (s.sq q).capt }] ∧
        (u.sq q).capt = 0 ∧ Retires q (s.pcOf q + 1) [] [] s u) ∧
  (∀ (t : Nat) (q : Fin 48) (w : Nat) (s z : State), z = s.upTo t → Executes q 0x02 w z → 32 ≤ (s.sq q).fifo.length →
    Yields (.vec t q) s fun u => u.sq q = s.sq q ∧ Only [] [.seqs, .xips, .free] s u) ∧
  (∀ (t : Nat) (q : Fin 48) (w n : Nat) (s z : State), z = s.upTo t → Executes q 0x05 w z → (s.sq q).fifo.length < 32 →
    n = (if bits w 35 16 = 0 then 2 ^ 20 else bits w 35 16) →
    Yields (.matchVec t q) s fun u =>
      (u.sq q).fifo = (s.sq q).fifo ++ [{ addr := s.vaddr q w, left := n, rep := true, tset := (s.sq q).tset
                                          caddr := s.pcOf q, capt := (s.sq q).capt, mat := true }] ∧
        (u.sq q).busy = .matching (s.vaddr q w) n 0 0 ∧ u.pcOf q = s.pcOf q ∧
        Only [] [.seqs, .xips, .free] s u) ∧
  (∀ (t : Nat) (q : Fin 48) (w : Nat) (s z : State), z = s.upTo t → Executes q 0x28 w z →
    Yields (.capt t q) s fun u =>
      (u.sq q).capt = Nat.lor (s.sq q).capt (bits w 7 0) ∧ Retires q (s.pcOf q + 1) [] [] s u) ∧
  (∀ (t : Nat) (q : Fin 48) (c : VCmd) (r : List VCmd) (n st : Nat) (late : Bool) (b : Option Int) (v : Vec) (s z : State),
    z = s.upTo t → (s.sq q).armed = none → s.isOn (pSeq q) = true → (s.sq q).issuing = true → (s.sq q).regrid = none →
    (∀ g, g ∈ s.spanGroups q → (s.grp g).stalled = false ∧ s.inSelftest (pGrp g) = false) →
    z.issuePoint q = some (n, late, b) → (s.sq q).fifo = c :: r → c.mat = false →
    st = (match (s.sq q).lastS with | none => n | some l => max n (l + seqCycle)) →
    v = { start := st, bpos := b, exact := !(late || decide (n < st)), dom := s.qdom q, tset := c.tset
          vid := (s.sq q).vid } →
    Yields (.vectorIssue t q) s fun u =>
      u.rd (qreg q 0x068) = s.rd (qreg q 0x068) + 1 ∧ (u.sq q).lastS = some st ∧ (u.sq q).k = (s.sq q).k + 1 ∧
        (u.sq q).vid = (s.sq q).vid + 1 ∧ (∀ i, i / 64 ∉ s.spanGroups q → u.pin i = s.pin i) ∧
        (∀ i, i / 64 ∈ s.spanGroups q → s.rf (cfgReg i) 9 8 ≠ 1 → s.vecCode c.addr i ≠ 9 →
          (u.pin i).code = s.vecCode c.addr i) ∧
        (∀ i, i / 64 ∈ s.spanGroups q → s.rf (cfgReg i) 9 8 ≠ 1 → s.vecCode c.addr i < 2 → s.owner i = 0x10 + q →
          (u.pin i).lastData = decide (s.vecCode c.addr i = 1) ∧
          (u.pin i).edges = (s.pin i).edges ++ z.edgesOf v i (0x10 + q)
            (driveActs (fld (z.tsWord i v.tset 6) 2 0) (decide (s.vecCode c.addr i = 1)))) ∧
        ∀ i, i / 64 ∈ s.spanGroups q → s.owner i ≠ 0x10 + q → isCompare (s.vecCode c.addr i) = false →
          s.vecCode c.addr i ≠ 10 → (u.pin i).edges = (s.pin i).edges) ∧
  (∀ (t : Nat) (q : Fin 48) (n : Nat) (late : Bool) (b : Option Int) (s z : State),
    z = s.upTo t → (s.sq q).armed = none → s.isOn (pSeq q) = true → (s.sq q).issuing = true →
    (∀ g, g ∈ s.spanGroups q → (s.grp g).stalled = false ∧ s.inSelftest (pGrp g) = false) →
    z.issuePoint q = some (n, late, b) → (s.sq q).fifo = [] → s.runOf q = 2 → (s.sq q).busy = .idle →
    Yields (.vectorIssue t q) s fun u =>
      u.rd (qreg q 0x068) = s.rd (qreg q 0x068) + 1 ∧ u.rb (reg (pSeq q) oEvent) 3 = true ∧
        ∀ i, i / 64 ∈ s.spanGroups q → (u.pin i).code = 7)

/-- The wait of a sequencer is over: TIMEOUT reads `tmo`, and the instruction retired. -/
def WaitOver (q : Nat) (tmo : Bool) (ks : List Nat) (ps : List Part) (s u : State) : Prop :=
  u.qflag q 11 = tmo ∧ Retires q (s.pcOf q + 1) (qreg q 0x05C :: qreg q 0x064 :: ks) ps s u

/-- Sequencer `q` waits, and nothing but its event or its timeout is missing. -/
abbrev Waits (q : Nat) (b : Busy) (s : State) : Prop :=
  (s.sq q).busy = b ∧ s.runOf q = 3 ∧ (s.sq q).step = false ∧ (s.sq q).spanFault = false

/-- WAITT, WAITP and WAITE: they begin, they end by their event, they time out (R134, R150, R151).
Model's choices: assumptions 50, 56, 57. -/
def Obligations.SequencerWaits : Prop :=
  (∀ (t : Nat) (q : Fin 48) (w n : Nat) (s z : State), z = s.upTo t → Executes q 0x11 w z →
    n = (if nbit w 32 then (s.gpr q (iB w)).toNat else bits w 31 0) → n ≠ 0 →
    Yields (.waitt t q) s fun u =>
      (u.sq q).busy = .waitT z.now n ∧ u.runOf q = 3 ∧ u.pcOf q = s.pcOf q ∧ (∀ p, p ≠ q.val → u.sq p = s.sq p) ∧
        Only [qreg q 0x05C] [.seqs, .xips, .free] s u) ∧
  (∀ (t : Nat) (q : Fin 48) (w : Nat) (s z : State), z = s.upTo t → Executes q 0x11 w z →
    (if nbit w 32 then (s.gpr q (iB w)).toNat else bits w 31 0) = 0 →
    Yields (.waitt t q) s fun u => Retires q (s.pcOf q + 1) [] [] s u) ∧
  (∀ (t : Nat) (q : Fin 48) (since n : Nat) (s z : State), z = s.upTo t → Waits q (.waitT since n) s →
    since + n * seqCycle ≤ z.now →
    Yields (.waittComplete t q) s fun u => Retires q (s.pcOf q + 1) [qreg q 0x05C] [] s u) ∧
  (∀ (t : Nat) (q : Fin 48) (since n : Nat) (s z : State), z = s.upTo t → Waits q (.waitT since n) s →
    z.now < since + n * seqCycle →
    Yields (.waittComplete t q) s fun u => Only [] [] s u) ∧
  (∀ (t : Nat) (q : Fin 48) (w : Nat) (s z : State), z = s.upTo t → Executes q 0x10 w z → nbit w 11 = false →
    z.waitpEvent z.now (bits w 3 0) (bits w 9 4) none = none →
    Yields (.waitp t q) s fun u =>
      (u.sq q).busy = .waitP z.now (bits w 3 0) (bits w 9 4) (nbit w 10) none ∧ u.runOf q = 3 ∧
        u.pcOf q = s.pcOf q ∧ Only [qreg q 0x05C] [.seqs, .xips, .free] s u) ∧
  (∀ (t : Nat) (q : Fin 48) (since d m due : Nat) (rs late : Bool) (tmo : Option Nat) (s z : State), z = s.upTo t →
    Waits q (.waitP since d m rs tmo) s → z.waitpEvent since d m tmo = some (due, late) →
    Yields (.waitp t q) s fun u =>
      (late = true → u.qflag q 9 = true) ∧ (late = false → u.qflag q 9 = s.qflag q 9) ∧
        (rs = true → s.qpos q = false → (s.sq q).fifo = [] → (u.sq q).t0 = due + ns 20 ∧ (u.sq q).k = 0) ∧
        WaitOver q false [] [] s u) ∧
  (∀ e, e ∈ [(Instr.waiteDoorbell, 0), (Instr.waiteFabric, 1), (Instr.waiteSeq, 2), (Instr.waiteFlag, 3)] →
    (∀ (t : Nat) (q : Fin 48) (w : Nat) (s z : State), z = s.upTo t → Executes q 0x12 w z → bits w 1 0 = e.2 →
      nbit w 12 = false → z.waiteEvent q z.now e.2 (bits w 7 2) (bits w 11 8) none = false →
      Yields (e.1 t q) s fun u =>
        (u.sq q).busy = .waitE z.now e.2 (bits w 7 2) (bits w 11 8) none ∧ u.runOf q = 3 ∧ u.pcOf q = s.pcOf q ∧
          Only [qreg q 0x05C] [.seqs, .xips, .free] s u) ∧
    (∀ (t : Nat) (q : Fin 48) (w : Nat) (s z : State), z = s.upTo t → Executes q 0x12 w z → bits w 1 0 = e.2 →
      nbit w 12 = false → z.waiteEvent q z.now e.2 (bits w 7 2) (bits w 11 8) none = true →
      Yields (e.1 t q) s fun u => WaitOver q false [] [] s u) ∧
    ∀ (t : Nat) (q : Fin 48) (since p l : Nat) (tmo : Option Nat) (s z : State), z = s.upTo t →
      Waits q (.waitE since e.2 p l tmo) s → z.waiteEvent q since e.2 p l tmo = true →
      Yields (e.1 t q) s fun u =>
        (e.2 = 0 → u.rb (qreg q 0x05C) 16 = false) ∧ (e.2 = 1 → u.rb (qreg q 0x05C) 17 = false) ∧
          WaitOver q false [] [] s u) ∧
  (∀ (t : Nat) (q : Fin 48) (since k p l n : Nat) (s z : State), z = s.upTo t →
    Waits q (.waitE since k p l (some n)) s → since + n * seqCycle ≤ z.now →
    z.waiteEvent q since k p l (some n) = false → s.inSelftest (pSeq q) = false →
    Yields (.waitTimeout t q) s fun u =>
      u.rb (reg (pSeq q) oEvent) 10 = true ∧ WaitOver q true [reg (pSeq q) oEvent] eventParts s u) ∧
  (∀ (t : Nat) (q : Fin 48) (since d m n : Nat) (rs : Bool) (s z : State), z = s.upTo t →
    Waits q (.waitP since d m rs (some n)) s → since + n * seqCycle ≤ z.now →
    z.waitpEvent since d m (some n) = none → s.inSelftest (pSeq q) = false →
    Yields (.waitTimeout t q) s fun u =>
      u.rb (reg (pSeq q) oEvent) 10 = true ∧ WaitOver q true [reg (pSeq q) oEvent] eventParts s u)

/-- LD and ST in the result memory, the deep memories and the register space, and their ADDR faults (R134, R152, R153, R195,
Tables 5.4, 5.8). Model's choices: assumptions 59, 60, 62. -/
def Obligations.SequencerLoadsAndStores : Prop :=
  (∀ (t : Nat) (q : Fin 48) (w ea : Nat) (s z : State), z = s.upTo t → Executes q 0x20 w z → ea = s.effAddr q w →
    bits w 26 24 = 0 → s.addrBad q 0 ea = false →
    Yields (.ld t q) s fun u =>
      u.gpr q (iA w) = s.memWord (resBase q + ea) ∧
        u.rd (qreg q 0x064) = setBit (s.rd (qreg q 0x064)) 12 (decide (s.memWord (resBase q + ea) = 0)) ∧
        Retires q (s.pcOf q + 1) [qreg q (0x100 + 4 * iA w), qreg q 0x064] [] s u) ∧
  (∀ (t : Nat) (q : Fin 48) (w ea : Nat) (s z : State), z = s.upTo t → Executes q 0x20 w z → ea = s.effAddr q w →
    bits w 26 24 = 1 → s.addrBad q 1 ea = false → s.deepHeld (ea / 2 ^ 19) = false →
    z.deepClash (ea / 2 ^ 19) (ea % 2 ^ 19 / 8) true false = none → s.deepUndef (ea / 2 ^ 19) (ea % 2 ^ 19 / 8) = false →
    Yields (.ld t q) s fun u =>
      u.gpr q (iA w) = s.memWord (deepBase (ea / 2 ^ 19) + ea % 2 ^ 19) ∧
        Retires q (s.pcOf q + 1) [qreg q (0x100 + 4 * iA w), qreg q 0x064] [.deepLast] s u) ∧
  (∀ (t : Nat) (q : Fin 48) (w ea : Nat) (s z : State), z = s.upTo t → Executes q 0x20 w z → ea = s.effAddr q w →
    bits w 26 24 = 2 → s.addrBad q 2 ea = false → s.reachesRead (.seq q) (ea / 4096) = false →
    Yields (.ld t q) s fun u =>
      u.gpr q (iA w) = 0 ∧ u.qflag q 12 = true ∧ u.rb (reg (pSeq q) oEvent) 9 = true ∧
        Retires q (s.pcOf q + 1) [qreg q (0x100 + 4 * iA w), qreg q 0x064, reg (pSeq q) oEvent] eventParts s u) ∧
  (∀ (t : Nat) (q : Fin 48) (w ea : Nat) (s z : State), z = s.upTo t → Executes q 0x21 w z → ea = s.effAddr q w →
    bits w 26 24 = 0 → s.addrBad q 0 ea = false →
    Yields (.st t q) s fun u =>
      u.memWord (resBase q + ea) = s.gpr q (iA w) ∧
        (∀ a, a < resBase q + ea ∨ resBase q + ea + 4 ≤ a → u.byte a = s.byte a) ∧
        Retires q (s.pcOf q + 1) [] [.mem, .taken] s u) ∧
  (∀ (t : Nat) (q : Fin 48) (w ea : Nat) (s z : State), z = s.upTo t → Executes q 0x21 w z → ea = s.effAddr q w →
    bits w 26 24 = 1 → s.addrBad q 1 ea = false → s.deepHeld (ea / 2 ^ 19) = false →
    z.deepClash (ea / 2 ^ 19) (ea % 2 ^ 19 / 8) true true = none →
    Yields (.st t q) s fun u =>
      u.memWord (deepBase (ea / 2 ^ 19) + ea % 2 ^ 19) = s.gpr q (iA w) ∧
        (∀ a, a < deepBase (ea / 2 ^ 19) + ea % 2 ^ 19 ∨ deepBase (ea / 2 ^ 19) + ea % 2 ^ 19 + 4 ≤ a →
          u.byte a = s.byte a) ∧
        Retires q (s.pcOf q + 1) [] [.mem, .deepLast] s u) ∧
  (∀ (t : Nat) (q : Fin 48) (w ea : Nat) (s z : State), z = s.upTo t → Executes q 0x21 w z → ea = s.effAddr q w →
    (bits w 26 24 = 2 ∧ (ea / 4096 = pSeq q ∨ ea % 4096 < 0x40 ∨ s.reachesWrite (.seq q) (ea / 4096) = false) ∨
      bits w 26 24 = 3) →
    s.addrBad q (bits w 26 24) ea = false →
    Yields (.st t q) s fun u =>
      u.rb (reg (pSeq q) oEvent) 9 = true ∧ Retires q (s.pcOf q + 1) [reg (pSeq q) oEvent] eventParts s u) ∧
  (∀ e, e ∈ [(Instr.ld, 0x20), (Instr.st, 0x21)] → ∀ (t : Nat) (q : Fin 48) (w : Nat) (s z : State), z = s.upTo t →
    Executes q e.2 w z → s.addrBad q (bits w 26 24) (s.effAddr q w) = true →
    Yields (e.1 t q) s fun u =>
      u.pcOf q = s.pcOf q ∧ u.runOf q = 5 ∧ u.rf (qreg q 0x05C) 15 12 = 5 ∧ u.rb (reg (pSeq q) oEvent) 1 = true ∧
        ∀ n, n < 16 → u.gpr q n = s.gpr q n)

/-- No operation, loops, jumps, calls and returns, SIG, FLAG and EVENT (R132, R134, R136, R147, R159, R186).
Model's choices: assumptions 49, 182. -/
def Obligations.SequencerTransfersAndSignals : Prop :=
  (∀ (t : Nat) (q : Fin 48) (w : Nat) (s z : State), z = s.upTo t → Executes q 0x01 w z →
    Yields (.nop t q) s fun u => Retires q (s.pcOf q + 1) [] [] s u) ∧
  (∀ (t : Nat) (q : Fin 48) (w : Nat) (s z : State), z = s.upTo t → Executes q 0x04 w z →
    Yields (.tset t q) s fun u => (u.sq q).tset = bits w 4 0 ∧ Retires q (s.pcOf q + 1) [] [] s u) ∧
  (∀ (t : Nat) (q : Fin 48) (w : Nat) (s z : State), z = s.upTo t → Executes q 0x08 w z →
    Yields (.loop t q) s fun u =>
      u.rd (lcReg q (bits w 25 24)) = word (if nbit w 26 then fld (s.gpr q (iB w)) 23 0 else bits w 23 0) ∧
        u.rd (lsReg q (bits w 25 24)) = word ((s.pcOf q + 1) % 2 ^ 20) ∧
        Retires q (s.pcOf q + 1) [lcReg q (bits w 25 24), lsReg q (bits w 25 24)] [] s u) ∧
  (∀ (t : Nat) (q : Fin 48) (w n : Nat) (s z : State), z = s.upTo t → Executes q 0x09 w z →
    n = (s.rf (lcReg q (bits w 1 0)) 23 0 + (2 ^ 24 - 1)) % 2 ^ 24 →
    Yields (.endl t q) s fun u =>
      u.rd (lcReg q (bits w 1 0)) = word n ∧
        Retires q (if n = 0 then s.pcOf q + 1 else s.rf (lsReg q (bits w 1 0)) 19 0) [lcReg q (bits w 1 0)] [] s u) ∧
  (∀ (t : Nat) (q : Fin 48) (w : Nat) (s z : State), z = s.upTo t → Executes q 0x0A w z →
    Yields (.jmp t q) s fun u => Retires q (bits w 19 0) [] [] s u) ∧
  (∀ (t : Nat) (q : Fin 48) (w : Nat) (s z : State), z = s.upTo t → Executes q 0x0B w z →
    Yields (.jc t q) s fun u => Retires q ((s.gpr q (iA w)).toNat + bits w 19 0) [] [] s u) ∧
  (∀ (t : Nat) (q : Fin 48) (w : Nat) (s z : State), z = s.upTo t → Executes q 0x0C w z → s.spOf q < 8 →
    Yields (.call t q) s fun u =>
      u.rd (stackReg q (s.spOf q)) = word ((s.pcOf q + 1) % 2 ^ 20) ∧ u.spOf q = s.spOf q + 1 ∧
        Retires q (bits w 19 0) [stackReg q (s.spOf q), qreg q 0x180] [] s u) ∧
  (∀ (t : Nat) (q : Fin 48) (w : Nat) (s z : State), z = s.upTo t → Executes q 0x0C w z → 8 ≤ s.spOf q →
    Yields (.call t q) s fun u =>
      u.pcOf q = s.pcOf q ∧ u.runOf q = 5 ∧ u.rf (qreg q 0x05C) 15 12 = 2 ∧ u.spOf q = s.spOf q) ∧
  (∀ (t : Nat) (q : Fin 48) (w : Nat) (s z : State), z = s.upTo t → Executes q 0x0D w z → 0 < s.spOf q →
    Yields (.ret t q) s fun u =>
      u.spOf q = s.spOf q - 1 ∧ Retires q (s.rf (stackReg q (s.spOf q - 1)) 19 0) [qreg q 0x180] [] s u) ∧
  (∀ (t : Nat) (q : Fin 48) (w : Nat) (s z : State), z = s.upTo t → Executes q 0x0D w z → s.spOf q = 0 →
    Yields (.ret t q) s fun u => u.pcOf q = s.pcOf q ∧ u.runOf q = 5 ∧ u.rf (qreg q 0x05C) 15 12 = 3) ∧
  (∀ (t : Nat) (q : Fin 48) (w : Nat) (s z : State), z = s.upTo t → Executes q 0x29 w z → bits w 1 0 = 0 →
    Yields (.sigClear t q) s fun u =>
      u.rd (qreg q 0x070) = 0xFFFFFFFF ∧ Retires q (s.pcOf q + 1) [qreg q 0x070] [] s u) ∧
  (∀ (t : Nat) (q : Fin 48) (w : Nat) (s z : State), z = s.upTo t → Executes q 0x29 w z → bits w 1 0 = 1 →
    s.judged q = true →
    Yields (.sigRead t q) s fun u =>
      u.gpr q (iA w) = s.rd (qreg q 0x070) ∧ Retires q (s.pcOf q + 1) [qreg q (0x100 + 4 * iA w)] [] s u) ∧
  (∀ (t : Nat) (q : Fin 48) (w : Nat) (s z : State), z = s.upTo t → Executes q 0x29 w z → bits w 1 0 = 2 →
    s.judged q = true →
    Yields (.sigCheck t q) s fun u =>
      u.rd (qreg q 0x064) = setBit (s.rd (qreg q 0x064)) 10 (decide (s.rd (qreg q 0x070) = s.gpr q (iA w))) ∧
        Retires q (s.pcOf q + 1) [qreg q 0x064] [] s u) ∧
  (∀ e, e ∈ [(Instr.sigRead, 1), (Instr.sigCheck, 2)] → ∀ (t : Nat) (q : Fin 48) (w : Nat) (s z : State), z = s.upTo t →
    Executes q 0x29 w z → bits w 1 0 = e.2 → s.judged q = false →
    Yields (e.1 t q) s fun u => u.sq q = s.sq q ∧ Only [] [.xips, .free] s u) ∧
  (∀ (t : Nat) (q : Fin 48) (w : Nat) (s z : State), z = s.upTo t → Executes q 0x2A w z →
    Yields (.flag t q) s fun u =>
      ((z.flagsNow q).2 = false → ∀ n, n < 4 →
        u.qflag q n = (nbit w n || (s.qflag q n && !nbit w (4 + n)) || nbit (z.flagsNow q).1 n)) ∧
        ((z.flagsNow q).2 = true → ∀ n, n < 4 → u.qflag q n = s.qflag q n) ∧
        u.qflag q 8 = (s.qflag q 8 && !nbit w 8) ∧ u.qflag q 9 = (s.qflag q 9 && !nbit w 9) ∧
        u.qflag q 10 = (s.qflag q 10 && !nbit w 10) ∧ u.qflag q 11 = (s.qflag q 11 && !nbit w 10) ∧
        u.qflag q 12 = s.qflag q 12 ∧ Retires q (s.pcOf q + 1) [qreg q 0x064] [] s u) ∧
  (∀ (t : Nat) (q : Fin 48) (w : Nat) (s z : State), z = s.upTo t → Executes q 0x2B w z →
    Yields (.event t q) s fun u =>
      u.rd (qreg q 0x07C) = setBit (s.rd (qreg q 0x07C)) (bits w 3 0) true ∧
        (∀ r n, r < 96 → n < 4 → z.regionParked r = false → s.rb (rreg r 0x058) (28 + n) = true →
          s.rf (rreg r 0x058) (6 * n + 5) (6 * n) = q →
          .evline r n (bits w 3 0) (atOrAfter (z.portT r) z.now + 2 * z.portT r) ∈ u.out) ∧
        u.rb (reg (pSeq q) oEvent) 2 = true ∧ tabGet 0 (u.sq q).pulses (bits w 3 0) = z.now ∧
        Retires q (s.pcOf q + 1) [qreg q 0x07C, reg (pSeq q) oEvent] eventParts s u)

/-- GO, STOP and STEP, DOORBELL, FLAGS, FLOG_RD and the sampling interrupt (R132, R141, R148, R150, R163, R168, Tables 5.12
and 5.13). Model's choices: assumptions 52, 53, 70. -/
def Obligations.SequencerRunControl : Prop :=
  (∀ (t : Nat) (a : Agent) (q : Fin 48) (v : Word) (s z : State), z = s.upTo t → Opens a (pSeq q) s →
    fld v 31 28 = 8 → s.isOn (pSeq q) = true → s.gong = false → (s.sq q).armed = none → s.running q = false →
    Yields (.go t a q v) s fun u =>
      u.pcOf q = s.rf (qreg q 0x054) 19 0 ∧ u.runOf q = 2 ∧ u.rf (qreg q 0x05C) 15 8 = 0 ∧ u.rd (qreg q 0x068) = 0 ∧
        u.rd (qreg q 0x070) = 0xFFFFFFFF ∧ u.spOf q = 0 ∧ u.rf (qreg q 0x064) 12 8 = 0 ∧
        u.rf (qreg q 0x064) 3 0 = s.rf (qreg q 0x064) 3 0 ∧ (u.sq q).fifo = [] ∧ (u.sq q).tset = 0 ∧
        (u.sq q).t0 = z.now + ns 40 ∧
        (u.sq q).vstart = s.posPair (qreg q 0x04C) (qreg q 0x050) ∧ (u.sq q).res = [] ∧ (u.sq q).k = 0 ∧ (u.sq q).issuing = true ∧ u.resp = .ok ∧
        (∀ p, p ≠ q.val → u.sq p = s.sq p) ∧
        Only [qreg q 0x05C, qreg q 0x060, qreg q 0x064, qreg q 0x068, qreg q 0x070, qreg q 0x180] [.seqs, .resp] s u) ∧
  (∀ (t : Nat) (a : Agent) (q : Fin 48) (v : Word) (s z : State), z = s.upTo t → Opens a (pSeq q) s →
    fld v 31 28 = 9 → s.isOn (pSeq q) = true → s.gong = false → (s.sq q).armed = none → s.running q = false →
    z.firingAfter (fld v 27 24) (fld v 21 16) z.now = none →
    Yields (.go t a q v) s fun u =>
      u.pcOf q = s.rf (qreg q 0x054) 19 0 ∧ u.runOf q = 1 ∧
        (u.sq q).armed = some (fld v 27 24, fld v 21 16, z.now) ∧ (u.sq q).issuing = false ∧ u.resp = .ok ∧
        (∀ p, p ≠ q.val → u.sq p = s.sq p)) ∧
  (∀ (t : Nat) (a : Agent) (q : Fin 48) (v : Word) (s : State), Opens a (pSeq q) s →
    fld v 31 29 = 4 → s.isOn (pSeq q) = true → s.gong = false → (s.sq q).armed = none → s.running q = true →
    Yields (.go t a q v) s fun u =>
      u.rf (reg (pSeq q) oStatus) 15 8 = Reason.conflict.code ∧ u.resp = .refused ∧
        Only [reg (pSeq q) oStatus] [.resp] s u) ∧
  (∀ (t : Nat) (a : Agent) (q : Fin 48) (v : Word) (s : State), Opens a (pSeq q) s →
    (fld v 31 29 = 4 ∨ fld v 31 29 = 1) → (s.isOn (pSeq q) = false ∨ s.gong = true) → (s.sq q).armed = none →
    Yields (.go t a q v) s fun u =>
      u.rf (reg (pSeq q) oStatus) 15 8 = Reason.dependency.code ∧ u.resp = .refused ∧
        Only [reg (pSeq q) oStatus] [.resp] s u) ∧
  (∀ (t : Nat) (a : Agent) (q : Fin 48) (v : Word) (s : State), Opens a (pSeq q) s → fld v 31 29 = 2 →
    (s.sq q).armed = none → s.running q = true →
    Yields (.stop t a q v) s fun u =>
      u.runOf q = 4 ∧ u.rf (qreg q 0x05C) 11 8 = 2 ∧ (u.sq q).fifo = [] ∧ (u.sq q).busy = .idle ∧
        (u.sq q).issuing = false ∧ u.rb (reg (pSeq q) oEvent) 0 = true ∧ u.pcOf q = s.pcOf q ∧ u.resp = .ok) ∧
  (∀ (t : Nat) (a : Agent) (q : Fin 48) (v : Word) (s : State), Opens a (pSeq q) s → fld v 31 29 = 2 →
    (s.sq q).armed = none → s.running q = false →
    Yields (.stop t a q v) s fun u => u.resp = .ok ∧ Only [] [.resp] s u) ∧
  (∀ (t : Nat) (a : Agent) (q : Fin 48) (v : Word) (s z : State), z = s.upTo t → Opens a (pSeq q) s → fld v 31 29 = 1 →
    s.isOn (pSeq q) = true → s.gong = false → (s.sq q).armed = none → (s.runOf q = 4 ∨ s.runOf q = 5) →
    Yields (.step t a q v) s fun u =>
      u.runOf q = 2 ∧ (u.sq q).step = true ∧ (u.sq q).stepAt = z.now ∧ u.pcOf q = s.pcOf q ∧ u.resp = .ok ∧
        (∀ p, p ≠ q.val → u.sq p = s.sq p) ∧ Only [qreg q 0x05C] [.seqs, .resp] s u) ∧
  (∀ (t : Nat) (a : Agent) (q : Fin 48) (v : Word) (s : State), Opens a (pSeq q) s → (s.sq q).armed = none →
    fld v 31 29 ∈ [3, 5, 6, 7] →
    Yields (.go t a q v) s fun u =>
      u.rf (reg (pSeq q) oStatus) 15 8 = Reason.range.code ∧ u.resp = .refused ∧
        Only [reg (pSeq q) oStatus] [.resp] s u) ∧
  (∀ (t : Nat) (a : Agent) (q : Fin 48) (v : Word) (s : State), Opens a (pSeq q) s → bit v 0 = true →
    Yields (.doorbell t a q v) s fun u =>
      u.rd (qreg q 0x05C) = setBit (s.rd (qreg q 0x05C)) 16 true ∧ u.resp = .ok ∧ Only [qreg q 0x05C] [.resp] s u) ∧
  (∀ (t : Nat) (a : Agent) (q : Fin 48) (v : Word) (s : State), Opens a (pSeq q) s →
    Yields (.flagsWrite t a q v) s fun u =>
      u.rd (qreg q 0x064) = setFld (s.rd (qreg q 0x064)) 3 0 (fld v 3 0) ∧ u.resp = .ok ∧
        (u.flagsNow q).2 = true ∧ (∀ p, p ≠ q.val → u.sq p = s.sq p) ∧ Only [qreg q 0x064] [.resp, .seqs] s u) ∧
  (∀ (t : Nat) (a : Agent) (q : Fin 48) (v : Word) (s : State), Opens a (pSeq q) s → fld v 16 0 % 64 = 0 →
    fld v 16 0 < s.rf (qreg q 0x084) 7 0 * 1024 →
    Yields (.flogRdWrite t a q v) s fun u =>
      u.rd (qreg q 0x08C) = word (fld v 16 0) ∧ u.resp = .ok ∧ Only [qreg q 0x08C] [.resp] s u) ∧
  (∀ (t : Nat) (a : Agent) (q : Fin 48) (v : Word) (s : State), Opens a (pSeq q) s →
    (fld v 16 0 % 64 ≠ 0 ∨ s.rf (qreg q 0x084) 7 0 * 1024 ≤ fld v 16 0) →
    Yields (.flogRdWrite t a q v) s fun u =>
      u.rf (reg (pSeq q) oStatus) 15 8 = Reason.range.code ∧ u.resp = .refused ∧
        Only [reg (pSeq q) oStatus] [.resp] s u) ∧
  (∀ (t : Nat) (q : Fin 48) (e : Nat × Nat) (s z : State), z = s.upTo t →
    s.ctr.samples.find? (fun e => e.2 = q.val && e.1 ≤ z.now) = some e → s.inSelftest (pSeq q) = false →
    (s.sq q).retiredAt.all (fun r => r / seqCycle < z.now / seqCycle) = true →
    Yields (.sampleInterrupt t q) s fun u =>
      u.rd (qreg q 0x09C) = word (s.pcOf q) ∧ u.rd (qreg q 0x0A0) = s.rd (qreg q 0x068) ∧
        u.ctr.samples = s.ctr.samples.erase e ∧ u.rb (reg (pSeq q) oEvent) 11 = true ∧
        Only [qreg q 0x09C, qreg q 0x0A0, reg (pSeq q) oEvent] eventParts s u)


/-- LOG, SWAPREQ and the execute-in-place path (R155, R160 to R162, R225). Model's choices: assumptions 63, 65, 68, 198. -/
def Obligations.SequencerStoreAccess : Prop :=
  (∀ (t : Nat) (q : Fin 48) (w : Nat) (s z : State), z = s.upTo t → Executes q 0x2D w z →
    (bits w 8 0 = 0 ∨ 503 < bits w 8 0) →
    Yields (.log t q) s fun u =>
      u.rf (qreg q 0x098) 31 24 = Reason.range.code ∧ u.rb (reg (pSeq q) oEvent) 7 = true ∧
        Retires q (s.pcOf q + 1) [qreg q 0x098, reg (pSeq q) oEvent] eventParts s u) ∧
  (∀ (t : Nat) (q : Fin 48) (w len sec wd n c : Nat) (s z : State), z = s.upTo t → Executes q 0x2D w z →
    len = bits w 8 0 → 0 < len → len ≤ 503 → s.logPlace q len = some (sec, wd, n) → (s.sq q).logRefused = false →
    (s.sq q).logClaim = some c → s.claimGranted c = true → s.dqHeld 3 < 64 →
    Yields (.log t q) s fun u =>
      (∃ d, (u.dq 3).held = (s.dq 3).held ++ [d] ∧ d.src = .seq q ∧ d.recno = n ∧ d.log.length = len + 1 ∧
        d.ws = [word opProgram, word ((96 + s.rf (qreg q 0x090) 2 0) * 2 ^ 22 + sec * 2 ^ 12 + wd), word (len + 1),
          0, 0, 0, 0, 0] ∧
        (fld (s.gpr q (iB w)) 16 0 % 8 = 0 → fld (s.gpr q (iB w)) 16 0 + 8 * len ≤ 131072 →
          d.log = s.logWords q w)) ∧
        u.rd (qreg q 0x094) =
          word (if 504 ≤ wd + len + 1 then (sec + 1) % 1024 * 2 ^ 16 else sec * 2 ^ 16 + wd + len + 1) ∧
        u.rf (qreg q 0x098) 15 8 = (s.rf (qreg q 0x098) 15 8 + 1) % 256 ∧
        Retires q (s.pcOf q + 1) [qreg q 0x094, qreg q 0x098] [.store] s u) ∧
  (∀ (t : Nat) (q : Fin 48) (w len c : Nat) (p : Nat × Nat × Nat) (s z : State), z = s.upTo t → Executes q 0x2D w z →
    len = bits w 8 0 → 0 < len → len ≤ 503 → s.logPlace q len = some p → (s.sq q).logRefused = false →
    (s.sq q).logClaim = some c → s.claimGranted c = true → 64 ≤ s.dqHeld 3 →
    Yields (.log t q) s fun u =>
      (u.sq q).busy = .log w ∧ u.pcOf q = s.pcOf q ∧ Only [qreg q 0x098] [.seqs, .xips, .free] s u) ∧
  (∀ (t : Nat) (q : Fin 48) (w : Nat) (s z : State), z = s.upTo t → Executes q 0x2E w z →
    Yields (.swapreq t q) s fun u =>
      (u.swap (bits w 2 0)).trigs = (s.swap (bits w 2 0)).trigs ++ [(z.now + ns 100, false)] ∧
        (∀ n, n ≠ bits w 2 0 → u.swap n = s.swap n) ∧ Retires q (s.pcOf q + 1) [] [.store] s u) ∧
  (∀ (t : Nat) (q : Fin 48) (bad : BitVec 8) (b l : Nat) (s : State), s.lineWanted q = some l → b = s.xipBank q →
    Yields (.xipLineRead t q bad) s fun u =>
      (u.xip b).lines = (l :: (s.xip b).lines).take 8 ∧ (u.sq q).miss = none ∧
        (∀ n, n < 8 → (8 * l + n ∈ (u.xip b).bad ↔ bad.getLsbD n = true)) ∧
        (∀ k, k ≠ b → u.xip k = s.xip k) ∧ Only [] [.xips, .seqs] s u) ∧
  (∀ (t : Nat) (q : Fin 48) (bad : BitVec 8) (s : State), s.lineWanted q = none →
    Yields (.xipLineRead t q bad) s fun u => Only [] [] s u)

/-- Requests of region `r` at port `n` to page `p` are taken and served: its ports do not park, the port has not taken one in
the present port cycle, and the page is not under self-test (R175, R178, R179). Ports: 0 pin, 1 PDU, 2 sequencer,
3 register, 4 store, 5 deep memory, 6 protocol, 8 + k user lane k. -/
abbrev Served (r n p : Nat) (s : State) : Prop :=
  s.regionParked r = false ∧ s.portBusy r n = false ∧ s.inSelftest p = false

/-- From `z` to `u`, region `r` differs only in that its port `n` has used its port cycle, and no other region differs. -/
def TookPort (r n : Nat) (z u : State) : Prop :=
  u.region r = { z.region r with took := tabPut (z.region r).took n z.now } ∧ ∀ k, k ≠ r → u.region k = z.region k

/-- The pin port and the PDU ports of a region (R61, R62, R175, R178, R179, R180 to R185). Model's choices: assumptions 73,
182, 199, 200. -/
def Obligations.FabricPinAndPositionPorts : Prop :=
  (∀ (t : Nat) (i : Fin 3072) (r : Fin 96) (oe lvl : Bool) (x1 : Word) (c : Nat) (s z : State), z = s.upTo t →
    pinRegion i = r → Served r 0 (pGrp (i / 64)) z → s.owner i = 1 → (s.pin i).queue.length < 16 →
    x1 = z.tsWord i (fld (z.cfgNow i) 4 0) 5 → c = z.now + 2 * s.portT r →
    Yields (.pinDriveRequest t r i oe lvl) s fun u =>
      u.pin i = { s.pin i with
        edges := (s.pin i).edges ++ [{ due := .time (atOrAfter pinCycle c +
                                                (if bit x1 31 && !bit x1 30 then fld x1 27 0 * timeStep else 0))
                                       act := .both oe lvl, own := 1, at_ := some c }] } ∧
        (bit x1 31 = true → bit x1 30 = true → s.inSelftest (pGrp (i / 64)) = false →
          u.rb (reg (pGrp (i / 64)) oEvent) 3 = true) ∧
        u.resp = .ok ∧ (∀ k, k ≠ i.val → u.pin k = s.pin k) ∧ TookPort r 0 z u ∧
        Only [reg (pGrp (i / 64)) oEvent] (.pins :: .regions :: .resp :: eventParts) s u) ∧
  (∀ (t : Nat) (i : Fin 3072) (r : Fin 96) (oe lvl : Bool) (s z : State), z = s.upTo t →
    pinRegion i = r → Served r 0 (pGrp (i / 64)) z → s.owner i = 1 → 16 ≤ (s.pin i).queue.length →
    Yields (.pinDriveRequest t r i oe lvl) s fun u => u.resp = .retry ∧ Only [] [.resp] s u) ∧
  (∀ (t : Nat) (i : Fin 3072) (r : Fin 96) (oe lvl : Bool) (s z : State), z = s.upTo t → pinRegion i = r →
    s.regionParked r = false → z.portBusy r 0 = true →
    Yields (.pinDriveRequest t r i oe lvl) s fun u => u.resp = .retry ∧ Only [] [.resp] s u) ∧
  (∀ (t : Nat) (i : Fin 3072) (r : Fin 96) (oe lvl : Bool) (s z : State), z = s.upTo t → pinRegion i = r →
    Served r 0 (pGrp (i / 64)) z → s.owner i ≠ 1 →
    Yields (.pinDriveRequest t r i oe lvl) s fun u =>
      u.resp = .notOwned ∧ u.rb (reg (pReg r) oEvent) 1 = true ∧ TookPort r 0 z u ∧
        Only [reg (pReg r) oEvent] (.regions :: .resp :: eventParts) s u) ∧
  (∀ (t : Nat) (i : Fin 3072) (r : Fin 96) (oe lvl : Bool) (s : State), pinRegion i = r → s.regionParked r = true →
    Yields (.pinDriveRequest t r i oe lvl) s fun u => Only [] [] s u) ∧
  (∀ (t : Nat) (i : Fin 3072) (r : Fin 96) (oe lvl : Bool) (s z : State), z = s.upTo t → pinRegion i = r →
    s.regionParked r = false → z.portBusy r 0 = false → s.inSelftest (pGrp (i / 64)) = true →
    s.rb (reg (pReg r) oCtrl) 3 = false →
    Yields (.pinDriveRequest t r i oe lvl) s fun u =>
      u.resp = .selftest ∧ u.rb (reg (pReg r) oEvent) 2 = true ∧ TookPort r 0 z u ∧
        Only [reg (pReg r) oEvent] (.regions :: .resp :: eventParts) s u) ∧
  (∀ (t : Nat) (i : Fin 3072) (r : Fin 96) (oe lvl : Bool) (s z : State), z = s.upTo t → pinRegion i = r →
    s.regionParked r = false → z.portBusy r 0 = false → s.inSelftest (pGrp (i / 64)) = true →
    s.rb (reg (pReg r) oCtrl) 3 = true → 0 < s.holdWindow r → (s.region r).holds.any (fun h => h.page = pGrp (i / 64) && h.port = 0) = false →
    Yields (.pinDriveRequest t r i oe lvl) s fun u =>
      u.region r = { s.region r with
        holds := (s.region r).holds ++ [{ port := 0, page := pGrp (i / 64), until_ := z.now + s.holdWindow r * s.portT r
                                          req := .drive i oe lvl }] } ∧
        u.resp = .retry ∧ (∀ k, k ≠ r.val → u.region k = s.region k) ∧ Only [] [.regions, .resp] s u) ∧
  (∀ (t : Nat) (i : Fin 3072) (r : Fin 96) (w : BitVec 64) (s z : State), z = s.upTo t → pinRegion i = r →
    Served r 0 (pGrp (i / 64)) z → (s.pin i).tx.length < 16 →
    Yields (.serialPush t r i w) s fun u =>
      (u.pin i).tx = (s.pin i).tx ++ [w] ∧ u.resp = .ok ∧ (∀ k, k ≠ i.val → u.pin k = s.pin k) ∧ TookPort r 0 z u ∧
        Only [] [.pins, .regions, .resp] s u) ∧
  (∀ (t : Nat) (i : Fin 3072) (r : Fin 96) (w : BitVec 64) (s z : State), z = s.upTo t → pinRegion i = r →
    Served r 0 (pGrp (i / 64)) z → 16 ≤ (s.pin i).tx.length →
    Yields (.serialPush t r i w) s fun u =>
      u.pin i = s.pin i ∧ u.rb (reg (pGrp (i / 64)) oEvent) 12 = true ∧ TookPort r 0 z u ∧
        Only [reg (pGrp (i / 64)) oEvent] (.regions :: .resp :: eventParts) s u) ∧
  (∀ (t : Nat) (i : Fin 3072) (r : Fin 96) (w : BitVec 64) (l : List (BitVec 64)) (s z : State), z = s.upTo t →
    pinRegion i = r → Served r 0 (pGrp (i / 64)) z → (s.pin i).rx = w :: l →
    Yields (.serialPop t r i) s fun u =>
      .toRegion r w.toNat ∈ u.out ∧ (∃ l', (u.pin i).rx = l ++ l') ∧ u.resp = .ok ∧
        (∀ k, k ≠ i.val → u.pin k = s.pin k) ∧ TookPort r 0 z u ∧
        Only [reg (pGrp (i / 64)) oEvent] (.pins :: .regions :: .free :: .resp :: eventParts) s u) ∧
  (∀ (t : Nat) (r : Fin 96) (d : Fin 16) (k : Fin 8) (j : Traj) (s z : State), z = s.upTo t → Served r 1 (pDom d) z →
    s.srcType d = 2 → s.isOn (pDom d) = true → s.presetRate d k ≤ maxRate → j = (s.dom d).traj →
    (s.dom d).req.all (fun x => x.cycle != z.now / pinCycle) = true →
    Yields (.presetRequest t r d k) s fun u =>
      (u.dom d).traj = (rampTraj z.now (trajAt j z.now) (trajVel j z.now) (s.presetRate d k * velUnit)
        (s.presetRamp d k)).1 ∧
      (u.dom d).req = some { cycle := z.now / pinCycle, rank := 1 + r, traj := j, ramp := (s.dom d).ramp
                             stopped := (s.dom d).stopped, event := s.rd (reg (pDom d) oEvent), applied := z.now } ∧
      u.resp = .ok ∧ (∀ e, e ≠ d.val → u.dom e = s.dom e) ∧ TookPort r 1 z u ∧
      Only [reg (pDom d) oEvent] (.doms :: .pins :: .regions :: .resp :: eventParts) s u) ∧
  (∀ (t : Nat) (r : Fin 96) (d : Fin 16) (k : Fin 8) (x : PresetReq) (s z : State), z = s.upTo t →
    Served r 1 (pDom d) z → s.srcType d = 2 → s.isOn (pDom d) = true → s.presetRate d k ≤ maxRate →
    (s.dom d).req = some x → x.cycle = z.now / pinCycle → 1 + r < x.rank →
    Yields (.presetRequest t r d k) s fun u =>
      u.rb (reg (pDom d) oEvent) 11 = true ∧ u.resp = .ok ∧ TookPort r 1 z u ∧
        Only [reg (pDom d) oEvent] (.regions :: .resp :: eventParts) s u) ∧
  (∀ (t : Nat) (r : Fin 96) (d : Fin 16) (k : Fin 8) (s z : State), z = s.upTo t → Served r 1 (pDom d) z →
    (s.srcType d ≠ 2 ∨ s.isOn (pDom d) = false ∨ maxRate < s.presetRate d k) →
    Yields (.presetRequest t r d k) s fun u =>
      u.resp = .refused ∧ u.rb (reg (pDom d) oEvent) 11 = true ∧ u.rb (reg (pReg r) oEvent) 7 = true ∧
        TookPort r 1 z u ∧
        Only [reg (pDom d) oEvent, reg (pReg r) oEvent] (.regions :: .resp :: eventParts) s u) ∧
  (∀ (t : Nat) (r : Fin 96) (n : Fin 16) (e : Nat × Nat × Bool) (s z : State), z = s.upTo t →
    s.regionParked r = false →
    (s.region r).notices.find? (fun e => e.2.1 = n.val && e.1 ≤ z.now) = some e →
    Yields (.markNotice t r n) s fun u =>
      .notice r n e.2.2 ∈ u.out ∧ (u.region r).notices = (s.region r).notices.erase e ∧
        (∀ k, k ≠ r.val → u.region k = s.region k) ∧ Only [] [.regions, .out] s u)

/-- The sequencer port and the port clock of a region (R132, R139, R174, R177, R179, R186).
Model's choices: assumptions 73, 182. -/
def Obligations.FabricSequencerPort : Prop :=
  (∀ (t : Nat) (r : Fin 96) (q : Fin 48) (m : BitVec 4) (s z : State), z = s.upTo t → Served r 2 (pSeq q) z →
    (z.flagsNow q).2 = false →
    Yields (.flagSet t r q m) s fun u =>
      u.rd (qreg q 0x064) = s.rd (qreg q 0x064) ||| m.setWidth 32 ∧ u.resp = .ok ∧
        u.flagsNow q = (Nat.lor (z.flagsNow q).1 m.toNat, false) ∧ (∃ x, u.sq q = { s.sq q with flagCyc := x }) ∧
        (∀ p, p ≠ q.val → u.sq p = s.sq p) ∧ TookPort r 2 z u ∧ Only [qreg q 0x064] [.seqs, .regions, .resp] s u) ∧
  (∀ (t : Nat) (r : Fin 96) (q : Fin 48) (m : BitVec 4) (s z : State), z = s.upTo t → Served r 2 (pSeq q) z →
    (z.flagsNow q).2 = true →
    Yields (.flagSet t r q m) s fun u => u.resp = .ok ∧ TookPort r 2 z u ∧ Only [] [.regions, .resp] s u) ∧
  (∀ (t : Nat) (r : Fin 96) (q : Fin 48) (s z : State), z = s.upTo t → Served r 2 (pSeq q) z →
    Yields (.strobe t r q) s fun u =>
      u.rd (qreg q 0x05C) = setBit (s.rd (qreg q 0x05C)) 17 true ∧ u.resp = .ok ∧ TookPort r 2 z u ∧
        Only [qreg q 0x05C] [.regions, .resp] s u) ∧
  (∀ (t : Nat) (r : Fin 96) (q : Fin 48) (g : Fin 4) (e : Fin 16384) (w : Fin 8) (v : Word) (a : Nat) (s z : State),
    z = s.upTo t → Served r 2 (pSeq q) z → q.val + g.val ∈ s.spanGroups q → s.inSelftest (pSeq (q + g)) = false →
    vecBad v = false → a = vecBase (q + g) + (32 * e + 4 * w) → z.outranked (memKey a) (1 + r) = false →
    Yields (.vectorMemoryWrite t r q g e w v) s fun u =>
      u.memWord a = v ∧ (∀ b, b < a ∨ a + 4 ≤ b → u.byte b = s.byte b) ∧ u.resp = .ok ∧ TookPort r 2 z u ∧
        (∀ n, n < 1 + r.val → u.outranked (memKey a) n = true) ∧ Only [] [.mem, .taken, .regions, .resp] s u) ∧
  (∀ (t : Nat) (r : Fin 96) (q : Fin 48) (g : Fin 4) (e : Fin 16384) (w : Fin 8) (v : Word) (s z : State),
    z = s.upTo t → Served r 2 (pSeq q) z → q.val + g.val ∈ s.spanGroups q → s.inSelftest (pSeq (q + g)) = false →
    vecBad v = false → z.outranked (memKey (vecBase (q + g) + (32 * e + 4 * w))) (1 + r) = true →
    Yields (.vectorMemoryWrite t r q g e w v) s fun u =>
      u.resp = .ok ∧ TookPort r 2 z u ∧ Only [] [.regions, .resp] s u) ∧
  (∀ (t : Nat) (r : Fin 96) (q : Fin 48) (g : Fin 4) (e : Fin 16384) (w : Fin 8) (v : Word) (s z : State),
    z = s.upTo t → Served r 2 (pSeq q) z → q.val + g.val ∈ s.spanGroups q → s.inSelftest (pSeq (q + g)) = false →
    vecBad v = true →
    Yields (.vectorMemoryWrite t r q g e w v) s fun u =>
      u.rf (reg (pSeq (q + g)) oStatus) 15 8 = Reason.range.code ∧ u.rb (reg (pSeq (q + g)) oEvent) 8 = true ∧
        u.resp = .refused ∧ u.rb (reg (pReg r) oEvent) 7 = true ∧ TookPort r 2 z u ∧
        Only [reg (pSeq (q + g)) oStatus, reg (pSeq (q + g)) oEvent, reg (pReg r) oEvent]
          (.regions :: .resp :: eventParts) s u) ∧
  (∀ (t : Nat) (r : Fin 96) (q : Fin 48) (g : Fin 4) (e : Fin 16384) (w : Fin 8) (v : Word) (s z : State),
    z = s.upTo t → Served r 2 (pSeq q) z → q.val + g.val ∉ s.spanGroups q →
    Yields (.vectorMemoryWrite t r q g e w v) s fun u =>
      u.resp = .range ∧ TookPort r 2 z u ∧ Only [] [.regions, .resp] s u) ∧
  (∀ (t : Nat) (r : Fin 96) (s z : State), z = s.upTo t → s.isOn (pReg r) = true → (s.region r).parkedAt = none →
    Yields (.clockLost t r) s fun u =>
      (u.region r).parkedAt = some z.now ∧ u.regionParked r = true ∧ u.gclkRuns (s.portClk r) = false ∧
        u.rb (rreg r 0x040) 7 = false ∧ u.rb (reg (pReg r) oEvent) 4 = true ∧
        (u.region r).holds = [] ∧ (∀ k, k ≠ r.val → u.region k = s.region k) ∧
        Only [gclkReg, rreg r 0x040, reg (pReg r) oEvent] (.pins :: .regions :: .lanes :: eventParts) s u) ∧
  (∀ (t : Nat) (r : Fin 96) (s : State), (s.region r).parkedAt.isSome = true →
    Yields (.portClockResume t r) s fun u =>
      (u.region r).parkedAt = none ∧ u.gclkRuns (s.portClk r) = true ∧ u.rb (rreg r 0x040) 7 = true ∧
        (∀ k, k ≠ r.val → u.region k = s.region k) ∧
        Only [gclkReg, rreg r 0x040] [.pins, .regions, .out, .store, .lat, .lanes] s u) ∧
  (∀ (t : Nat) (r : Fin 96) (h : Hold) (s z : State), z = s.upTo t → h ∈ (s.region r).holds → h.until_ ≤ z.now →
    s.inSelftest h.page = true → s.inSelftest (pReg r) = false →
    Yields (.holdWindowExpiry t r) s fun u =>
      (u.region r).holds = (s.region r).holds.filter (fun x => !(decide (x.until_ ≤ z.now) && s.inSelftest x.page)) ∧
        u.resp = .selftest ∧ u.rb (reg (pReg r) oEvent) 2 = true ∧ (∀ k, k ≠ r.val → u.region k = s.region k) ∧
        Only [reg (pReg r) oEvent] (.regions :: .resp :: eventParts) s u) ∧
  (∀ (t : Nat) (r : Fin 96) (s z : State), z = s.upTo t →
    (∀ h, h ∈ (s.region r).holds → z.now < h.until_ ∨ s.inSelftest h.page = false) →
    Yields (.holdWindowExpiry t r) s fun u => (∀ k, u.region k = s.region k) ∧ Only [] [.regions] s u)

/-- Deep memories and memory blocks (R191 to R197). Model's choices: assumptions 15, 71, 72. -/
def Obligations.FabricMemories : Prop :=
  (∀ (t : Nat) (row : Fin 8) (east : Bool) (k : Nat) (x : MemAccess) (w : Nat) (s z : State), z = (s.upTo t).dumpSync →
    k = deepNo row east → w = x.addr % 65536 →
    z.deepHeld k = false → x.write = true → x.be = 0xFF → z.deepClash k w true true = none →
    Yields (.deepAccess t row east none (some x)) s fun u =>
      u.deepGet k w = x.data.toNat ∧ u.deepUndef k w = false ∧
        (∀ n, n < 65536 → n ≠ w → u.deepGet k n = z.deepGet k n) ∧
        (∀ a, a < deepBase k ∨ deepBase (k + 1) ≤ a → u.byte a = z.byte a) ∧ u.resp = .ok ∧
        Only [] [.mem, .undef, .deepLast, .resp] z u) ∧
  (∀ (t : Nat) (row : Fin 8) (east : Bool) (k : Nat) (x : MemAccess) (w : Nat) (s z : State), z = (s.upTo t).dumpSync →
    k = deepNo row east → w = x.addr % 65536 →
    z.deepHeld k = false → x.write = false → z.deepClash k w true false = none → z.deepUndef k w = false →
    Yields (.deepAccess t row east none (some x)) s fun u =>
      u.rdata = z.deepGet k w ∧ u.resp = .ok ∧ Only [] [.rdata, .deepLast, .resp] z u) ∧
  (∀ (t : Nat) (row : Fin 8) (east : Bool) (k : Nat) (x : MemAccess) (w r : Nat) (s z : State), z = (s.upTo t).dumpSync →
    k = deepNo row east → w = x.addr % 65536 →
    r = z.deepOwner k → r < 96 → Served r 5 (pReg (deepHost k)) z → z.deepHeld k = false → x.write = false →
    z.deepClash k w false false = none → z.deepUndef k w = false →
    Yields (.deepAccess t row east (some x) none) s fun u =>
      .deepA r k w (z.now + 3 * z.portT r) (z.deepGet k w) false ∈ u.out ∧ u.resp = .ok ∧ TookPort r 5 z u ∧
        Only [] [.out, .deepLast, .regions, .resp] z u) ∧
  (∀ (t : Nat) (row : Fin 8) (east : Bool) (k : Nat) (x : MemAccess) (w r : Nat) (s z : State), z = (s.upTo t).dumpSync →
    k = deepNo row east → w = x.addr % 65536 →
    r = z.deepOwner k → r < 96 → Served r 5 (pReg (deepHost k)) z → z.deepHeld k = false → x.write = true →
    x.be = 0xFF → z.deepClash k w false true = none →
    Yields (.deepAccess t row east (some x) none) s fun u =>
      .deepA r k w (z.now + 3 * z.portT r) 0 false ∈ u.out ∧ u.deepGet k w = x.data.toNat ∧
        u.deepUndef k w = false ∧ (∀ n, n < 65536 → n ≠ w → u.deepGet k n = z.deepGet k n) ∧
        (∀ a, a < deepBase k ∨ deepBase (k + 1) ≤ a → u.byte a = z.byte a) ∧ u.resp = .ok ∧ TookPort r 5 z u ∧
        Only [] [.mem, .undef, .out, .deepLast, .regions, .resp] z u) ∧
  (∀ (t : Nat) (row : Fin 8) (east : Bool) (k : Nat) (x y : MemAccess) (w r : Nat) (s z : State), z = (s.upTo t).dumpSync →
    k = deepNo row east → w = x.addr % 65536 →
    w = y.addr % 65536 → r = z.deepOwner k → r < 96 → Served r 5 (pReg (deepHost k)) z → z.deepHeld k = false →
    x.write = true → y.write = true → z.deepClash k w false true = none →
    Yields (.deepAccess t row east (some x) (some y)) s fun u =>
      u.deepUndef k w = true ∧ .deepA r k w (z.now + 3 * z.portT r) 0 true ∈ u.out ∧
        u.rb (reg (pReg (deepHost k)) 0x300) 0 = true ∧ u.rd (reg (pReg (deepHost k)) 0x304) = word w ∧
        u.rb (reg (pReg (deepHost k)) oEvent) 5 = true ∧
        (∀ a, a < deepBase k + 8 * w ∨ deepBase k + 8 * w + 8 ≤ a → u.byte a = z.byte a) ∧
        Only [reg (pReg (deepHost k)) 0x300, reg (pReg (deepHost k)) 0x304, reg (pReg (deepHost k)) oEvent]
          (.mem :: .undef :: .deepLast :: .regions :: .resp :: eventParts) z u) ∧
  (∀ (t : Nat) (row : Fin 8) (east : Bool) (k : Nat) (x : MemAccess) (w : Nat) (y : DeepAcc) (s z : State), z = (s.upTo t).dumpSync →
    k = deepNo row east → w = x.addr % 65536 →
    z.deepHeld k = false → x.write = false → z.deepClash k w true false = some y →
    Yields (.deepAccess t row east none (some x)) s fun u =>
      u.rdata = z.freeNat % 2 ^ 64 ∧ u.rb (reg (pReg (deepHost k)) 0x300) 0 = true ∧
        u.rd (reg (pReg (deepHost k)) 0x304) = word w ∧ u.resp = .ok ∧
        Only [reg (pReg (deepHost k)) 0x300, reg (pReg (deepHost k)) 0x304, reg (pReg (deepHost k)) 0x308,
          reg (pReg (deepHost k)) oEvent] (.rdata :: .free :: .deepLast :: .resp :: eventParts) z u) ∧
  (∀ (t : Nat) (row : Fin 8) (east : Bool) (k : Nat) (x : MemAccess) (s z : State), z = (s.upTo t).dumpSync →
    k = deepNo row east → z.deepHeld k = true →
    Yields (.deepAccess t row east none (some x)) s fun u =>
      u.rdata = 0 ∧ u.resp = .selftest ∧ Only [] [.rdata, .resp] z u) ∧
  (∀ (t : Nat) (r : Fin 96) (b : Fin 24) (par : Bool) (x : BlockAccess) (s : State), s.isOn (pReg r) = true →
    s.rb (rreg r 0x040) 6 = false → x.write = true → 3 ≤ x.shape.val →
    Yields (.memoryBlockAccess t r b par (some x) none) s fun u =>
      (∀ e, e ∈ (blkCover x.shape x.addr b).zipIdx → x.be.getLsbD e.2 = true →
        u.blkByte r e.1.1 e.1.2 = (bits x.data.toNat (8 * e.2 + 7) (8 * e.2),
          if par then parity8 (bits x.data.toNat (8 * e.2 + 7) (8 * e.2)) else x.ninth.getLsbD e.2)) ∧
        (∀ c i, c < 24 → i < 4096 → (∀ e, e ∈ (blkCover x.shape x.addr b).zipIdx → e.1 ≠ (c, i)) →
          u.blkByte r c i = s.blkByte r c i) ∧
        (∃ d, .toRegion r d ∈ u.out ∧ ∀ e, e ∈ (blkCover x.shape x.addr b).zipIdx →
          (bits d (8 * e.2 + 7) (8 * e.2), nbit d (64 + e.2)) = u.blkByte r e.1.1 e.1.2) ∧
        (par = false → Only [] [.blocks, .out] s u) ∧
        Only [rreg r 0x064, reg (pReg r) oEvent] (.blocks :: eventParts) s u) ∧
  (∀ (t : Nat) (r : Fin 96) (b : Fin 24) (x : BlockAccess) (s : State), s.isOn (pReg r) = true →
    s.rb (rreg r 0x040) 6 = false → x.write = false → x.shape.val = 5 →
    Yields (.memoryBlockAccess t r b false (some x) none) s fun u =>
      (∃ d, .toRegion r d ∈ u.out ∧ ∀ i, i < 4 →
        (bits d (8 * i + 7) (8 * i), nbit d (64 + i)) = s.blkByte r b ((x.addr * 4 + i) % 4096)) ∧
        Only [] [.out] s u) ∧
  (∀ (t : Nat) (r : Fin 96) (b : Fin 24) (par : Bool) (pa pb : Option BlockAccess) (s : State),
    (s.isOn (pReg r) = false ∨ s.rb (rreg r 0x040) 6 = true) →
    Yields (.memoryBlockAccess t r b par pa pb) s fun u => Only [] [] s u)

/-- No request of region `r` that was held for a page waits any longer than the page's self-test (R179). -/
abbrev NoneReleased (r : Nat) (s : State) : Prop := ∀ h, h ∈ (s.region r).holds → s.inSelftest h.page = true

/-- The register port of a region and the TAP (R122, R178, R187, R188, R377). Model's choices: assumptions 46, 47, 74. -/
def Obligations.RegisterPortAndTap : Prop :=
  (∀ (t : Nat) (r : Fin 96) (wr cnt : Bool) (addr : Nat) (v : Word) (s z : State), z = s.upTo t →
    (s.region r).accs.length < 4 → Served r 3 (if cnt then pCnt else addr / 4096) z →
    Yields (.registerPortAccess t r wr cnt addr v) s fun u =>
      (u.region r).accs = (s.region r).accs ++ [{ write := wr, counter := cnt, addr := addr, data := v, taken := z.now
                                                  deny := s.portDenies r wr cnt addr }] ∧
        u.resp = .ok ∧ (∀ k, k ≠ r.val → u.region k = s.region k) ∧ Only [] [.regions, .resp] s u) ∧
  (∀ (t : Nat) (r : Fin 96) (wr cnt : Bool) (addr : Nat) (v : Word) (s : State), 4 ≤ (s.region r).accs.length →
    Yields (.registerPortAccess t r wr cnt addr v) s fun u => u.resp = .retry ∧ Only [] [.resp] s u) ∧
  (∀ (t : Nat) (r : Fin 96) (x : PortAcc) (l : List PortAcc) (s : State), (s.region r).accs = x :: l → x.deny = true →
    s.inSelftest (pReg r) = false → NoneReleased r s →
    Yields (.registerPortResponse t r) s fun u =>
      (u.region r).accs = l ∧ u.resp = .denied ∧ u.rdata = 0 ∧ u.rd (rreg r 0x060) = denyWord x ∧
        u.rb (reg (pReg r) oEvent) 0 = true ∧
        (s.regionParked r = false ∨ x.write = true → .answer (.region r) false 0 ∈ u.out) ∧
        Only [rreg r 0x060, reg (pReg r) oEvent] (.regions :: .rdata :: .resp :: eventParts) s u) ∧
  (∀ (t : Nat) (r : Fin 96) (x : PortAcc) (l : List PortAcc) (s : State), (s.region r).accs = x :: l →
    x.deny = false → x.counter = true → assigned (cntEvent x.addr) = true → cntHigh x.addr = true →
    s.regionParked r = false → NoneReleased r s →
    Yields (.registerPortResponse t r) s fun u =>
      (u.region r).accs = l ∧ u.resp = .ok ∧ u.rdata = tabGet 0 s.ctr.shadows (readerKey (.region r)) ∧
        .answer (.region r) true u.rdata ∈ u.out ∧ Only [] [.regions, .rdata, .resp, .out] s u) ∧
  (∀ (t : Nat) (r : Fin 96) (x : PortAcc) (l : List PortAcc) (s : State), (s.region r).accs = x :: l →
    x.deny = false → x.write = false → x.counter = true → assigned (cntEvent x.addr) = true → cntHigh x.addr = true →
    s.regionParked r = true →
    Yields (.registerPortResponse t r) s fun u =>
      (u.region r).accs = l ∧ (∀ k, k ≠ r.val → u.region k = s.region k) ∧ Only [] [.regions, .rdata, .resp] s u) ∧
  (∀ (t : Nat) (r : Fin 96) (x : PortAcc) (l : List PortAcc) (s z : State), z = s.upTo t →
    (s.region r).accs = x :: l → x.deny = false → x.counter = true → assigned (cntEvent x.addr) = true →
    cntHigh x.addr = false → s.regionParked r = false → NoneReleased r s →
    Yields (.registerPortResponse t r) s fun u =>
      (u.region r).accs = l ∧ u.resp = .ok ∧ u.rdata = counted z (cntEvent x.addr) % 2 ^ 32 ∧
        .answer (.region r) true u.rdata ∈ u.out ∧
        Only updateRegs (.regions :: .rdata :: .resp :: eventParts) s u) ∧
  (∀ (t : Nat) (ir : BitVec 8) (s : State), s.tapLive = true →
    Yields (.jtagUpdateIr t ir) s fun u =>
      u.jtag.ir = ir.toNat ∧ u.jtag.cells = s.jtag.cells ∧ Only [] [.jtag, .pins] s u) ∧
  (∀ (t : Nat) (s : State), s.tapLive = true →
    Yields (.testLogicReset t) s fun u => u.jtag.ir = 1 ∧ Only [] [.jtag, .pins] s u) ∧
  (∀ (t : Nat) (ir : BitVec 8) (s : State), s.tapLive = false →
    Yields (.jtagUpdateIr t ir) s fun u => Only [] [] s u) ∧
  (∀ (t dr : Nat) (s : State), s.tapLive = true → s.jtag.ir = 0x10 → s.lifeDenies .jtag = false → nbit dr 47 = false →
    Yields (.lcAccess t dr) s fun u => .tdo s.jtag.data ∈ u.out ∧ u.jtag.data = u.rdata ∧ u.jtag.ir = s.jtag.ir) ∧
  (∀ (t dr : Nat) (s : State), (s.tapLive = false ∨ s.jtag.ir ≠ 0x10 ∨ s.lifeDenies .jtag = true) →
    Yields (.lcAccess t dr) s fun u => Only [] [] s u) ∧
  (∀ (t : Nat) (bits : List (Bool × Bool)) (s : State), s.tapLive = true → s.jtag.ir ∈ [0x02, 0x03, 0x05] →
    Yields (.boundaryRegisterUpdate t bits) s fun u =>
      u.jtag.cells = bits.take 3072 ∧ u.jtag.ir = s.jtag.ir ∧ Only [] [.jtag, .pins] s u)

/-- The ledger grants the claim it was asked for; it grants the claim or queues it. -/
def granted : ClaimAns → Bool
  | .granted _ => true
  | _ => false
def taken : ClaimAns → Bool
  | .refused _ => false
  | _ => true

/-- Descriptor `x` heads queue `q`, before `r`, and the queue dispatches next (R209). -/
abbrev Front (q : Nat) (x : Desc) (r : List Desc) (s : State) : Prop :=
  (s.dq q).held = x :: r ∧ s.chosen q = true

/-- The completion FIFO of queue `q` has a place for the record of `x` (R208), and no descriptor is under way that would keep its
completion waiting, or that waits for one (R209). -/
abbrev Clear (q : Nat) (x : Desc) (s : State) : Prop :=
  s.fifoFull q x = false ∧ ∀ j, j ∈ (s.dq q).running → j.ended = none ∧ (x.op = opNop ∨ j.desc.op = opNop ∨ j.desc.bank ≠ x.bank)

/-- Job `j` is the oldest of queue `q` in bank `b` that `want` accepts and that has not ended, and neither an earlier descriptor of
the queue nor a full completion FIFO keeps its completion waiting (R208, R209). -/
abbrev Runs (want : Job → Bool) (q b : Nat) (j : Job) (s : State) : Prop :=
  (s.dq q).running.find? (fun k => want k && k.desc.bank = b && k.ended.isNone) = some j ∧ s.behind q j = false

/-- The head of queue `q` has left it, before `r`; records of the steward may have joined queue 0 behind. -/
abbrev Leaves (q : Nat) (r : List Desc) (u : State) : Prop :=
  (u.dq q).held.take r.length = r ∧ (q ≠ 0 → (u.dq q).held = r)

/-- The first failing check of a descriptor at its dispatch, none if it passes (Table 7.8). -/
def checks (q : Nat) (x : Desc) (s : State) : Option (Nat × Nat) :=
  s.descCheck q x (if x.isLog then some x.log else none)

/-- A host descriptor has its completion record, with this status (Table 7.9). -/
def Answered (q : Nat) (x : Desc) (status : Nat) (u : State) : Prop :=
  x.src = .host → ∃ rec, (0, rec) ∈ (u.dq q).comps ∧ rec.headD 0 = word (x.tag * 65536 + x.op * 256 + 128 + status)

/-- Submission to the queues of the store, the head's dispatch, and the records the host reads (R208, R209, R211, R216,
R177, R234). Model's choices: assumptions 76, 164, 184, 185. -/
def Obligations.StoreQueues : Prop :=
  (∀ (t : Nat) (a : Agent) (v : Word) (s : State), Opens a pStore s → bit v 0 = true → s.pwr.phase = .user →
    s.dqHeld 1 < 64 →
    Yields (.hsubmit t a v) s fun u =>
      (u.dq 1).held = (s.dq 1).held ++
        [{ src := .host, ws := (List.range 8).map fun i => s.rd (reg pStore (0x060 + 4 * i)) }] ∧
        u.resp = .ok ∧ (∀ k, k ≠ 1 → u.dq k = s.dq k) ∧ Only [] [.store, .resp] s u) ∧
  (∀ (t : Nat) (a : Agent) (v : Word) (s : State), Opens a pStore s → bit v 0 = true → s.pwr.phase = .user →
    64 ≤ s.dqHeld 1 →
    Yields (.hsubmit t a v) s fun u =>
      u.rb (reg pStore oEvent) 2 = true ∧ Only [reg pStore oEvent] (.resp :: eventParts) s u) ∧
  (∀ (t : Nat) (r : Fin 96) (ws : List Word) (c : Nat) (s z : State), z = s.upTo t → c = z.now / pageCycle →
    s.regionParked r = false → z.portBusy r 4 = false → s.dqHeld 2 < 64 → s.store.portLast.all (fun e => e.1 != c) = true →
    (∀ e, e ∈ s.store.portWait → c ≤ e.2 + 1 → e.1 ≠ r → s.portTurn r ≤ s.portTurn e.1) →
    Yields (.storePortSubmit t r ws) s fun u =>
      (u.dq 2).held = (s.dq 2).held ++ [{ src := .region r, ws := ws }] ∧ u.resp = .ok ∧
        (∀ k, k ≠ 2 → u.dq k = s.dq k) ∧ u.store.portLast = some (c, r.val) ∧ TookPort r 4 z u ∧
        Only [] [.store, .regions, .resp] s u) ∧
  (∀ (t : Nat) (r : Fin 96) (ws : List Word) (e : Nat × Nat) (s z : State), z = s.upTo t →
    s.regionParked r = false → s.store.portLast = some e → e.1 = z.now / pageCycle →
    Yields (.storePortSubmit t r ws) s fun u =>
      u.resp = .retry ∧ (∀ k, u.dq k = s.dq k) ∧ Only [] [.store, .resp] s u) ∧
  (∀ (t : Nat) (r : Fin 96) (ws : List Word) (s : State), s.regionParked r = false → 64 ≤ s.dqHeld 2 →
    Yields (.storePortSubmit t r ws) s fun u => u.resp = .retry ∧ Only [] [.resp] s u) ∧
  (∀ (t : Nat) (q : Fin 4) (x : Desc) (r : List Desc) (s : State), Front q x r s → x.op = opNop →
    Clear q x s → checks q x s = none →
    Yields (.storeNop t q) s fun u =>
      (u.dq q).held = r ∧ Answered q x stOk u ∧
        (x.src = .host → Only [reg pStore oEvent] (.store :: .free :: eventParts) s u)) ∧
  (∀ (t : Nat) (q : Fin 4) (x : Desc) (r : List Desc) (s : State), Front q x r s → opListed 1 x.op = false →
    Clear q x s → x.src = .host →
    Yields (.storeNop t q) s fun u =>
      (u.dq q).held = r ∧ Answered q x stBad u ∧ (s.inSelftest pStore = false → u.rb (reg pStore oEvent) 1 = true) ∧
        Only [reg pStore oEvent] (.store :: .free :: eventParts) s u) ∧
  (∀ (t : Nat) (q : Fin 4) (x : Desc) (r : List Desc) (s : State), Front q x r s → x.op = opInfo →
    Clear q x s → checks q x s = none →
    Yields (.sectorInfo t q) s fun u =>
      (u.dq q).held = r ∧ Answered q x stOk u ∧
        (x.src = .host → Only [reg pStore oEvent] (.store :: .free :: eventParts) s u)) ∧
  (∀ e, e ∈ [(Instr.storeNop : Nat → Fin 4 → Instr), .read, .program, .erase, .suspend, .resume, .sectorInfo, .marginRead,
      .rawRead] → ∀ (t : Nat) (q : Fin 4) (s : State),
    (s.chosen q = false ∨ q.val ≠ 0 ∧ s.headReady 0 = true) →
    Yields (e t q) s fun u => Only [] [] s u) ∧
  (∀ (t : Nat) (a : Agent) (k : Nat) (c : List Word) (r : List (Nat × List Word)) (s : State), Reads pStore s →
    (s.dq 1).comps = (k, c) :: r → (∀ j, j ∈ (s.dq 1).running → j.ended = none) →
    Yields (.hcomp0Read t a) s fun u =>
      u.rdata = (c.getD 0 0).toNat ∧ (∀ n, n < 3 → u.rd (reg pStore (0x094 + 4 * n)) = c.getD (n + 1) 0) ∧
        (u.dq 1).comps = r ∧ (∀ k, k ≠ 1 → u.dq k = s.dq k) ∧
        Only [reg pStore 0x094, reg pStore 0x098, reg pStore 0x09C] [.store, .rdata] s u) ∧
  (∀ (t : Nat) (a : Agent) (k : Nat) (c : List Word) (r : List (Nat × List Word)) (s : State), Reads pStore s →
    (s.dq 1).comps = (k, c) :: r →
    Yields (.hcomp0Read t a) s fun u =>
      u.rdata = (c.getD 0 0).toNat ∧ (∀ n, n < 3 → u.rd (reg pStore (0x094 + 4 * n)) = c.getD (n + 1) 0) ∧
        (u.dq 1).comps.take r.length = r) ∧
  (∀ (t : Nat) (a : Agent) (s : State), Reads pStore s → (s.dq 1).comps = [] →
    Yields (.hcomp0Read t a) s fun u => u.rdata = 0 ∧ Only [] [.rdata] s u) ∧
  (∀ e, e ∈ [(Instr.resetHost, 1), (Instr.resetFabric, 2), (Instr.resetSequencer, 3)] →
    ∀ (t : Nat) (a : Agent) (v : Word) (s : State), Opens a pStore s → bit v e.2 = true →
    Yields (e.1 t a v) s fun u =>
      (u.dq e.2).held = [] ∧ (∀ j, j ∈ (u.dq e.2).running → j.ended.isSome = true) ∧
        ((s.dq e.2).comps.length + (s.dq e.2).held.length + (s.dq e.2).running.length ≤ 64 → (u.dq e.2).running = []))

/-- A PROGRAM that pulses flash; an ERASE or a RESUME that does. -/
def programs (j : Job) : Bool := j.desc.op = opProgram && !j.fetch && j.stopped.isNone
def erases (j : Job) : Bool := (j.desc.op = opErase || j.desc.op = opResume) && j.stopped.isNone

/-- Reading, programming, erasing and suspending (R217 to R228, Table 7.8).
Model's choices: assumptions 77, 78, 79, 183, 184. -/
def Obligations.StoreOperations : Prop :=
  (∀ e, e ∈ [(Instr.read, opRead), (Instr.marginRead, opMargin), (Instr.rawRead, opRaw)] →
    (∀ (t : Nat) (q : Fin 4) (x : Desc) (r : List Desc) (s z : State), z = s.upTo t → Front q x r s → x.op = e.2 →
      checks q x s = none →
      Yields (e.1 t q) s fun u =>
        u.dq q = { s.dq q with held := r
                               running := (s.dq q).running ++ [{ desc := x, since := z.now, data := x.log
                                                                 limits := s.rd (reg pStore 0x800) }] } ∧
          (∀ k, k ≠ q.val → u.dq k = s.dq k) ∧ Only [] [.store] s u) ∧
    ∀ (t : Nat) (q : Fin 4) (x : Desc) (r : List Desc) (st w : Nat) (s : State), Front q x r s → x.op = e.2 →
      Clear q x s → checks q x s = some (st, w) →
      Yields (e.1 t q) s fun u => (u.dq q).held = r ∧ Answered q x st u) ∧
  (∀ (t : Nat) (q : Fin 4) (b : Fin 128) (corr : Nat) (j : Job) (a : Nat) (f : Nat → FlashWord) (d : Nat → BitVec 64)
      (s : State),
    Runs (fun j => isRead j.desc.op) q b j s → j.desc.op = opRead →
    (s.sec b j.desc.sector).state = .normal → s.sectorOpen b j.desc.sector = false → s.bufferHeld j.desc = false →
    j.desc.space = 3 → (∀ i, f i = s.flashWord b j.desc.sector (j.desc.first + i)) →
    (∀ i, d i = if flagWord b (j.desc.first + i) then (flagRead (f i).data).1 else (f i).data) →
    (∀ i, i < j.desc.count → (f i).undef = false) → a = resBase j.desc.hi + j.desc.lo →
    Yields (.readComplete t q b corr []) s fun u =>
      (∀ i, i < j.desc.count →
        u.memWord (a + 8 * i) = (d i).extractLsb' 0 32 ∧ u.memWord (a + 8 * i + 4) = (d i).extractLsb' 32 32) ∧
        (∀ k, k < a ∨ a + 8 * j.desc.count ≤ k → u.byte k = s.byte k) ∧ Answered q j.desc stOk u) ∧
  (∀ (t : Nat) (q : Fin 4) (b : Fin 128) (corr : Nat) (j : Job) (a : Nat) (f : Nat → FlashWord) (s : State),
    Runs (fun j => isRead j.desc.op) q b j s → j.desc.op = opRaw →
    (s.sec b j.desc.sector).state = .normal → s.bufferHeld j.desc = false → j.desc.space = 3 →
    (∀ i, f i = s.flashWord b j.desc.sector (j.desc.first + i)) → a = resBase j.desc.hi + j.desc.lo →
    Yields (.readComplete t q b corr []) s fun u =>
      (∀ i, i < j.desc.count → (f i).undef = false →
        u.memWord (a + 16 * i) = (f i).data.extractLsb' 0 32 ∧
        u.memWord (a + 16 * i + 4) = (f i).data.extractLsb' 32 32 ∧
        (flagWord b (j.desc.first + i) = false → u.byte (a + 16 * i + 15) = (f i).check)) ∧
        (∀ k, k < a ∨ a + 16 * j.desc.count ≤ k → u.byte k = s.byte k)) ∧
  (∀ (t : Nat) (q : Fin 4) (b : Fin 128) (corr : Nat) (j : Job) (s : State),
    (s.dq q).running.find? (fun k => isRead k.desc.op && k.desc.bank = b.val && k.ended.isNone) = some j →
    s.behind q j = true →
    Yields (.readComplete t q b corr []) s fun u =>
      (∀ k, (u.dq k).comps = (s.dq k).comps ∧ (u.dq k).held = (s.dq k).held)) ∧
  (∀ (t : Nat) (q : Fin 4) (x : Desc) (r : List Desc) (s : State), Front q x r s → x.op = opProgram →
    x.src = .host → x.space = 3 →
    s.descCheck q x (some (s.bufferWords x).1) = none →
    Yields (.program t q) s fun u =>
      (u.dq q).held = r ∧ (∃ j, j ∈ (u.dq q).running ∧ j.desc = x ∧ j.data = (s.bufferWords x).1 ∧ j.fetch = false) ∧
        (u.sec x.bank x.sector).state = .programming ∧ Only [] [.store, .xips, .free] s u) ∧
  (∀ (t : Nat) (x : Desc) (r : List Desc) (s : State), Front 0 x r s → x.op = opProgram → x.src = .steward →
    Yields (.program t 0) s fun u =>
      (u.dq 0).held = r ∧ (∃ j, j ∈ (u.dq 0).running ∧ j.desc = x ∧ j.data = [s.stewardWord x] ∧ j.fetch = false) ∧
        (u.sec x.bank x.sector).state = .programming ∧ Only [] [.store, .xips, .free] s u) ∧
  (∀ (t : Nat) (q : Fin 4) (x : Desc) (r : List Desc) (s z : State), z = s.upTo t → Front q x r s → x.op = opProgram →
    x.src = .host → x.space = 1 → x.first + x.count ≤ 504 → checks q x s = none →
    Yields (.program t q) s fun u =>
      (u.dq q).held = r ∧ .hostRead (x.hi * 2 ^ 32 + x.lo) (bufLen x) ∈ u.out ∧
        { desc := x, since := z.now, data := x.log, fetch := true, limits := s.rd (reg pStore 0x800) } ∈
          (u.dq q).running ∧
        Only [] [.store, .out] s u) ∧
  (∀ (t : Nat) (q : Fin 4) (b : Fin 104) (j : Job) (p : Nat) (f : Nat → FlashWord) (s : State),
    Runs programs q b j s → j.desc.isLog = false → j.data.length = j.desc.count →
    (∀ i, f i = s.flashWord b j.desc.sector (j.desc.first + i)) →
    Yields (.programComplete t q b none p) s fun u =>
      (∀ i (h : i < j.data.length), u.flashWord b j.desc.sector (j.desc.first + i) =
        if j.data[i] = erasedWord then f i
        else if j.desc.overp then { data := (f i).data &&& j.data[i], check := 0xFF, open_ := (f i).open_ &&& j.data[i] }
        else { data := j.data[i]
               check := if j.desc.first + i < 504 then Config.checkBits j.data[i] else 0xFF, open_ := 0 }) ∧
        (∀ w, w < j.desc.first ∨ j.desc.first + j.desc.count ≤ w →
          u.flashWord b j.desc.sector w = s.flashWord b j.desc.sector w) ∧
        (u.sec b j.desc.sector).state = .normal ∧ Answered q j.desc (s.okOrWorn b j.desc.sector) u) ∧
  (∀ (t : Nat) (q : Fin 4) (b : Fin 104) (j : Job) (k p : Nat) (s : State),
    Runs programs q b j s → j.data.length = j.desc.count → k < j.desc.count → j.data[k]? ≠ some erasedWord →
    Yields (.programComplete t q b (some k) p) s fun u =>
      (u.flashWord b j.desc.sector (j.desc.first + k)).undef = true ∧
        (∀ w, j.desc.first + k < w → u.flashWord b j.desc.sector w = s.flashWord b j.desc.sector w) ∧
        (u.sec b j.desc.sector).state = .normal ∧ Answered q j.desc stVerify u) ∧
  (∀ (t : Nat) (q : Fin 4) (b : Fin 104) (j : Job) (p : Nat) (s : State),
    Runs programs q b j s → j.desc.isLog = true → j.desc.flag = false →
    Yields (.programComplete t q b none p) s fun u =>
      (∃ y, (u.dq q).held = y :: (s.dq q).held ∧ y.flag = true ∧ y.src = j.desc.src ∧ y.recno = j.desc.recno) ∧
        (u.dq q).running = (s.dq q).running.erase j ∧ (u.sec b j.desc.sector).state = .normal) ∧
  (∀ (t : Nat) (q : Fin 4) (x : Desc) (r : List Desc) (s z : State), z = s.upTo t → Front q x r s → x.op = opErase →
    checks q x s = none →
    Yields (.erase t q) s fun u =>
      Leaves q r u ∧
        { desc := x, since := z.now, data := x.log, limits := s.rd (reg pStore 0x800) } ∈ (u.dq q).running ∧
        (u.sec x.bank x.sector).state = .erasing ∧
        (∃ y, y ∈ (u.dq 0).held ∧ y.src = .steward ∧ y.op = opProgram ∧
          y.bank = (if x.bank < 96 then x.bank else x.bank - 96) ∧ 386 ≤ y.sector) ∧
        (u.sec x.bank x.sector).cycles = min ((s.sec x.bank x.sector).cycles + 1) (2 ^ 28 - 1) ∧
        Only [reg pStore oEvent, reg (pRecord (x.bank - 96)) oEvent] (.store :: .xips :: .free :: eventParts) s u) ∧
  (∀ (t : Nat) (q : Fin 4) (b : Fin 104) (j : Job) (ok : Bool) (p : Nat) (sp good : Bool) (s : State),
    Runs erases q b j s →
    (ok = true ∨ fld j.limits 13 8 ≤ max p ((s.sec b j.desc.sector).steps + 1)) →
    good = (ok || decide (b.val < 96) && decide ((s.bankOf b).spares < 16) && sp) →
    Yields (.eraseComplete t q b ok p sp) s fun u =>
      (u.sec b j.desc.sector).state = .normal ∧ (u.sec b j.desc.sector).listed = false ∧
        (∀ w, w < 512 → u.flashWord b j.desc.sector w =
          { data := erasedWord, check := 0xFF, open_ := if good then 0 else erasedWord }) ∧
        Answered q j.desc (if good then s.okOrWorn b j.desc.sector else stVerify) u) ∧
  (∀ (t : Nat) (q : Fin 4) (b : Fin 104) (j : Job) (p : Nat) (sp : Bool) (s : State), Runs erases q b j s →
    max p ((s.sec b j.desc.sector).steps + 1) < fld j.limits 13 8 →
    Yields (.eraseComplete t q b false p sp) s fun u => Only [] [] s u) ∧
  (∀ (t : Nat) (q : Fin 4) (x : Desc) (r : List Desc) (s z : State), z = s.upTo t → Front q x r s → x.op = opSuspend →
    checks q x s = none →
    Yields (.suspend t q) s fun u =>
      (u.dq q).held = r ∧ ((s.erasing x.bank).isSome = true →
        { desc := x, since := z.now, data := x.log, limits := s.rd (reg pStore 0x800) } ∈ (u.dq q).running ∧
          Only [] [.store] s u) ∧
        ((s.erasing x.bank).isSome = false → Clear q x s → Answered q x stOk u)) ∧
  (∀ (t : Nat) (b : Fin 104) (p q : Nat) (j : Job) (s z : State), z = s.upTo t → s.erasing b = some (q, j) →
    (∃ e, e ∈ s.store.queues ∧ ∃ k, k ∈ e.2.running ∧ k.desc.op = opSuspend ∧ k.desc.bank = b.val ∧ k.ended = none) →
    s.behind q j = false →
    j.since + us 250 ≤ z.now → s.inSelftest pStore = false →
    Yields (.suspendEffective t b p) s fun u =>
      (u.sec b j.desc.sector).state = .suspended ∧ u.rb (reg pStore oEvent) 9 = true ∧
        Answered q j.desc stSuspended u) ∧
  (∀ (t : Nat) (q : Fin 4) (x : Desc) (r : List Desc) (s z : State), z = s.upTo t → Front q x r s → x.op = opResume →
    checks q x s = none →
    Yields (.resume t q) s fun u =>
      (u.dq q).held = r ∧ ((s.sec x.bank x.sector).state = .suspended →
        (u.sec x.bank x.sector).state = .erasing ∧
          { desc := x, since := z.now, data := x.log, limits := s.rd (reg pStore 0x800) } ∈ (u.dq q).running ∧
          Only [] [.store] s u) ∧
        ((s.sec x.bank x.sector).state = .normal → Clear q x s → Answered q x stBad u) ∧
        ((s.sec x.bank x.sector).state = .incomplete → Clear q x s → Answered q x stIncomplete u))

/-- Protection, passwords and PWRFAIL_N (R231, R232, R235 to R237). Model's choices: assumptions 13, 84, 184. -/
def Obligations.StoreProtection : Prop :=
  (∀ (t : Nat) (q : Fin 4) (x : Desc) (r : List Desc) (s : State), Front q x r s → x.op = opProtect →
    (∀ j, j ∈ (s.dq q).running → j.desc.op ≠ opProtect) → Clear q x s → checks q x s = none →
    granted (s.claim actMeta agStw [resBank bMeta x.bank] 100).1 = true →
    Yields (.protect t q) s fun u =>
      (u.bankOf x.bank).prot = Nat.lor (s.bankOf x.bank).prot x.arg ∧
        (∀ b, b ≠ x.bank → u.bankOf b = s.bankOf b) ∧ Answered q x stOk u ∧
        (x.bank < 96 → ∃ y, y ∈ (u.dq 0).held ∧ y.src = .steward ∧ y.op = opProgram ∧ y.bank = x.bank ∧
          y.sector = 388)) ∧
  (∀ (t : Nat) (q : Fin 4) (x : Desc) (r : List Desc) (e : Reason) (s : State), Front q x r s → x.op = opProtect →
    (∀ j, j ∈ (s.dq q).running → j.desc.op ≠ opProtect) → Clear q x s → checks q x s = none →
    (s.claim actMeta agStw [resBank bMeta x.bank] 100).1 = .refused e →
    Yields (.protect t q) s fun u => (∀ b, u.bankOf b = s.bankOf b) ∧ Answered q x stConflict u) ∧
  (∀ e, e ∈ [(Instr.unprotect, opUnprotect), (Instr.setPassword, opPassword)] →
    ∀ (t : Nat) (q : Fin 4) (x : Desc) (r : List Desc) (s : State), Front q x r s → x.op = e.2 →
    (∀ j, j ∈ (s.dq q).running → j.desc.op ≠ e.2) → Clear q x s → checks q x s = none →
    granted (s.claim actMeta agStw [resBank bMeta x.bank] 100).1 = true → 8 ≤ (s.bankOf x.bank).fails →
    Yields (e.1 t q) s fun u => (∀ b, u.bankOf b = s.bankOf b) ∧ Answered q x stProtected u) ∧
  (∀ (t : Nat) (q : Fin 4) (x : Desc) (r : List Desc) (s : State), Front q x r s → x.op = opUnprotect →
    (∀ j, j ∈ (s.dq q).running → j.desc.op ≠ opUnprotect) → Clear q x s → checks q x s = none →
    granted (s.claim actMeta agStw [resBank bMeta x.bank] 100).1 = true → x.space = 3 → (s.bankOf x.bank).fails < 8 →
    Yields (.unprotect t q) s fun u =>
      (s.pwdMatches x.bank (wordsBytes ((s.bufferWords x).1.take 4)) = true →
        (u.bankOf x.bank).prot = (s.bankOf x.bank).prot - Nat.land (s.bankOf x.bank).prot x.arg ∧
          Answered q x stOk u) ∧
        (s.pwdMatches x.bank (wordsBytes ((s.bufferWords x).1.take 4)) = false →
          u.bankOf x.bank = { s.bankOf x.bank with fails := (s.bankOf x.bank).fails + 1 } ∧
          (s.inSelftest pStore = false → u.rb (reg pStore oEvent) 7 = true) ∧ Answered q x stProtected u)) ∧
  (∀ (t : Nat) (q : Fin 4) (x : Desc) (r : List Desc) (s : State), Front q x r s → x.op = opPassword →
    (∀ j, j ∈ (s.dq q).running → j.desc.op ≠ opPassword) → Clear q x s → checks q x s = none →
    granted (s.claim actMeta agStw [resBank bMeta x.bank] 100).1 = true → x.space = 3 → (s.bankOf x.bank).fails < 8 →
    (s.bankOf x.bank).digest = none →
    Yields (.setPassword t q) s fun u =>
      (u.bankOf x.bank).digest = some (sha256 (wordsBytes (((s.bufferWords x).1.drop 4).take 4))) ∧
        (u.bankOf x.bank).prot = (s.bankOf x.bank).prot ∧ Answered q x stOk u) ∧
  (∀ (t : Nat) (s z : State), z = s.upTo t → s.rb (reg pStore 0x040) 1 = false →
    Yields (.pwrfailNFall t) s fun u =>
      u.rb (reg pStore 0x040) 1 = true ∧ u.rb (reg pStore 0x040) 2 = s.outOfReset ∧ u.store.pfStop = true ∧
        u.store.pfFall = some z.now ∧ u.store.pfRise = none ∧
        (s.outOfReset = true → s.inSelftest pStore = false → u.rb (reg pStore oEvent) 6 = true) ∧
        ∀ q j, j ∈ (u.dq q).running → isOperation j.desc.op = true → j.stopped.isSome = true ∨ j.ended.isSome = true) ∧
  (∀ (t : Nat) (s z : State), z = s.upTo t → s.rb (reg pStore 0x040) 1 = true →
    Yields (.pwrfailNRise t) s fun u =>
      u.rd (reg pStore 0x040) = setBit (s.rd (reg pStore 0x040)) 1 false ∧ u.store = { s.store with pfRise := some z.now } ∧
        Only [reg pStore 0x040] [.store] s u) ∧
  (∀ (t a : Nat) (s z : State), z = s.upTo t → s.rb (reg pStore 0x040) 1 = false → s.store.pfStop = true →
    s.store.pfRise = some a → a + us 100 ≤ z.now → s.pwr.phase = .user →
    Yields (.pwrfailRecovery t) s fun u =>
      u.rb (reg pStore 0x040) 2 = false ∧ u.store.pfStop = false ∧ u.store.pfFall = none ∧ u.store.pfRise = none ∧
        u.rd (reg pStore 0x0C0) =
          word ((s.store.queues.flatMap fun e => e.2.running.filter (·.stopped.isSome)).length % 65536))

/-- An image command ended with a result: IMG_RESULT shows it, no command runs, and CMD_DONE is raised (Table 8.4). -/
def ImageResult (res region : Nat) (s u : State) : Prop :=
  u.rd (ireg 0x048) = word (res * 0x1000000 + 2 ^ 23 + region) ∧ u.rb (ireg 0x040) 29 = false ∧ u.store.cmd = none ∧
    (s.inSelftest pImg = false → u.rb (reg pImg oEvent) 0 = true ∧ (res ≠ 0 → u.rb (reg pImg oEvent) 1 = true))


/-- COMMIT, REVOKE and SET_BOOT, the load of frames at start and its re-verifications (R24, R171, R247 to R254, R309, Table 8.4).
Model's choices: assumptions 13, 15, 88, 89, 91, 184. -/
def Obligations.ImagesAndFrames : Prop :=
  (∀ (t : Nat) (a : Agent) (v : Word) (s z : State), z = s.upTo t → privileged a = true → Opens a pImg s →
    fld v 31 28 = 1 → s.rb (ireg 0x040) 29 = false → s.ep.busMaster = true → s.ep.d3hot = false →
    Yields (.commit t a v) s fun u =>
      u.rd (ireg 0x040) = setBit (s.rd (ireg 0x040)) 29 true ∧
        u.store.cmd = some { op := 1, slot := fld v 1 0, region := fld v 14 8, since := z.now, fetch := true
                             asked := true, mask := s.cmdMask } ∧
        .hostRead ((s.rd (ireg 0x050)).toNat + 2 ^ 32 * (s.rd (ireg 0x054)).toNat) 1024 ∈ u.out ∧ u.resp = .ok ∧
        Only [ireg 0x040] [.store, .out, .resp] s u) ∧
  (∀ (t : Nat) (a : Agent) (v : Word) (s z : State), z = s.upTo t → privileged a = true → Opens a pImg s →
    fld v 31 28 = 1 → s.rb (ireg 0x040) 29 = false → s.ep.busMaster = true → s.ep.d3hot = true →
    Yields (.commit t a v) s fun u =>
      u.rd (ireg 0x040) = setBit (s.rd (ireg 0x040)) 29 true ∧
        u.store.cmd = some { op := 1, slot := fld v 1 0, region := fld v 14 8, since := z.now, fetch := true
                             mask := s.cmdMask } ∧ u.resp = .ok ∧ Only [ireg 0x040] [.store, .resp] s u) ∧
  (∀ (t : Nat) (a : Agent) (v : Word) (s : State), privileged a = true → Opens a pImg s → fld v 31 28 = 1 →
    s.rb (ireg 0x040) 29 = false → s.ep.busMaster = false → s.inSelftest pPcie = false →
    Yields (.commit t a v) s fun u => u.rb (reg pPcie oEvent) 5 = true ∧ ImageResult 0x0A 0 s u) ∧
  (∀ e, e ∈ [(Instr.commit, 1), (Instr.revoke, 2), (Instr.setBoot, 3)] → ∀ (t : Nat) (a : Agent) (v : Word) (s : State),
    privileged a = true → Opens a pImg s → fld v 31 28 = e.2 → s.rb (ireg 0x040) 29 = true →
    Yields (e.1 t a v) s fun u =>
      u.rf (reg pImg oStatus) 15 8 = Reason.conflict.code ∧ u.resp = .refused ∧
        Only [reg pImg oStatus] [.resp] s u) ∧
  (∀ (t : Nat) (bad : List (Fin 96)) (c : ImgCmd) (n : Nat) (s : State), s.store.cmd = some c → c.op = 1 →
    c.fetch = false → c.claim = some n → s.claimGranted n = true → s.metaStopped = false →
    Yields (.commitComplete t bad) s fun u =>
      match s.commitFail c.header c.slot bad with
      | none =>
        (∀ r, r ∈ hdrMask c.header → u.slotState r c.slot = 1 ∧ u.slotHeader r c.slot = c.header) ∧
          u.rd (ireg 0x04C) = word ((s.store.slots.map (·.2.seq)).foldl max 0 + 1) ∧ ImageResult 0 0 s u
      | some (r, k) => u.store.slots = s.store.slots ∧ u.rd (ireg 0x048) = word (r * 0x1000000 + 2 ^ 23 + k) ∧
          u.store.cmd = none) ∧
  (∀ (t : Nat) (a : Agent) (v : Word) (r k : Nat) (s : State), privileged a = true → Opens a pImg s →
    fld v 31 28 = 2 → s.rb (ireg 0x040) 29 = false → r = fld v 14 8 → k = fld v 1 0 → r < 96 → s.slotState r k = 1 →
    s.imageInUse (s.slotHeader r k) k = false → s.metaStopped = false →
    granted (s.claim actMeta agStw [resBank bMeta (s.slotRec r k).anchor] 100).1 = true →
    Yields (.revoke t a v) s fun u =>
      u.slotState r k = 2 ∧ u.resp = .ok ∧ ImageResult 0 0 s u ∧
        ∃ y, y ∈ (u.dq 0).held ∧ y.src = .steward ∧ y.op = opProgram ∧ (y.sector = 384 ∨ y.sector = 385)) ∧
  (∀ (t : Nat) (a : Agent) (v : Word) (r k : Nat) (s : State), privileged a = true → Opens a pImg s →
    fld v 31 28 = 2 → s.rb (ireg 0x040) 29 = false → r = fld v 14 8 → k = fld v 1 0 → r < 96 → s.slotState r k = 1 →
    s.imageInUse (s.slotHeader r k) k = true →
    Yields (.revoke t a v) s fun u => u.store.slots = s.store.slots ∧ ImageResult 0x0D 0 s u) ∧
  (∀ (t : Nat) (a : Agent) (v : Word) (k : Nat) (s : State), privileged a = true → Opens a pImg s →
    fld v 31 28 = 3 → s.rb (ireg 0x040) 29 = false → k = fld v 1 0 → (∀ r, r ∈ s.cmdMask → s.slotState r k = 1) →
    s.metaStopped = false → granted (s.claim actMeta agStw (s.cmdMask.map (resBank bMeta)) 100).1 = true →
    Yields (.setBoot t a v) s fun u =>
      (∀ r, r ∈ s.cmdMask → u.bootSlot r = k) ∧ (∀ r, r ∉ s.cmdMask → u.bootSlot r = s.bootSlot r) ∧
        u.store.slots = s.store.slots ∧ ImageResult 0 0 s u) ∧
  (∀ (t : Nat) (a : Agent) (v : Word) (r : Nat) (s : State), privileged a = true → Opens a pImg s →
    fld v 31 28 = 3 → s.rb (ireg 0x040) 29 = false → r ∈ s.cmdMask → s.slotState r (fld v 1 0) ≠ 1 →
    Yields (.setBoot t a v) s fun u => u.store.boots = s.store.boots ∧ ImageResult 0x0C 0 s u) ∧
  (∀ (t : Nat) (bad : List (Fin 96)) (s z : State), z = s.upTo t →
    (z.now < s.load.since.getD 0 + us 4 * s.nextWave.2 + loadTime ∨
      s.load.first.any (fun f => z.now < f + us 4 * s.nextWave.2 + loadTime) = true) →
    Yields (.loadWave t bad) s fun u => Only [] [] s u) ∧
  (∀ (t : Nat) (bad : List (Fin 96)) (r k : Nat) (s z : State), z = s.upTo t →
    s.load.since.getD 0 + us 4 * s.nextWave.2 + loadTime ≤ z.now →
    s.load.first.all (fun f => f + us 4 * s.nextWave.2 + loadTime ≤ z.now) = true → s.pwr.phase = .starting → s.bist.tests = [] →
    s.bist.todo = [] → s.load.queue = [r] → r < 96 → s.firstCand r = some k → k = s.bootSlot r → k < 4 →
    s.load.retry = [] → s.isOn (pReg r) = false → (s.loadFrame r k).regionCheck r = none →
    Yields (.loadWave t bad) s fun u =>
      if s.crcOk (s.slotHeader r k) bad r k then
        u.isOn (pReg r) = true ∧ u.rb (reg (pReg r) oCtrl) 0 = true ∧ u.running? r = some k ∧
          u.rd (rreg r 0x044) = s.frameWord r k 0x008 ∧ u.rd (rreg r 0x048) = s.frameWord r k 0x00C ∧
          (u.region r).logic = { frame := some (s.frameWord r k 0x008, s.frameWord r k 0x00C) } ∧
          u.load.queue = [] ∧ u.load.failed = s.load.failed
      else u.load = { s.load with
                           queue := [], failed := s.load.failed ++ [r], waves := s.load.waves + 1
                           first := some (s.load.first.getD (z.now - (us 4 * s.nextWave.2 + loadTime))) } ∧
        Only [] [.store, .free] s u) ∧
  (∀ (t : Nat) (bad : List (Fin 96)) (r k : Nat) (l : List Nat) (s : State), s.load.failed = r :: l →
    s.firstCand r = some k → s.slotState r k = 1 → s.regionHeld r = false → r < 96 → s.metaStopped = false →
    Yields (.reVerifyEnd t none bad) s fun u =>
      match s.verify (s.slotHeader r k) k bad with
      | none => u.load.failed = l ∧ u.load.retry = s.load.retry ++ [r] ∧ r ∈ u.load.queue ∧
          u.store.slots = s.store.slots ∧ Only [] [.store, .free] s u
      | some _ => u.slotState r k = 2 ∧ r ∉ u.load.failed) ∧
  (∀ (t : Nat) (n : Fin 8) (bad : List (Fin 96)) (s : State), (s.swap n).verify = true → s.metaStopped = false →
    Yields (.reVerifyEnd t (some n) bad) s fun u =>
      u.swapState n = 0 ∧ (u.swap n).verify = false ∧ (u.swap n).claim = none)


/-- Swaps: arming, disarming, starts, the swap instant, the release and the revert (R201, R255 to R260, Table 8.6).
Model's choices: assumption 9. -/
def Obligations.Swaps : Prop :=
  (∀ (t : Nat) (a : Agent) (n : Fin 8) (v : Word) (s z : State), z = s.upTo t → Opens a pImg s → s.swapState n = 0 →
    bit v 30 = true → bit v 31 = false → s.lcState ≠ 5 →
    Yields (.swapArm t a n v) s fun u =>
      u.rd (swapReg n 0xC) = setBit (v &&& 0x30000003) 30 true ∧ u.swapState n = 1 ∧ (u.swap n).since = z.now ∧
        u.resp = .ok ∧ (∀ k, k ≠ n.val → u.swap k = s.swap k) ∧
        Only [swapReg n 0xC, swapStat n] [.store, .resp] s u) ∧
  (∀ (t : Nat) (n : Fin 8) (s : State), s.swapState n = 1 → (s.swap n).claim = none → s.armFail n = none →
    granted (s.claim actSwap (agSwap n) ((s.swapMask n).map (fun r => resUnit (pReg r)) ++
      (s.swapMask n).map (resBank bLoad)) (200 * (s.swapMask n).length)).1 = true →
    Yields (.armingEnd t n) s fun u =>
      u.swapState n = 2 ∧ (∃ c, (u.swap n).claim = some c ∧ u.claimGranted c = true) ∧
        Only [swapStat n] [.store, .ledger, .free] s u) ∧
  (∀ (t : Nat) (n : Fin 8) (r : Reason) (s : State), s.swapState n = 1 → (s.swap n).claim = none →
    s.armFail n = some r → s.inSelftest pImg = false →
    Yields (.armingEnd t n) s fun u =>
      u.swapState n = 0 ∧ u.rf (swapStat n) 27 24 = 2 ∧ u.rf (swapStat n) 23 16 = r.code ∧
        u.rb (swapReg n 0xC) 30 = false ∧ u.rb (reg pImg oEvent) 3 = true ∧
        Only [swapStat n, swapReg n 0xC, reg pImg oEvent] (.store :: eventParts) s u) ∧
  (∀ (t : Nat) (a : Agent) (n : Fin 8) (v : Word) (s : State), Opens a pImg s →
    (s.swapState n = 1 ∨ s.swapState n = 2) → bit v 30 = false → bit v 31 = false →
    Yields (.swapDisarm t a n v) s fun u =>
      u.swapState n = 0 ∧ u.rf (swapStat n) 27 24 = 4 ∧ u.rf (swapStat n) 23 16 = 0 ∧ (u.swap n).claim = none ∧
        u.rb (swapReg n 0xC) 30 = false ∧ u.resp = .ok) ∧
  (∀ (t : Nat) (a : Agent) (n : Fin 8) (v : Word) (s z : State), z = s.upTo t → Opens a pImg s → s.swapState n ≠ 0 →
    bit v 30 = true → bit v 31 = true →
    Yields (.swapGo t a n v) s fun u =>
      u.swap n = { s.swap n with trigs := (s.swap n).trigs ++ [(z.now + ns 100, false)] } ∧ u.resp = .ok ∧
        (∀ k, k ≠ n.val → u.swap k = s.swap k) ∧ Only [] [.store, .resp] s u) ∧
  (∀ (t : Nat) (n : Fin 8) (b : Nat) (late : Bool) (s z : State), z = s.upTo t →
    (s.swap n).trigs.find? (fun e => atOrAfter pinCycle e.1 ≤ z.now) = some (b, late) → s.swapState n = 2 →
    (s.swapForce n = true ∨ ∀ r, r ∈ s.swapMask n → hdr (s.slotHeader r (s.swapSlot n)) 0x010 = s.runCompat) →
    Yields (.swapStart t n) s fun u =>
      u.swapState n = 3 ∧ (u.swap n).at_ = atOrAfter pinCycle b ∧
        (∀ r, r ∈ s.swapMask n → u.rb (rreg r 0x040) 6 = true ∧ u.regionParked r = true ∧ (u.region r).holds = [] ∧
          ∀ k w due d c, .deepA r k w due d c ∈ u.out → due ≤ z.now) ∧
        u.rb (swapStat n) 15 = late ∧ u.rf (swapStat n) 7 0 = (s.rf (swapStat n) 7 0 + 1) % 256 ∧
        u.rb (swapReg n 0xC) 30 = false ∧ (u.swap n).trigs = (s.swap n).trigs.erase (b, late)) ∧
  (∀ (t : Nat) (n : Fin 8) (b : Nat) (late : Bool) (s z : State), z = s.upTo t →
    (s.swap n).trigs.find? (fun e => atOrAfter pinCycle e.1 ≤ z.now) = some (b, late) → s.swapState n ≠ 2 → s.inSelftest pImg = false →
    Yields (.swapStart t n) s fun u =>
      u.rb (reg pImg oEvent) 5 = true ∧ (u.swap n).trigs = (s.swap n).trigs.erase (b, late) ∧
        Only [reg pImg oEvent] (.store :: eventParts) s u) ∧
  (∀ (t : Nat) (n : Fin 8) (bad : List (Fin 96)) (k : Nat) (s z : State), z = s.upTo t → s.swapState n = 3 →
    (s.swap n).at_ + s.swapSpan n ≤ z.now → k = s.swapSlot n → s.inSelftest pImg = false →
    Yields (.swapRelease t n bad) s fun u =>
      match (s.swapMask n).find? (fun r => !s.crcOk (s.slotHeader r k) bad r k) with
      | none =>
        u.swapState n = 0 ∧ u.rf (swapStat n) 27 24 = 1 ∧ u.rb (reg pImg oEvent) 2 = true ∧
          ∀ r, r ∈ s.swapMask n → u.running? r = some k ∧ u.rb (rreg r 0x040) 6 = false ∧
            u.rd (rreg r 0x044) = s.frameWord r k 0x008 ∧
            (u.region r).logic = { frame := some (s.frameWord r k 0x008, s.frameWord r k 0x00C) } ∧
            (s.rb (swapReg n 0xC) 28 = true → if s.metaStopped then (r, k) ∈ u.load.boots else u.bootSlot r = k)
      | some r => u.swapState n = 4 ∧ u.rf (swapStat n) 14 8 = r ∧ Only [swapStat n] [.free] s u) ∧
  (∀ (t : Nat) (n : Fin 8) (bad : List (Fin 96)) (s z : State), z = s.upTo t → s.swapState n = 4 →
    (s.swap n).verify = false → (s.swap n).at_ + 2 * s.swapSpan n ≤ z.now → s.inSelftest pImg = false →
    Yields (.swapRevert t n bad) s fun u =>
      u.swapState n = 4 ∧ u.rf (swapStat n) 27 24 = 3 ∧ (u.swap n).verify = true ∧ u.rb (reg pImg oEvent) 4 = true ∧
        ∀ r o k, (s.swap n).old = [(r, o, k)] → k < 4 → r < 96 →
          u.running? r = if o && s.crcOk (s.slotHeader r k) bad r k then some k else none)

/-- Flit `f` comes in on port `n` in its turn: the link is UP, and a flit of the link sequence carries the number awaited
(R267). -/
abbrev Arrives (n : Nat) (f : Flit) (s : State) : Prop :=
  s.linkUp n = true ∧ (unsequenced f = false → f.lseq.toNat = (s.port n).lseqRx)

/-- From `s` to `u`, a flit of which `P` holds left on port `p`, or waits there for its turn because others wait before it or
the retry window is full (R267, R270). -/
def Sends (p : Nat) (s u : State) (P : Flit → Prop) : Prop :=
  ∃ g, P g ∧ (.flit p g ∈ u.out ∨
    g ∈ (u.port p).outq ∧ ((s.port p).outq ≠ [] ∨ s.window p ≤ (s.port p).retry.length))

/-- Training, loss and resends of the links (R264 to R268, R270). Model's choices: assumptions 92, 93, 94, 95, 96. -/
def Obligations.LatticeLinks : Prop :=
  (∀ (t : Nat) (n : Fin 8) (id : PeerId) (l : Nat) (s z : State), z = s.upTo t → s.inTraining n = true →
    s.wired n id = true → s.level id = some l →
    Yields (.linkUp t n id) s fun u =>
      u.rd (preg n 0x044) = word (2 * 2 ^ 28 + l * 2 ^ 20) ∧
        u.rd (preg n 0x048) = word (id.port.val * 65536 + id.addr.toNat) ∧ u.linkUp n = true ∧
        u.port n = { lastSync := z.now, outq := (s.port n).outq } ∧ (∀ k, k ≠ n.val → u.port k = s.port k) ∧
        u.rb (reg (pPort n) oEvent) 0 = true ∧
        Only [preg n 0x044, preg n 0x048, reg (pPort n) oEvent] (.lat :: eventParts) s u) ∧
  (∀ (t : Nat) (n : Fin 8) (id : PeerId) (s : State), s.inTraining n = true →
    (s.wired n id = false ∨ s.level id = none) →
    Yields (.linkUp t n id) s fun u =>
      u.rf (preg n 0x044) 31 28 = 0 ∧ u.rf (preg n 0x044) 27 24 = (if s.wired n id then 4 else 3) ∧
        u.rd (preg n 0x048) = word (id.port.val * 65536 + id.addr.toNat) ∧ u.linkUp n = false ∧
        Only [preg n 0x044, preg n 0x048] [] s u) ∧
  (∀ (t : Nat) (n : Fin 8) (s z : State), z = s.upTo t → s.inTraining n = true →
    (s.port n).since + ms 2 ≤ z.now →
    Yields (.trainingTimeout t n none) s fun u =>
      u.rf (preg n 0x044) 31 28 = 1 ∧ u.rf (preg n 0x044) 27 24 = 2 ∧ (u.port n).since = z.now ∧
        .train n (s.ownId n) ∈ u.out ∧ (∀ k, k ≠ n.val → u.port k = s.port k) ∧
        Only [preg n 0x044] [.lat, .out] s u) ∧
  (∀ (t : Nat) (n : Fin 8) (id : PeerId) (s z : State), z = s.upTo t → s.inTraining n = true →
    (s.port n).since + ms 2 ≤ z.now → (s.wired n id = false ∨ s.level id = none) →
    Yields (.trainingTimeout t n (some id)) s fun u =>
      u.rf (preg n 0x044) 31 28 = 0 ∧ u.rf (preg n 0x044) 27 24 = (if s.wired n id then 4 else 3) ∧
        Only [preg n 0x044, preg n 0x048] [.lat] s u) ∧
  (∀ (t : Nat) (n : Fin 8) (clock : Bool) (s z : State), z = s.upTo t → s.linkUp n = true →
    s.inSelftest (pPort n) = false →
    Yields (.linkDown t n clock) s fun u =>
      u.rf (preg n 0x044) 31 28 = 1 ∧ u.rf (preg n 0x044) 19 18 = 0 ∧
        (clock = true → u.rf (preg n 0x044) 27 24 = 7) ∧ .train n (s.ownId n) ∈ u.out ∧ (u.port n).since = z.now ∧ (u.port n).syncOut = none ∧
        u.rb (reg (pPort n) oEvent) 1 = true ∧
        Only [preg n 0x044, reg (pPort n) oEvent, reg pRtr oEvent] (.lat :: .free :: eventParts) s u) ∧
  (∀ (t : Nat) (n : Fin 8) (s : State), s.linkUp n = true → s.inSelftest (pPort n) = false →
    Yields (.crcErr t n none) s fun u =>
      u.rb (reg (pPort n) oEvent) 2 = true ∧ Only [reg (pPort n) oEvent] eventParts s u) ∧
  (∀ (t : Nat) (n : Fin 8) (l : BitVec 16) (f : Flit) (k : Nat) (r : List (Flit × Nat)) (s : State), s.linkUp n = true →
    (s.port n).retry.dropWhile (·.1.lseq != l) = (f, k) :: r → k < 16 → s.inSelftest (pPort n) = false →
    Yields (.crcErr t n (some l)) s fun u =>
      (u.port n).retry = ((f, k) :: r).map (fun e => (e.1, e.2 + 1)) ∧
        (∀ e, e ∈ (f, k) :: r → .flit n e.1 ∈ u.out) ∧ u.rb (reg (pPort n) oEvent) 3 = true ∧
        Only [reg (pPort n) oEvent] (.lat :: eventParts) s u) ∧
  (∀ (t : Nat) (n : Fin 8) (l : BitVec 16) (f : Flit) (k : Nat) (r : List (Flit × Nat)) (s : State), s.linkUp n = true →
    (s.port n).retry.dropWhile (·.1.lseq != l) = (f, k) :: r → 16 ≤ k →
    Yields (.crcErr t n (some l)) s fun u => u.rf (preg n 0x044) 31 28 = 1 ∧ u.rf (preg n 0x044) 27 24 = 5) ∧
  (∀ (t : Nat) (n : Fin 8) (f : Flit) (s : State), Arrives n f s → (f.cls = 0 ∨ 8 < f.cls) →
    s.inSelftest (pPort n) = false →
    Yields (.unknown t n f) s fun u =>
      u.rb (reg (pPort n) oEvent) 4 = true ∧ (u.port n).lseqRx = ((s.port n).lseqRx + 1) % 65536 ∧
        (∀ k, k ≠ n.val → u.port k = s.port k) ∧ Only [reg (pPort n) oEvent] (.lat :: eventParts) s u) ∧
  (∀ (t : Nat) (n : Fin 8) (f : Flit) (s : State), Arrives n f s → reservedFlit f = true → (f.cls = 1 ∨ f.cls = 2) →
    Yields (.unknown t n f) s fun u =>
      (u.port n).lseqRx = ((s.port n).lseqRx + 1) % 65536 ∧ (∀ k, k ≠ n.val → u.port k = s.port k) ∧ Only [] [.lat] s u)

/-- Routing, remote accesses and the flits that could not be delivered (R272 to R277, R443, R444, Table 9.5). Model's
choices: assumptions 96, 97, 100, 101. -/
def Obligations.LatticeRouting : Prop :=
  (∀ e, e ∈ [(Instr.responseFlit, 5), (Instr.requestFlit, 6), (Instr.undeliverable, 7), (Instr.streamFlit, 8)] →
    ∀ (t p : Nat) (n : Fin 8) (f : Flit) (s : State), Arrives n f s → f.cls = e.2 → f.dest ≠ s.ownAddr → f.hops < 63 →
    s.nextHop f.dest = some (p, false) →
    Yields (e.1 t n f) s fun u =>
      Sends p s u (fun g => g.cls = f.cls ∧ g.hops = f.hops + 1 ∧ g.dest = f.dest ∧ g.src = f.src ∧ g.tag = f.tag ∧
        g.body = f.body ∧ g.detour = f.detour) ∧ Only [] [.lat, .out, .free] s u) ∧
  (∀ e, e ∈ [(Instr.responseFlit, 5), (Instr.requestFlit, 6), (Instr.undeliverable, 7), (Instr.streamFlit, 8)] →
    ∀ (t : Nat) (n : Fin 8) (f : Flit) (s : State), Arrives n f s → f.cls = e.2 → f.dest ≠ s.ownAddr → f.hops = 63 →
    s.inSelftest pRtr = false →
    Yields (e.1 t n f) s fun u => u.rb (reg pRtr oEvent) 6 = true) ∧
  (∀ (t p : Nat) (det write : Bool) (off len : Nat) (data : List Byte) (n : Fin 8) (f : Flit) (s : State),
    Arrives n f s → f.cls = 6 → f.dest = s.ownAddr → f.src ≠ s.ownAddr → f.epoch = 1 →
    f.body = .request write off len data → s.rb (rtr 0x048) 0 = false → s.nextHop f.src = some (p, det) →
    Yields (.requestFlit t n f) s fun u =>
      Sends p s u (fun g => g.cls = 7 ∧ g.dest = f.src ∧ g.src = s.ownAddr ∧ g.tag = f.tag ∧
        g.body = .undeliv 4 (flitHead f).1 (flitHead f).2.1 (flitHead f).2.2) ∧
        Only [reg pRtr oEvent] (.lat :: .free :: eventParts) s u) ∧
  (∀ (t off : Nat) (data : List Byte) (n : Fin 8) (f : Flit) (s z : State), z = s.upTo t → Arrives n f s → f.cls = 6 →
    f.dest = s.ownAddr → f.epoch = 1 → f.body = .request true off data.length data → s.rb (rtr 0x048) 0 = true →
    off < 0x200000 → s.windowDenied .lattice off = false →
    Yields (.requestFlit t n f) s fun u =>
      ∃ w v, w = z.setPort n { s.port n with lseqRx := ((s.port n).lseqRx + 1) % 65536 } ∧
        v = bar0 .lattice { off := off, write := true, size := data.length, data := BitVec.ofNat 64 (bytesNat data) } w ∧
        (∀ p : Part, p.kept v u) ∧ u.regs = v.regs) ∧
  (∀ (t off len p : Nat) (det : Bool) (data : List Byte) (n : Fin 8) (f : Flit) (s z w v : State), z = s.upTo t →
    Arrives n f s → f.cls = 6 → f.dest = s.ownAddr → f.epoch = 1 → f.body = .request false off len data →
    s.rb (rtr 0x048) 0 = true → s.windowDenied .lattice off = false →
    w = z.setPort n { s.port n with lseqRx := ((s.port n).lseqRx + 1) % 65536 } → v = (windowRead .lattice off len w).2 →
    v.nextHop f.src = some (p, det) →
    Yields (.requestFlit t n f) s fun u =>
      Sends p v u fun g => g.cls = 5 ∧ g.dest = f.src ∧ g.tag = f.tag ∧
        g.body = .response (windowRead .lattice off len w).1) ∧
  (∀ (t : Nat) (data : List Byte) (m : Remote) (n : Fin 8) (f : Flit) (s : State), Arrives n f s → f.cls = 5 →
    f.dest = s.ownAddr → f.epoch = 1 → f.body = .response data → s.lat.remotes = [m] → m.tag = f.tag.toNat →
    m.got = none → m.len = data.length →
    Yields (.responseFlit t n f) s fun u =>
      u.rdata = bytesNat data ∧ u.resp = .ok ∧ .answer .host true (bytesNat data) ∈ u.out ∧ u.lat.remotes = [] ∧
        Only [] [.lat, .rdata, .resp, .out] s u) ∧
  (∀ (t r : Nat) (a b c : Word) (m : Remote) (n : Fin 8) (f : Flit) (s : State), Arrives n f s → f.cls = 7 → f.dest = s.ownAddr →
    f.epoch = 1 → f.body = .undeliv r a b c → fld a 31 28 = 6 → fld c 15 0 = m.tag → s.lat.remotes = [m] → m.got = none →
    s.inSelftest pRtr = false →
    Yields (.undeliverable t n f) s fun u =>
      u.rb (reg pRtr oEvent) 7 = true ∧ u.rb (reg pRtr oEvent) 3 = true ∧
        u.rd (rtr 0x058) = word (2 ^ 31 + r * 65536 + m.off / 1024 % 65536) ∧
        u.rdata = bytesNat (List.replicate m.len 0xFF) ∧ u.lat.remotes = [] ∧
        Only [rtr 0x058, reg pRtr oEvent] (.lat :: .rdata :: .resp :: eventParts) s u) ∧
  (∀ (t r : Nat) (a b c : Word) (ch : Fin 16) (n : Fin 8) (f : Flit) (s : State), Arrives n f s → f.cls = 7 →
    f.dest = s.ownAddr → f.epoch = 1 → f.body = .undeliv r a b c → fld a 31 28 = 8 → fld a 23 16 = ch → s.rb (rtr (0x100 + 4 * ch)) 31 = true →
    s.rb (rtr (0x140 + 4 * ch)) 31 = false → s.inSelftest pRtr = false →
    Yields (.undeliverable t n f) s fun u =>
      u.rb (rtr (0x140 + 4 * ch)) 31 = true ∧ u.rf (rtr (0x140 + 4 * ch)) 23 16 = r % 256 ∧
        u.rb (reg pRtr oEvent) 4 = true ∧ u.rb (reg pRtr oEvent) 7 = true ∧
        Only [rtr (0x140 + 4 * ch), reg pRtr oEvent] (.lat :: eventParts) s u) ∧
  (∀ (t off len p : Nat) (det : Bool) (dest : BitVec 16) (data : List Byte) (s z : State), z = s.upTo t →
    s.pwr.serving = true → bar4Ok off = true → 0 < len → len ≤ 32 → s.isOn pRtr = true →
    dest = BitVec.ofNat 16 (s.rf (rtr 0x050) 15 0) → dest ≠ s.ownAddr → (List.range 8).any s.linkUp = true →
    s.present dest = true → s.nextHop dest = some (p, det) →
    Yields (.remoteAccess t false off len data) s fun u =>
      Sends p s u (fun g => g.cls = 6 ∧ g.dest = dest ∧ g.src = s.ownAddr ∧ g.tag = BitVec.ofNat 16 s.lat.remoteTag ∧
        g.body = .request false off len (data.take len)) ∧
        u.lat.remotes = s.lat.remotes ++ [{ read := s.lat.remoteReads, tag := s.lat.remoteTag % 65536, off := off
                                            len := len, since := z.now }] ∧
        u.lat.remoteTag = (s.lat.remoteTag + 1) % 65536 ∧
        Only [reg pRtr oEvent] (.lat :: .resp :: .free :: eventParts) s u) ∧
  (∀ (t off len : Nat) (dest : BitVec 16) (data : List Byte) (s : State), s.pwr.serving = true → bar4Ok off = true →
    0 < len → len ≤ 64 → s.isOn pRtr = true → dest = BitVec.ofNat 16 (s.rf (rtr 0x050) 15 0) → dest ≠ s.ownAddr →
    (List.range 8).any s.linkUp = true → s.present dest = false → s.lat.remotes = [] →
    Yields (.remoteAccess t false off len data) s fun u =>
      u.rdata = bytesNat (List.replicate len 0xFF) ∧ u.rd (rtr 0x058) = word (2 ^ 31 + 2 * 65536 + off / 1024 % 65536) ∧
        u.rb (reg pRtr oEvent) 3 = true ∧ u.lat.remotes = [] ∧
        Only [rtr 0x058, reg pRtr oEvent] (.lat :: .rdata :: .resp :: eventParts) s u) ∧
  (∀ (t off len : Nat) (write : Bool) (data : List Byte) (s : State), s.pwr.serving = true → bar4Ok off = false →
    Yields (.remoteAccess t write off len data) s fun u =>
      u.resp = .ok ∧ (write = false → u.rdata = 256 ^ len - 1) ∧ Only [] [.rdata, .resp, .out] s u) ∧
  (∀ (t : Nat) (m : Remote) (s z : State), z = s.upTo t → s.lat.remotes = [m] → m.got = none →
    m.since + us (s.rf (rtr 0x054) 15 0) ≤ z.now → s.inSelftest pRtr = false →
    Yields (.remoteTimeout t) s fun u =>
      u.rd (rtr 0x058) = word (2 ^ 31 + 5 * 65536 + m.off / 1024 % 65536) ∧
        u.rdata = bytesNat (List.replicate m.len 0xFF) ∧ u.rb (reg pRtr oEvent) 3 = true ∧ u.lat.remotes = [] ∧
        Only [rtr 0x058, reg pRtr oEvent] (.lat :: .rdata :: .resp :: eventParts) s u)

/-- Stream channels (R278). Model's choices: assumptions 104, 105. -/
def Obligations.LatticeStreams : Prop :=
  (∀ (t : Nat) (n : Fin 8) (f : Flit) (ch : Fin 16) (r : Nat) (ws : List Word) (s : State), Arrives n f s → f.cls = 8 →
    f.dest = s.ownAddr → f.typ = ch.val → s.rb (rtr (0x100 + 4 * ch)) 31 = true →
    s.rf (rtr (0x100 + 4 * ch)) 15 0 = f.src.toNat → nbit (s.rf (rtr 0x05C) 15 0) f.epoch = true →
    s.rb (rtr (0x140 + 4 * ch)) 31 = false → f.body = .words ws → (s.stream ch).buf = [] →
    f.tag.toNat = (s.stream ch).rxNext → r = s.rf (rtr (0x100 + 4 * ch)) 26 20 →
    Yields (.streamFlit t n f) s fun u =>
      (u.stream ch).rxNext = ((s.stream ch).rxNext + 1) % 65536 ∧ (u.stream ch).gapSince = none ∧
        (s.regionParked r = false → .stream r ch ws ∈ u.out ∧ (u.stream ch).ready = []) ∧
        (s.regionParked r = true → (u.stream ch).ready = (s.stream ch).ready ++ [ws]) ∧ Only [] [.lat, .out] s u) ∧
  (∀ (t : Nat) (n : Fin 8) (f : Flit) (ch : Fin 16) (ws : List Word) (s z : State), z = s.upTo t → Arrives n f s →
    f.cls = 8 → f.dest = s.ownAddr → f.typ = ch.val → s.rb (rtr (0x100 + 4 * ch)) 31 = true →
    s.rf (rtr (0x100 + 4 * ch)) 15 0 = f.src.toNat → nbit (s.rf (rtr 0x05C) 15 0) f.epoch = true →
    s.rb (rtr (0x140 + 4 * ch)) 31 = false → f.body = .words ws → (s.stream ch).buf = [] →
    (s.stream ch).gapSince = none → (s.stream ch).rxNext < f.tag.toNat → f.tag.toNat < (s.stream ch).rxNext + 16 →
    Yields (.streamFlit t n f) s fun u =>
      (u.stream ch).rxNext = (s.stream ch).rxNext ∧ (u.stream ch).buf = [(f.tag.toNat, ws)] ∧
        (u.stream ch).gapSince = some z.now ∧ Only [] [.lat, .out] s u) ∧
  (∀ (t p : Nat) (det : Bool) (n : Fin 8) (f : Flit) (s : State), Arrives n f s → f.cls = 8 → f.dest = s.ownAddr →
    f.src ≠ s.ownAddr → (15 < f.typ ∨ s.rb (rtr (0x100 + 4 * f.typ)) 31 = false) → s.nextHop f.src = some (p, det) →
    Yields (.streamFlit t n f) s fun u =>
      Sends p s u (fun g => g.cls = 7 ∧ g.dest = f.src ∧
        g.body = .undeliv 4 (flitHead f).1 (flitHead f).2.1 (flitHead f).2.2) ∧
        Only [reg pRtr oEvent] (.lat :: .free :: eventParts) s u) ∧
  (∀ (t : Nat) (r : Fin 96) (ch : Fin 16) (ws : List Word) (p : Nat) (det : Bool) (dest : BitVec 16) (s z : State),
    z = s.upTo t → s.regionParked r = false → z.portBusy r 7 = false → s.rb (rtr (0x100 + 4 * ch)) 31 = true → s.rf (rtr (0x100 + 4 * ch)) 26 20 = r →
    s.rb (rtr (0x140 + 4 * ch)) 31 = false → 0 < (s.stream ch).credits → s.isOn pRtr = true →
    s.inSelftest pRtr = false → dest = BitVec.ofNat 16 (s.rf (rtr (0x100 + 4 * ch)) 15 0) → dest ≠ s.ownAddr →
    (List.range 8).any s.linkUp = true → s.present dest = true → s.nextHop dest = some (p, det) → ws.length = 12 →
    Yields (.streamPush t r ch ws) s fun u =>
      Sends p s u (fun g => g.cls = 8 ∧ g.typ = ch ∧ g.dest = dest ∧
        g.epoch = s.rf (rtr (0x100 + 4 * ch)) 19 16 ∧ g.tag = BitVec.ofNat 16 (s.rf (rtr (0x140 + 4 * ch)) 15 0) ∧
        g.body = .words ws) ∧ u.resp = .ok ∧ (u.stream ch).credits = (s.stream ch).credits - 1 ∧
        u.rf (rtr (0x140 + 4 * ch)) 15 0 = (s.rf (rtr (0x140 + 4 * ch)) 15 0 + 1) % 65536 ∧
        TookPort r 7 z u ∧
        Only [rtr (0x140 + 4 * ch), reg pRtr oEvent] (.lat :: .regions :: .resp :: .free :: eventParts) s u) ∧
  (∀ (t : Nat) (r : Fin 96) (ch : Fin 16) (ws : List Word) (s z : State), z = s.upTo t → s.regionParked r = false →
    (z.portBusy r 7 = true ∨ s.inSelftest pRtr = false ∧ (s.rb (rtr (0x100 + 4 * ch)) 31 = false ∨
      s.rf (rtr (0x100 + 4 * ch)) 26 20 ≠ r ∨ s.rb (rtr (0x140 + 4 * ch)) 31 = true)) →
    Yields (.streamPush t r ch ws) s fun u => u.resp = .retry ∧ Only [] [.resp] s u) ∧
  (∀ (t : Nat) (r : Fin 96) (ch : Fin 16) (ws : List Word) (s : State), s.regionParked r = true →
    Yields (.streamPush t r ch ws) s fun u => Only [] [] s u) ∧
  (∀ (t : Nat) (r : Fin 96) (ch : Fin 16) (ws : List Word) (s z : State), z = s.upTo t → s.regionParked r = false →
    z.portBusy r 7 = false → s.inSelftest pRtr = true → s.rb (reg (pReg r) oCtrl) 3 = false →
    Yields (.streamPush t r ch ws) s fun u =>
      u.resp = .selftest ∧ u.rb (reg (pReg r) oEvent) 2 = true ∧ TookPort r 7 z u ∧
        Only [reg (pReg r) oEvent] (.regions :: .resp :: eventParts) s u) ∧
  (∀ (t : Nat) (ch : Fin 16) (b : Nat) (s z : State), z = s.upTo t → (s.stream ch).gapSince = some b →
    b + us 100 ≤ z.now → s.rb (rtr (0x100 + 4 * ch)) 31 = true → s.rb (rtr (0x140 + 4 * ch)) 31 = false →
    s.inSelftest pRtr = false →
    Yields (.streamGapTimeout t ch) s fun u =>
      u.rb (rtr (0x140 + 4 * ch)) 31 = true ∧ u.rb (reg pRtr oEvent) 4 = true ∧ (u.stream ch).gapSince = none ∧
        Only [rtr (0x140 + 4 * ch), reg pRtr oEvent] (.lat :: .free :: eventParts) s u) ∧
  (∀ (t : Nat) (a : Agent) (ch : Fin 16) (v : Word) (s : State), Opens a pRtr s → fld v 26 20 < 96 → bit v 31 = true →
    s.rb (rtr (0x100 + 4 * ch)) 31 = false →
    Yields (.streamEnable t a ch v) s fun u =>
      u.rd (rtr (0x100 + 4 * ch)) = v &&& 0x87FFFFFF ∧ u.rd (rtr (0x140 + 4 * ch)) = 0 ∧ u.stream ch = {} ∧ u.resp = .ok ∧
        (∀ k, k ≠ ch.val → u.stream k = s.stream k) ∧
        Only [rtr (0x100 + 4 * ch), rtr (0x140 + 4 * ch)] [.lat, .resp] s u) ∧
  (∀ (t : Nat) (a : Agent) (ch : Fin 16) (v : Word) (s : State), Opens a pRtr s → 96 ≤ fld v 26 20 →
    Yields (.streamEnable t a ch v) s fun u =>
      u.rf (reg pRtr oStatus) 15 8 = Reason.range.code ∧ u.resp = .refused ∧ Only [reg pRtr oStatus] [.resp] s u)

/-- The census (R279). Model's choices: assumptions 98, 99, 205. -/
def Obligations.LatticeCensus : Prop :=
  (∀ (t : Nat) (s z : State), z = s.upTo t → s.isOn pRtr = true →
    (s.lat.lastCensus = 0 ∨ s.lat.lastCensus + ms 10 ≤ z.now) →
    Yields (.censusSend t) s fun u =>
      (∀ p, p < 8 → s.linkUp p = true → (s.treeStands = true → s.inTree p = true) →
        Sends p s u fun g => g.cls = 4 ∧ g.src = s.ownAddr ∧ g.body = .census s.ownInfo) ∧
        u.present s.ownAddr = true ∧ u.lat.lastCensus = max 1 z.now ∧
        Only [reg pRtr oEvent] (.lat :: .free :: eventParts) s u) ∧
  (∀ (t : Nat) (n : Fin 8) (f : Flit) (c : CensusInfo) (s z : State), z = s.upTo t → Arrives n f s → f.cls = 4 →
    f.epoch = 1 → f.body = .census c → c.addr ≠ s.ownAddr → s.present c.addr = false → s.inSelftest pRtr = false →
    Yields (.censusFlit t n f) s fun u =>
      u.lat.census = tabPut s.lat.census c.addr.toNat { info := c, seen := z.now, since := z.now } ∧
        u.lat.diam = tabPut s.lat.diam f.hops z.now ∧
        u.rb (reg pRtr oEvent) 2 = true ∧ Only [reg pRtr oEvent] (.lat :: .free :: eventParts) s u) ∧
  (∀ (t : Nat) (n : Fin 8) (f : Flit) (c : CensusInfo) (k : Nat) (e : Census) (s z : State), z = s.upTo t →
    Arrives n f s → f.cls = 4 → f.epoch = 1 → f.body = .census c → c.addr ≠ s.ownAddr →
    s.lat.census.find? (·.1 = c.addr.toNat) = some (k, e) →
    Yields (.censusFlit t n f) s fun u =>
      u.lat.census = tabPut s.lat.census c.addr.toNat
          { info := c, seen := z.now, since := if e.info.eligible then e.since else z.now } ∧
        u.lat.diam = tabPut s.lat.diam f.hops z.now ∧
        Only [] [.lat, .out, .free] s u) ∧
  (∀ (t : Nat) (n : Fin 8) (f : Flit) (peer : BitVec 16) (k : Nat) (e : Census) (s : State), Arrives n f s → f.cls = 4 →
    f.epoch = 1 → f.body = .notice peer → f.src ≠ s.ownAddr → s.lat.census.find? (·.1 = peer.toNat) = some (k, e) →
    (s.neighbours peer).all (fun a => !s.present a || (e.notices ++ [f.src]).contains a) = true → s.inSelftest pRtr = false →
    Yields (.linkNotice t n f) s fun u =>
      u.present peer = false ∧ u.rb (reg pRtr oEvent) 2 = true ∧
        Only [reg pRtr oEvent] (.lat :: .free :: eventParts) s u) ∧
  (∀ (t : Nat) (n : Fin 8) (f : Flit) (peer a : BitVec 16) (k : Nat) (e : Census) (s : State), Arrives n f s →
    f.cls = 4 → f.epoch = 1 → f.body = .notice peer → f.src ≠ s.ownAddr →
    s.lat.census.find? (·.1 = peer.toNat) = some (k, e) → a ∈ s.neighbours peer → s.present a = true →
    a ∉ e.notices ++ [f.src] → f.src ∉ e.notices →
    Yields (.linkNotice t n f) s fun u =>
      u.lat.census = tabPut s.lat.census peer.toNat { e with notices := e.notices ++ [f.src] } ∧
        Only [] [.lat, .out, .free] s u) ∧
  (∀ (t : Nat) (a : BitVec 16) (k : Nat) (e : Census) (s z : State), z = s.upTo t →
    s.lat.census.find? (·.1 = a.toNat) = some (k, e) → e.seen + ms 30 ≤ z.now → s.inSelftest pRtr = false →
    Yields (.censusTimeout t a) s fun u =>
      u.present a = false ∧ u.rb (reg pRtr oEvent) 2 = true ∧ u.lat.census = tabDel s.lat.census a.toNat ∧
        Only [reg pRtr oEvent] (.lat :: eventParts) s u)

/-- The device follows root `root` at `hops` by port `n` from now on, holding lattice time `lt` (R284). -/
def Follows (n root hops : Nat) (lt : Int) (u : State) : Prop :=
  u.role = 2 ∧ u.rootAddr = root ∧ u.treeHops = hops ∧ u.parent = n ∧ u.lockedTime = true ∧ u.ltime = lt

/-- The device is root from now on (R284). -/
def IsRoot (u : State) : Prop :=
  u.role = 3 ∧ u.rootAddr = u.ownAddr.toNat ∧ u.treeHops = 0 ∧ u.lockedTime = true ∧ u.lat.lostRoot = none

/-- The device lost its root `lost` and elects: no lattice time, no tree, the REROOT claim held, and the domains that
follow the lattice hold their velocity (R41, R284). -/
def Elects (lost : Nat) (s u : State) : Prop :=
  u.role = 1 ∧ u.lockedTime = false ∧ u.rootAddr = s.rootAddr ∧ u.lat.lostRoot = some lost ∧
    u.lat.lastLost = some lost ∧ u.ledger.reroot = true ∧
    u.rb (reg pCar oEvent) 1 = true ∧ (s.lockedTime = true → u.rb (reg pCar oEvent) 3 = true) ∧
    (∀ n, n < 8 → u.rb (preg n 0x044) 18 = false) ∧
    ∀ d, d < 16 → s.isOn (pDom d) = true → s.srcType d = 4 → (s.dom d).current = true → (u.dom d).holdover = true

/-- A re-root holds its REROOT claim, or the ledger grants it one (R23). -/
abbrev CanReroot (s : State) : Prop := s.ledger.reroot = true ∨ s.clashing [resUnit pCar] = none

/-- Link delay, beats, the root and the tree of Carillon (R23, R282 to R284, Table 9.9). Model's choices: assumptions 107,
108, 109, 110, 111, 112, 191, 205. -/
def Obligations.CarillonTree : Prop :=
  (∀ (t : Nat) (n : Fin 8) (s z : State), z = s.upTo t → s.linkUp n = true → s.carUse n = true →
    (s.port n).lastSync + us 2 ≤ z.now →
    Yields (.syncSend t n) s fun u =>
      Sends n s u (fun g => g.cls = 2 ∧ g.typ = 2 ∧ g.src = s.ownAddr ∧ flitW2 g 3 = z.devTime % 2 ^ 64) ∧
        (u.port n).lastSync = z.now ∧ (u.port n).syncOut = some z.devTime ∧
        ((s.port n).outq = [] → u.port n = { s.port n with lastSync := z.now, syncOut := some z.devTime }) ∧
        (∀ k, k ≠ n.val → u.port k = s.port k) ∧ Only [] [.lat, .out, .free] s u) ∧
  (∀ (t : Nat) (n : Fin 8) (f : Flit) (s z : State), z = s.upTo t → f.cls = 2 → f.typ = 2 → s.linkUp n = true →
    s.carUse n = true →
    Yields (.sync t n f) s fun u =>
      Sends n s u (fun g => g.cls = 2 ∧ g.typ = 3 ∧ flitW2 g 3 = z.devTime % 2 ^ 64 ∧ flitW2 g 5 = z.devTime % 2 ^ 64) ∧
        Only [] [.lat, .out, .free] s u) ∧
  (∀ (t : Nat) (n : Fin 8) (f : Flit) (b : Nat) (trip : Int) (ds : List Int) (s z : State), z = s.upTo t → f.cls = 2 →
    f.typ = 3 → s.linkUp n = true → (s.port n).syncOut = some b →
    trip = (z.devTime : Int) - b - ((flitW2 f 5 : Int) - flitW2 f 3) →
    ds = ((625 * trip - 32 * signed 16 (s.rf (preg n 0x040) 31 16)) :: (s.port n).delays).take 64 →
    Yields (.echo t n f) s fun u =>
      u.port n = { s.port n with syncOut := none, exchanges := (s.port n).exchanges + 1, delays := ds } ∧
        (ds.sum % (1250 * ds.length : Nat) = 0 →
          u.rd (preg n 0x04C) = word (unsigned 24 (ds.sum / (1250 * ds.length : Nat)))) ∧
        u.rb (preg n 0x044) 19 = decide (25600 * 1250 * (ds.length : Int) < ds.sum) ∧
        (∀ k, k ≠ n.val → u.port k = s.port k) ∧
        Only [preg n 0x04C, preg n 0x044, reg (pPort n) oEvent] (.lat :: .free :: eventParts) s u) ∧
  (∀ (t : Nat) (s z : State), z = s.upTo t → s.isOn pCar = true → s.role = 3 → (s.lat.beatFrom : Int) ≤ z.ltime →
    Yields (.beatSend t) s fun u =>
      (∀ p, p ∈ s.usablePorts → Sends p s u fun g => g.cls = 2 ∧ g.typ = 1 ∧ g.src = s.ownAddr ∧
        flitW2 g 3 = unsigned 64 z.ltime ∧ flitW g 5 = s.ownAddr.toNat ∧ flitW g 6 = (s.rd (car 0x048)).toNat ∧
        flitW g 7 = 0) ∧
        u.lat.beatFrom = z.nextBeat ∧ u.role = 3) ∧
  (∀ (t : Nat) (n : Fin 8) (f : Flit) (root hops : Nat) (s z : State), z = s.upTo t → f.cls = 2 → f.typ = 1 →
    root = flitW f 5 % 65536 → hops = flitW f 7 + 1 → flitW f 7 < 255 → s.isOn pCar = true → s.usable n = true →
    (s.role = 1 ∧ s.lat.lostRoot ≠ some root ∨ s.role = 3 ∧ root < s.ownAddr.toNat ∨
      s.role = 2 ∧ root = s.rootAddr ∧ ((s.port n).beatIn = true ∨ hops < s.treeHops ∨ hops = s.treeHops ∧ n < s.parent) ∨
      s.role = 2 ∧ root ≠ s.rootAddr ∧ (s.lat.lastBeat + us 3 ≤ z.now ∨ root < s.rootAddr)) →
    (s.role = 1 ∨ root ≠ s.rootAddr → CanReroot s) →
    Yields (.beat t n f) s fun u =>
      Follows n root hops ((flitW2 f 3 : Int) + s.rf (preg n 0x04C) 23 0) u ∧ u.rd (car 0x048) = word (flitW f 6) ∧
        u.lat.lastBeat = z.now ∧ u.lat.beatSeen = true ∧ u.lat.lostRoot = none ∧ u.ledger.reroot = false ∧
        (u.port n).beatIn = true ∧
        (s.rootAddr ≠ root → u.rb (reg pCar oEvent) 0 = true) ∧
        (s.lockedTime = false → u.rb (reg pCar oEvent) 2 = true) ∧
        ∀ p, p ∈ s.usablePorts → p ≠ n.val →
          Sends p s u fun g => g.cls = 2 ∧ g.typ = 1 ∧ flitW g 5 = root ∧ flitW g 7 = hops) ∧
  (∀ (t : Nat) (n : Fin 8) (f : Flit) (root : Nat) (c : Claim × Nat) (s z : State), z = s.upTo t → f.cls = 2 → f.typ = 1 →
    root = flitW f 5 % 65536 → s.isOn pCar = true → s.usable n = true →
    (s.role = 1 ∧ s.lat.lostRoot ≠ some root ∨ s.role = 3 ∧ root < s.ownAddr.toNat ∧ root ≠ s.rootAddr) →
    s.ledger.reroot = false → s.clashing [resUnit pCar] = some c → s.inSelftest pLedger = false →
    Yields (.beat t n f) s fun u =>
      u.role = 0 ∧ u.lockedTime = false ∧ u.rootAddr = s.rootAddr ∧ u.ledger.reroot = false ∧
        (∀ p, p < 8 → u.rb (preg p 0x044) 18 = false) ∧ u.rb (reg pLedger oEvent) 2 = true) ∧
  (∀ (t : Nat) (n : Fin 8) (f : Flit) (root : Nat) (s z : State), z = s.upTo t → f.cls = 2 → f.typ = 1 →
    root = flitW f 5 % 65536 → (s.isOn pCar = false ∨ s.usable n = false ∨ s.role = 3 ∧ s.ownAddr.toNat ≤ root ∨
      s.role = 2 ∧ z.now < s.lat.lastBeat + us 3 ∧ s.rootAddr < root ∨
      s.role = 2 ∧ root = s.rootAddr ∧ (s.port n).beatIn = false ∧ s.treeHops < flitW f 7 % 256 + 1) →
    Yields (.beat t n f) s fun u => Only [] [.lat] s u ∧ u.lat.ltOff = s.lat.ltOff) ∧
  (∀ (t : Nat) (s z : State), z = s.upTo t → s.isOn pCar = true → s.role = 1 → s.lat.electSince + us 8 ≤ z.now →
    s.eligible = true → s.lat.lostRoot ≠ some s.ownAddr.toNat → s.lowerListed s.lat.lostRoot = false → CanReroot s →
    Yields (.electionTimeout t) s fun u =>
      IsRoot u ∧ u.lat.beatFrom = z.nextBeat ∧ u.ledger.reroot = false ∧
        (∀ n, n < 8 → u.rb (preg n 0x044) 18 = (s.usable n && !(s.port n).beatIn)) ∧
        (s.rootAddr ≠ s.ownAddr.toNat → u.rb (reg pCar oEvent) 0 = true) ∧
        Only (car 0x044 :: reg pCar oEvent :: reg pLedger oEvent :: (List.range 8).map fun n => preg n 0x044)
          (.lat :: .ledger :: eventParts) s u) ∧
  (∀ (t : Nat) (s z : State), z = s.upTo t → s.isOn pCar = true → s.role = 2 → s.lat.lastBeat + us 8 ≤ z.now →
    s.eligible = false → s.clashing [resUnit pCar] = none →
    Yields (.beatTimeout t) s fun u =>
      Elects s.rootAddr s u ∧ u.lat.electSince = z.now ∧
        ∀ p, p ∈ s.usablePorts → Sends p s u fun g => g.cls = 2 ∧ g.typ = 5 ∧ flitW g 3 = s.rootAddr) ∧
  (∀ (t : Nat) (s z : State), z = s.upTo t → s.isOn pCar = true → s.role = 2 → s.lat.lastBeat + us 8 ≤ z.now →
    s.eligible = true → s.rootAddr ≠ s.ownAddr.toNat → s.lowerListed (some s.rootAddr) = false →
    s.clashing [resUnit pCar] = none →
    Yields (.beatTimeout t) s fun u => IsRoot u ∧ u.ledger.reroot = false) ∧
  (∀ (t lost : Nat) (n : Fin 8) (f : Flit) (s : State), Arrives n f s → f.cls = 2 → f.typ = 5 → s.isOn pCar = true →
    lost = flitW f 3 % 65536 → (2 ≤ s.role ∧ lost = s.rootAddr ∨ 1 ≤ s.role ∧ s.lat.lastLost ≠ some lost) →
    s.eligible = false → s.clashing [resUnit pCar] = none → f.hops < 63 →
    Yields (.rootLost t n f) s fun u =>
      Elects lost s u ∧ ∀ p, p ∈ s.usablePorts → p ≠ n.val → Sends p s u fun g => g.hops = f.hops + 1 ∧ g.body = f.body) ∧
  (∀ (t : Nat) (n : Fin 8) (f : Flit) (s : State), Arrives n f s → f.cls = 2 → f.typ = 5 →
    (s.role = 1 ∨ flitW f 3 % 65536 ≠ s.rootAddr) → s.lat.lastLost = some (flitW f 3 % 65536) →
    Yields (.rootLost t n f) s fun u => u.role = s.role ∧ Only [] [.lat] s u) ∧
  (∀ (t a : Nat) (l : List Nat) (s z : State), z = s.upTo t → s.isOn pCar = true → s.role = 3 → a < 65536 →
    (s.lat.census.filter fun e => e.2.info.eligible && decide (e.1 < s.ownAddr.toNat) &&
      decide (e.2.since + ms 10 ≤ z.now)).map (·.1) = a :: l → CanReroot s →
    Yields (.rootHandover t) s fun u =>
      u.role = 2 ∧ u.rootAddr = s.rootAddr ∧ u.lockedTime = true ∧ u.lat.lastBeat = z.now ∧
        (∀ p, p < 8 → s.inTree p = true → Sends p s u fun g => g.cls = 2 ∧ g.typ = 6 ∧ flitW g 3 = a ∧
          flitW2 g 4 = z.nextBeat % 2 ^ 64) ∧ u.ledger = { s.ledger with reroot := true } ∧
        Only [car 0x044] [.lat, .ledger, .out, .free] s u) ∧
  (∀ (t : Nat) (n : Fin 8) (f : Flit) (s : State), Arrives n f s → f.cls = 2 → f.typ = 6 → s.isOn pCar = true →
    s.role = 2 → flitW f 3 % 65536 = s.ownAddr.toNat → CanReroot s →
    Yields (.handover t n f) s fun u => IsRoot u ∧ u.lat.beatFrom = flitW2 f 4 ∧ u.ledger.reroot = false) ∧
  (∀ (t : Nat) (n : Fin 8) (f : Flit) (s : State), Arrives n f s → f.cls = 2 → f.typ = 6 → s.isOn pCar = true →
    s.role = 2 → flitW f 3 % 65536 ≠ s.ownAddr.toNat → f.hops < 63 →
    Yields (.handover t n f) s fun u =>
      (∀ p, p < 8 → p ≠ n.val → s.inTree p = true → Sends p s u fun g => g.hops = f.hops + 1 ∧ g.body = f.body) ∧
        Only [] [.lat, .out, .free] s u)

/-- Global domains, the compatibility word and the lattice time (R282, R286, R287).
Model's choices: assumptions 113, 115, 118, 119. -/
def Obligations.GlobalDomains : Prop :=
  (∀ (t : Nat) (d : Fin 16) (g : Nat) (s z : State), z = s.upTo t → g = s.pubGdom d → s.isOn (pDom d) = true →
    s.pubEn d = true → s.treeStands = true → (s.lat.segSent.find? (·.1 = g)).all (fun e => e.2 + us 2 ≤ z.now) = true →
    Yields (.segmentSend t d) s fun u =>
      (∃ x, u.gseg g = some x ∧ x.pos = z.posAt d z.now ∧ x.cyc = z.cycAt d z.now ∧ x.vel = z.velNow d ∧ x.acc = z.segAcc d ∧
        x.ltime = z.ltime.toNat ∧ x.publisher = s.ownAddr ∧ x.arrived = z.now) ∧
        u.lat.segSent = tabPut s.lat.segSent g z.now ∧
        ∀ p, p < 8 → s.inTree p = true → Sends p s u fun f => f.cls = 2 ∧ f.typ = 4 ∧ f.src = s.ownAddr ∧ flitW f 3 = g) ∧
  (∀ (t : Nat) (n : Fin 8) (f : Flit) (s z : State), z = s.upTo t → Arrives n f s → f.cls = 2 → f.typ = 4 →
    s.isOn pCar = true → f.hops < 63 →
    Yields (.segment t n f) s fun u =>
      u.lat.gdoms = tabPut s.lat.gdoms (flitW f 3 % 256) {
        pos := flitW2 f 4, cyc := flitW f 6, vel := signed 64 (flitW2 f 7), acc := signed 32 (flitW f 9)
        modulus := flitW2 f 10 / 4096, ltime := flitW2 f 12, publisher := f.src, arrived := z.now } ∧
        ∀ p, p < 8 → p ≠ n.val → s.inTree p = true → Sends p s u fun g => g.hops = f.hops + 1 ∧ g.body = f.body) ∧
  (∀ (t : Nat) (a : Agent) (d : Fin 16) (v : Word) (s z : State), z = s.upTo t → Opens a pCar s → bit v 31 = true →
    (∀ e, e < 16 → e ≠ d.val → s.pubEn e = true → s.pubGdom e ≠ fld v 7 0) →
    (z.gdomCurrent (fld v 7 0) = true → (z.gseg (fld v 7 0)).any (·.publisher != s.ownAddr) = false) →
    Yields (.pubEnable t a d v) s fun u =>
      u.rd (car (0x100 + 4 * d)) = v &&& 0x800000FF ∧ u.resp = .ok ∧ Only [car (0x100 + 4 * d)] [.resp] s u) ∧
  (∀ (t : Nat) (a : Agent) (d : Fin 16) (v : Word) (s z : State), z = s.upTo t → Opens a pCar s → bit v 31 = true →
    ((List.range 16).any (fun e => e != d.val && s.pubEn e && s.pubGdom e = fld v 7 0) = true ∨
      z.gdomCurrent (fld v 7 0) = true ∧ (z.gseg (fld v 7 0)).any (·.publisher != s.ownAddr) = true) →
    Yields (.pubEnable t a d v) s fun u =>
      u.rd (car (0x100 + 4 * d)) = v &&& 0xFF ∧ u.rf (reg pCar oStatus) 15 8 = Reason.conflict.code ∧
        u.rb (reg pCar oEvent) 8 = true ∧ u.resp = .refused ∧
        Only [car (0x100 + 4 * d), reg pCar oStatus, reg pCar oEvent] (.resp :: eventParts) s u) ∧
  (∀ (t : Nat) (a : Agent) (v : Word) (s : State), Opens a pCar s → s.isOn pCar = true →
    (s.role = 3 ∨ s.lat.beatSeen = false) →
    Yields (.latticeCompatWrite t a v) s fun u =>
      u.rd (car 0x048) = v ∧ (s.rd (car 0x048) ≠ v → u.rb (reg pCar oEvent) 7 = true) ∧ u.resp = .ok ∧
        Only [car 0x048, reg pCar oEvent] (.resp :: eventParts) s u) ∧
  (∀ (t : Nat) (a : Agent) (v : Word) (s : State), Opens a pCar s → s.isOn pCar = true → s.role = 2 →
    s.lat.beatSeen = true → s.linkUp s.parent = true →
    Yields (.latticeCompatWrite t a v) s fun u =>
      Sends s.parent s u (fun g => g.cls = 2 ∧ g.typ = 7 ∧ flitW g 3 = v.toNat) ∧ Only [] [.lat, .out, .free, .resp] s u) ∧
  (∀ (t : Nat) (n : Fin 8) (f : Flit) (s : State), Arrives n f s → f.cls = 2 → f.typ = 7 → s.isOn pCar = true →
    s.role = 3 →
    Yields (.compatSet t n f) s fun u =>
      u.rd (car 0x048) = word (flitW f 3) ∧ (s.rd (car 0x048) ≠ word (flitW f 3) → u.rb (reg pCar oEvent) 7 = true) ∧
        Only [car 0x048, reg pCar oEvent] (.lat :: eventParts) s u) ∧
  (∀ (t : Nat) (n : Fin 8) (f : Flit) (s : State), Arrives n f s → f.cls = 2 → f.typ = 7 → s.isOn pCar = true →
    s.role = 2 → s.linkUp s.parent = true → f.hops < 63 →
    Yields (.compatSet t n f) s fun u =>
      Sends s.parent s u (fun g => g.hops = f.hops + 1 ∧ g.body = f.body) ∧ Only [] [.lat, .out, .free] s u) ∧
  (∀ (t : Nat) (s z : State), z = s.upTo t → Reads pCar s → s.lockedTime = true →
    Yields (.ltimeLoRead t) s fun u =>
      u.rdata = unsigned 64 z.ltime % 2 ^ 32 ∧ u.rd (car 0x050) = word (unsigned 64 z.ltime) ∧
        u.rd (car 0x054) = word (unsigned 64 z.ltime / 2 ^ 32) ∧
        Only [car 0x050, car 0x054] [.free, .rdata] s u)

/-- Why a sending is refused, if it is. -/
def errorOf (x : Except (Reason × Bool) Int) : Option (Reason × Bool) :=
  match x with
  | .error e => some e
  | .ok _ => none

/-- A Peal of descriptor `n` with total position `tot` left along the tree (R290). -/
def PealOut (n : Nat) (tot : Int) (s u : State) : Prop :=
  (∀ p, p < 8 → s.inTree p = true → Sends p s u fun f => f.cls = 3 ∧ f.src = s.ownAddr ∧
    f.body = .peal (s.rf (desc n 8) 7 0) tot (s.rf (desc n 8) 21 16) (BitVec.ofNat 16 (s.rf (desc n 12) 31 16))
      (BitVec.ofNat 16 (s.rf (desc n 12) 15 0)) (BitVec.ofNat 16 ((s.lat.pealSeq + 1) % 65536))) ∧
    u.lat.pealSeq = (s.lat.pealSeq + 1) % 65536 ∧ u.rf (car 0x204) 15 0 = (s.rf (car 0x204) 15 0 + 1) % 65536

/-- Peals: sending, refusal, holding, release and arrival (R160, R288 to R291).
Model's choices: assumptions 69, 116, 181. -/
def Obligations.Peals : Prop :=
  (∀ (t n : Nat) (a : Agent) (v : Word) (tot : Int) (s z : State), z = s.upTo t → Opens a pCar s → bit v 4 = true →
    n = fld v 3 0 → (z.pealForm n (s.posPair (desc n 0) (desc n 4))).toOption = some tot → s.treeStands = true →
    Yields (.pealSend t a v) s fun u => PealOut n tot s u ∧ u.rb (reg pCar oEvent) 9 = true ∧ u.resp = .ok) ∧
  (∀ (t n : Nat) (a : Agent) (v : Word) (tot : Int) (s z : State), z = s.upTo t → Opens a pCar s → bit v 4 = true →
    n = fld v 3 0 → (z.pealForm n (s.posPair (desc n 0) (desc n 4))).toOption = some tot → s.treeStands = false →
    Yields (.pealSend t a v) s fun u =>
      u.lat.held = s.lat.held ++ [s.pealOf n tot] ∧ u.resp = .ok ∧ Only [] [.lat, .resp] s u) ∧
  (∀ (t n : Nat) (a : Agent) (v : Word) (r : Reason) (short : Bool) (s z : State), z = s.upTo t → Opens a pCar s →
    bit v 4 = true → n = fld v 3 0 → errorOf (z.pealForm n (s.posPair (desc n 0) (desc n 4))) = some (r, short) →
    Yields (.pealSend t a v) s fun u =>
      u.rf (car 0x204) 31 24 = r.code ∧ u.rb (car 0x204) 23 = short ∧ u.rf (car 0x204) 19 16 = n ∧
        u.rf (car 0x204) 15 0 = s.rf (car 0x204) 15 0 ∧ u.rb (reg pCar oEvent) 4 = true ∧
        Only [car 0x204, reg pCar oEvent] (.resp :: eventParts) s u) ∧
  (∀ (t w n p : Nat) (q : Fin 48) (tot : Int) (s z : State), z = s.upTo t → Executes q 0x2C w z → n = bits w 3 0 →
    p = (if nbit w 4 then (s.gpr q (iA w)).toNat * 4096 else s.posPair (desc n 0) (desc n 4)) →
    (z.pealForm n p).toOption = some tot → s.treeStands = true →
    Yields (.peal t q) s fun u => PealOut n tot s u ∧ u.pcOf q = (s.pcOf q + 1) % 2 ^ 20) ∧
  (∀ (t w n p : Nat) (q : Fin 48) (tot : Int) (s z : State), z = s.upTo t → Executes q 0x2C w z → n = bits w 3 0 →
    p = (if nbit w 4 then (s.gpr q (iA w)).toNat * 4096 else s.posPair (desc n 0) (desc n 4)) →
    (z.pealForm n p).toOption = some tot → s.treeStands = false →
    Yields (.peal t q) s fun u =>
      u.lat.held = s.lat.held ++ [s.pealOf n tot] ∧ Retires q (s.pcOf q + 1) [] [.lat] s u) ∧
  (∀ (t w n p : Nat) (q : Fin 48) (r : Reason) (short : Bool) (s z : State), z = s.upTo t → Executes q 0x2C w z →
    n = bits w 3 0 → p = (if nbit w 4 then (s.gpr q (iA w)).toNat * 4096 else s.posPair (desc n 0) (desc n 4)) →
    errorOf (z.pealForm n p) = some (r, short) →
    Yields (.peal t q) s fun u =>
      u.rf (car 0x204) 31 24 = r.code ∧ Retires q (s.pcOf q + 1) [car 0x204, reg pCar oEvent] eventParts s u) ∧
  (∀ (t : Nat) (w : HeldPeal) (x : GSeg) (s z : State), z = s.upTo t → s.treeStands = true → s.lockedTime = true →
    s.lat.held = [w] → s.gseg w.gdom = some x → z.gdomCurrent w.gdom = true →
    trajAt (s.gsegTraj x) z.now + (z.lead x * 4096 : Nat) * posUnit ≤ w.total →
    Yields (.pealRelease t) s fun u =>
      u.lat.held = [] ∧ u.lat.pealSeq = (s.lat.pealSeq + 1) % 65536 ∧
        u.rf (car 0x204) 15 0 = (s.rf (car 0x204) 15 0 + 1) % 65536 ∧ u.rb (reg pCar oEvent) 9 = true ∧
        ∀ p, p < 8 → s.inTree p = true → Sends p s u fun f => f.cls = 3 ∧
          f.body = .peal w.gdom w.total w.mark w.mask w.addr (BitVec.ofNat 16 ((s.lat.pealSeq + 1) % 65536))) ∧
  (∀ (t : Nat) (w : HeldPeal) (x : GSeg) (s z : State), z = s.upTo t → s.treeStands = true → s.lockedTime = true →
    s.lat.held = [w] → w.desc < 16 → s.gseg w.gdom = some x → z.gdomCurrent w.gdom = true →
    w.total < trajAt (s.gsegTraj x) z.now + (z.lead x * 4096 : Nat) * posUnit →
    Yields (.pealRelease t) s fun u =>
      u.lat.held = [] ∧ u.rf (car 0x204) 31 24 = Reason.range.code ∧ u.rb (car 0x204) 23 = true ∧
        u.rb (reg pCar oEvent) 4 = true ∧ Only [car 0x204, reg pCar oEvent] (.lat :: eventParts) s u) ∧
  (∀ (t g m : Nat) (tot : Int) (mask addr seq : BitVec 16) (n : Fin 8) (f : Flit) (s z : State), z = s.upTo t →
    Arrives n f s → f.cls = 3 → f.hops < 63 → f.body = .peal g tot m mask addr seq → s.isOn pCar = true →
    (s.lat.pealSeen.find? (·.1 = f.src.toNat)).all (fun e => (seq.toNat + 65536 - e.2) % 65536 != 0 &&
      decide ((seq.toNat + 65536 - e.2) % 65536 < 32768)) = true →
    Yields (.pealFlit t n f) s fun u =>
      u.lat.pealSeen = tabPut s.lat.pealSeen f.src.toNat seq.toNat ∧
        (∀ p, p < 8 → p ≠ n.val → s.inTree p = true → Sends p s u fun h => h.hops = f.hops + 1 ∧ h.body = f.body) ∧
        (s.ownAddr &&& mask = addr &&& mask → u.rb (reg pCar oEvent) 5 = true ∧
          ∀ d, d < 16 → s.isOn (pDom d) = true → s.srcType d = 4 → s.srcGdom d = g → s.armed d (m % 64) = true →
            bit (s.markCtrl d (m % 64)) 3 = true → z.totalAt d z.now < tot →
            (u.dom d).peals = (s.dom d).peals ++ [{ mark := m % 64, total := tot }]) ∧
        (s.ownAddr &&& mask ≠ addr &&& mask → Only [] [.lat, .out, .free] s u)) ∧
  (∀ (t g m : Nat) (tot : Int) (mask addr seq : BitVec 16) (n : Fin 8) (k l : Nat) (f : Flit) (s : State),
    Arrives n f s → f.cls = 3 → f.body = .peal g tot m mask addr seq →
    s.lat.pealSeen.find? (·.1 = f.src.toNat) = some (k, l) → l = seq.toNat →
    Yields (.pealFlit t n f) s fun u => u.lat.pealSeen = s.lat.pealSeen ∧ Only [] [.lat] s u)

/-- A Gong of an identity and a cause is in force: GONG_STAT, GONG_LAST and GONG_CAUSE show it, every sequencer that ran is
HALTED with CAUSE GONG, and no swap request stands armed (R164, R260, R293, R294). -/
def Rung (id : BitVec 32) (cause : Nat) (s u : State) : Prop :=
  u.gong = true ∧ u.rd (rtr 0x068) = word id.toNat ∧ u.rd (rtr 0x06C) = word cause ∧ id ∈ u.lat.gongs ∧
    u.lat.cleared = false ∧ (s.inSelftest pRtr = false → u.rb (reg pRtr oEvent) 0 = true) ∧
    (∀ q, q < 48 → s.running q = true → u.runOf q = 4 ∧ u.rf (qreg q 0x05C) 11 8 = 4) ∧
    ∀ n, n < 8 → s.swapState n = 1 ∨ s.swapState n = 2 → u.swapState n = 0

/-- Gong: ringing, clearing and the ABORT_N pin (R292 to R296, Table 9.8). Model's choices: assumption 117. -/
def Obligations.Gong : Prop :=
  (∀ (t : Nat) (a : Agent) (v : Word) (id : BitVec 32) (s : State), privileged a = true → Opens a pRtr s →
    bit v 0 = true → bit v 1 = false → s.rb (rtr 0x060) 0 = false →
    id = BitVec.ofNat 32 (s.ownAddr.toNat * 65536 + (s.lat.gongSeq + 1) % 65536) →
    Yields (.ring t a v) s fun u =>
      Rung id 1 s u ∧ u.rd (rtr 0x060) = v &&& 0xD ∧ u.resp = .ok ∧
        ∀ p, p < 8 → s.linkUp p = true → Sends p s u fun g => g.cls = 1 ∧ g.typ = 1 ∧ flitW g 3 = id.toNat ∧ flitW g 4 = 1) ∧
  (∀ (t : Nat) (a : Agent) (v : Word) (s : State), privileged a = true → Opens a pRtr s → bit v 0 = false →
    bit v 1 = true → s.gong = true → s.lat.abortLow = false →
    Yields (.clear t a v) s fun u =>
      u.gong = false ∧ u.lat.cleared = true ∧ u.rd (rtr 0x060) = v &&& 0xD ∧ u.rb (reg pRtr oEvent) 1 = true ∧
        ∀ p, p < 8 → s.linkUp p = true → Sends p s u fun g => g.cls = 1 ∧ g.typ = 2 ∧
          flitW g 3 = (s.rd (rtr 0x068)).toNat) ∧
  (∀ (t : Nat) (a : Agent) (v : Word) (s : State), privileged a = true → Opens a pRtr s → bit v 0 = true →
    bit v 1 = true → s.gong = true → s.rb (rtr 0x060) 0 = true →
    Yields (.clear t a v) s fun u =>
      u.gong = true ∧ u.lat.cleared = true ∧ Only [rtr 0x060] [.lat, .out, .free, .resp] s u) ∧
  (∀ (t : Nat) (a : Agent) (v : Word) (s : State), privileged a = false →
    Yields (.ring t a v) s fun u => u.resp = .denied ∧ Only [] [.resp] s u) ∧
  (∀ (t : Nat) (n : Fin 8) (f : Flit) (id : BitVec 32) (s : State), Arrives n f s → f.cls = 1 → f.typ = 1 →
    id = BitVec.ofNat 32 (flitW f 3) → id ∉ s.lat.gongs → f.hops < 63 →
    Yields (.gongRingFlit t n f) s fun u =>
      Rung id (flitW f 4 % 16) s u ∧
        ∀ p, p < 8 → p ≠ n.val → s.linkUp p = true → Sends p s u fun g => g.hops = f.hops + 1 ∧ g.body = f.body) ∧
  (∀ (t : Nat) (n : Fin 8) (f : Flit) (s : State), Arrives n f s → f.cls = 1 → f.typ = 1 →
    BitVec.ofNat 32 (flitW f 3) ∈ s.lat.gongs →
    Yields (.gongRingFlit t n f) s fun u => u.gong = s.gong ∧ Only [] [.lat] s u) ∧
  (∀ (t : Nat) (n : Fin 8) (f : Flit) (s : State), Arrives n f s → f.cls = 1 → f.typ = 2 →
    flitW f 3 = (s.rd (rtr 0x068)).toNat → s.gong = true → s.lat.abortLow = false → s.rb (rtr 0x060) 0 = false →
    s.inSelftest pRtr = false →
    Yields (.gongClearFlit t n f) s fun u =>
      u.gong = false ∧ u.lat.cleared = true ∧ u.rb (reg pRtr oEvent) 1 = true ∧ u.rd (rtr 0x068) = s.rd (rtr 0x068)) ∧
  (∀ (t : Nat) (n : Fin 8) (f : Flit) (s : State), Arrives n f s → f.cls = 1 → f.typ = 2 → flitW f 3 < 2 ^ 32 →
    flitW f 3 ≠ (s.rd (rtr 0x068)).toNat → s.lat.cleared = false →
    Yields (.gongClearFlit t n f) s fun u => u.gong = s.gong ∧ Only [] [.lat, .out, .free] s u) ∧
  (∀ (t : Nat) (s z : State), z = s.upTo t →
    Yields (.abortNFall t) s fun u =>
      u.lat.abortLow = true ∧
        u.lat.abortFall = (if s.rb (rtr 0x060) 3 && !s.drivesAbort then some z.now else none) ∧ Only [] [.lat] s u) ∧
  (∀ (t b : Nat) (id : BitVec 32) (s z : State), z = s.upTo t → s.lat.abortFall = some b → b + ns 100 ≤ z.now →
    id = BitVec.ofNat 32 (s.ownAddr.toNat * 65536 + (s.lat.gongSeq + 1) % 65536) →
    Yields (.abortFilterExpiry t) s fun u => Rung id 2 s u ∧ u.lat.abortFall = none) ∧
  (∀ (t : Nat) (s : State), s.gong = true → s.lat.cleared = true → s.rb (rtr 0x060) 0 = false →
    s.inSelftest pRtr = false →
    Yields (.abortNRise t) s fun u =>
      u.gong = false ∧ u.lat.abortLow = false ∧ u.lat.abortFall = none ∧ u.rb (reg pRtr oEvent) 1 = true) ∧
  (∀ (t : Nat) (s : State), (s.gong = false ∨ s.lat.cleared = false ∨ s.rb (rtr 0x060) 0 = true) →
    Yields (.abortNRise t) s fun u =>
      u.lat.abortLow = false ∧ u.lat.abortFall = none ∧ Only [] [.lat] s u)

/-- A word of a BAR2 window that a write with byte enables `be` can change: vector memory that takes the merged word, deep
memory that no access of port A collides with, result memory or program memory of a unit neither under test nor held, with
no write of the same cycle that comes later in its order (R139, R195, R441, R442). -/
abbrev Window (off be : Nat) (v : Word) (s : State) : Prop :=
  off % 4 = 0 ∧
    (off < 0x01800000 ∧ s.memShut (pSeq (off / 0x80000)) = false ∧ vecBad (mergeBytes be (s.memWord off) v) = false ∧
        s.outranked (memKey off) 0 = false ∨
      0x02000000 ≤ off ∧ off < 0x02800000 ∧ s.deepHeld ((off - 0x02000000) / 0x80000) = false ∧
        s.deepClash ((off - 0x02000000) / 0x80000) (off % 0x80000 / 8) true true = none ∨
      0x03000000 ≤ off ∧ off < 0x03600000 ∧ s.memShut (pSeq ((off - 0x03000000) / 0x20000)) = false ∧
        s.outranked (memKey off) 0 = false ∨
      0x03800000 ≤ off ∧ off < 0x03B00000 ∧ s.memShut (pSeq ((off - 0x03800000) / 0x10000)) = false)

/-- A COMMIT whose header read waits for D0 (R308). -/
def headerDue (c : ImgCmd) : Bool := c.fetch && !c.asked

/-- The state that an access to `off` of BAR2 finds: in a deep memory, with the words of dump records that port B has written. -/
def bar2Finds (off : Nat) (z : State) : State := if 0x02000000 ≤ off ∧ off < 0x02800000 then z.dumpSync else z

/-- The endpoint was reset: the PCIE page but for LINK_STAT and EVENT, configuration space, the MSI-X state, the HOST queue and
the remote accesses under way; a header read that waited is not issued, since Bus Master Enable is 0 (R308, R309). -/
def EndpointReset (s u : State) : Prop :=
  (∀ k, k / 4096 = pPcie → k ≠ reg pPcie 0x040 → k ≠ reg pPcie oEvent →
    (k = reg pPcie 0x044 → s.store.cmd.any headerDue = false) → u.rd k = regReset k) ∧ u.ep.busMaster = false ∧
    u.ep.d3hot = false ∧ u.ep.funcMask = false ∧ u.ep.masked = [] ∧ u.ep.table = [] ∧ u.ep.bar0 = 0 ∧ u.ep.bar2 = 0 ∧
    u.ep.bar4 = 0 ∧ (u.dq 1).held = [] ∧ (∀ j, j ∈ (u.dq 1).running → j.ended.isSome = true) ∧
    ((s.dq 1).comps.length + (s.dq 1).held.length + (s.dq 1).running.length ≤ 64 → (u.dq 1).running = []) ∧
    (s.store.cmd.any headerDue = true → ImageResult 0x0A 0 s u) ∧
    u.lat.remotes = [] ∧ u.mem = s.mem ∧ u.doms = s.doms ∧ u.groups = s.groups

/-- The PCI Express endpoint: MSI-X, resets, power states, links, BAR2 and bus-master reads (R139, R304, R307 to R310, R420,
R441, R442). Model's choices: assumptions 6, 67, 121, 208. -/
def Obligations.PcieEndpoint : Prop :=
  (∀ (t : Nat) (v : Fin 256) (s : State), tabGet false s.ep.pend v = true → s.ep.funcMask = false → s.cond v = true →
    s.ep.d3hot = false → s.pwr.serving = true →
    Yields (.msixUnmask t (some v)) s fun u =>
      .msix v ∈ u.out ∧ tabGet false u.ep.pend v = false ∧ tabGet true u.ep.masked v = false ∧
        Only [] [.ep, .out] s u) ∧
  (∀ (t : Nat) (v : Fin 256) (s : State), tabGet false s.ep.pend v = true → s.ep.d3hot = true → s.pwr.serving = true →
    Yields (.msixUnmask t (some v)) s fun u =>
      tabGet false u.ep.pend v = true ∧ tabGet true u.ep.masked v = false ∧ Only [] [.ep] s u) ∧
  (∀ (t : Nat) (v : Fin 256) (s : State), s.cond v = false → s.pwr.serving = true →
    Yields (.msixUnmask t (some v)) s fun u => tabGet true u.ep.masked v = false ∧ Only [] [.ep] s u) ∧
  (∀ (t : Nat) (s : State), s.ep.d3hot = false → s.retryStatus = false →
    Yields (.msixUnmask t none) s fun u =>
      u.ep.funcMask = false ∧
        (∀ v, tabGet false s.ep.pend v = true → tabGet true s.ep.masked v = false → s.cond v = true → .msix v ∈ u.out) ∧
        Only [] [.ep, .out] s u) ∧
  (∀ e, e ∈ [(Instr.hotReset, 4), (Instr.linkDownReset, 1)] → ∀ (t : Nat) (s : State),
    Yields (e.1 t) s fun u =>
      EndpointReset s u ∧ u.rd (reg pPcie 0x040) = 0 ∧ u.rb (reg pPcie oEvent) e.2 = true ∧ u.ep.perst = s.ep.perst) ∧
  (∀ (t : Nat) (s : State), s.retryStatus = false →
    Yields (.flr t) s fun u =>
      EndpointReset s u ∧ u.rd (reg pPcie 0x040) = s.rd (reg pPcie 0x040) ∧ u.rb (reg pPcie oEvent) 3 = true) ∧
  (∀ (t : Nat) (enter bme : Bool) (c : PcieCfg) (s : State), s.retryStatus = true →
    Yields (.flr t) s (fun u => u.resp = .retry ∧ Only [] [.resp] s u) ∧
      Yields (.msixUnmask t none) s (fun u => u.resp = .retry ∧ Only [] [.resp] s u) ∧
      Yields (.d3hot t enter bme c) s fun u => u.resp = .retry ∧ Only [] [.resp] s u) ∧
  (∀ (t : Nat) (s : State), s.ep.perst = false → s.rb (reg pPcie 0x040) 0 = true →
    Yields (.perstN t false) s fun u =>
      EndpointReset s u ∧ u.ep.perst = true ∧ u.rd (reg pPcie 0x040) = 0 ∧ u.rb (reg pPcie oEvent) 1 = true) ∧
  (∀ (t : Nat) (s : State), s.ep.perst = false → s.rb (reg pPcie 0x040) 0 = false →
    Yields (.perstN t false) s fun u => EndpointReset s u ∧ u.ep.perst = true ∧ u.rd (reg pPcie 0x040) = 0) ∧
  (∀ (t : Nat) (s : State),
    Yields (.perstN t true) s fun u => u.ep = { s.ep with perst := false } ∧ Only [] [.ep] s u) ∧
  (∀ (t : Nat) (enter bme : Bool) (c : PcieCfg) (s : State), s.retryStatus = false →
    Yields (.d3hot t enter bme c) s fun u =>
      u.ep.d3hot = enter ∧ u.ep.busMaster = bme ∧ u.ep.funcMask = c.fmask ∧ u.ep.bar0 = c.bar0 ∧ u.ep.bar2 = c.bar2 ∧
        u.ep.bar4 = c.bar4 ∧
        (s.store.cmd.any headerDue = false → enter = false → c.fmask = false → ∀ v, tabGet false s.ep.pend v = true →
          tabGet true s.ep.masked v = false → s.cond v = true → .msix v ∈ u.out) ∧
        (s.store.cmd.any headerDue = false → Only [] [.ep, .out] s u)) ∧
  (∀ (t : Nat) (enter : Bool) (c : PcieCfg) (k : ImgCmd) (s z : State), z = s.upTo t → s.retryStatus = false →
    s.store.cmd = some k → headerDue k = true →
    Yields (.d3hot t enter true c) s fun u =>
      (enter = false → u.store.cmd = some { k with asked := true, since := z.now } ∧
        .hostRead ((s.rd (ireg 0x050)).toNat + 2 ^ 32 * (s.rd (ireg 0x054)).toNat) 1024 ∈ u.out) ∧
        (enter = true → u.store.cmd = some k) ∧ Only [] [.ep, .store, .out] s u) ∧
  (∀ (t : Nat) (enter : Bool) (c : PcieCfg) (k : ImgCmd) (s : State), s.retryStatus = false →
    s.store.cmd = some k → headerDue k = true →
    Yields (.d3hot t enter false c) s fun u =>
      u.rd (reg pPcie 0x044) = word (0x80000000 + 2 * 0x10000000 + 1 * 0x1000000) ∧ ImageResult 0x0A 0 s u) ∧
  (∀ (t : Nat) (speed : Fin 6) (width : BitVec 5) (s : State), s.ep.perst = false → s.pwr.phase ≠ .reset →
    s.pwr.phase ≠ .fault → s.inSelftest pPcie = false →
    Yields (.pcieLinkUp t speed width) s fun u =>
      u.rd (reg pPcie 0x040) = word (width.toNat * 256 + speed * 2 + 1) ∧
        (s.rb (reg pPcie 0x040) 0 = false → u.rb (reg pPcie oEvent) 0 = true) ∧
        (s.rb (reg pPcie 0x040) 0 = true → s.rf (reg pPcie 0x040) 3 1 ≠ speed → u.rb (reg pPcie oEvent) 2 = true) ∧
        Only [reg pPcie 0x040, reg pPcie oEvent] eventParts s u) ∧
  (∀ (t off : Nat) (be : BitVec 4) (v : Word) (s z : State), z = bar2Finds off (s.upTo t) → s.pwr.serving = true →
    s.pwr.phase ≠ .done → Window off be.toNat v z →
    Yields (.bar2Write t off be (some v)) s fun u =>
      (∀ i, i < 4 → u.byte (off + i) = if be.getLsbD i then (wordBytes v).getD i 0 else z.byte (off + i)) ∧
        (∀ b, b < off ∨ off + 4 ≤ b → u.byte b = z.byte b) ∧ u.resp = .ok ∧
        (∀ q, ∃ x y, u.sq q = { s.sq q with torn := x, fresh := y }) ∧
        (off < 0x03800000 → ∀ q, u.sq q = s.sq q) ∧
        (0x03800000 ≤ off → ∃ e, e ∈ (u.sq ((off - 0x03800000) / 0x10000)).fresh ∧ e.1 = off % 0x10000 / 8 ∧
          e.2.1 = z.now + 4 * seqCycle) ∧
        Only [] [.mem, .taken, .deepLast, .seqs, .resp] z u) ∧
  (∀ (t off : Nat) (be : BitVec 4) (v : Word) (s z : State), z = s.upTo t → s.pwr.serving = true → s.pwr.phase ≠ .done →
    off % 4 = 0 →
    (off < 0x01800000 ∧ vecBad (mergeBytes be.toNat (s.memWord off) v) = false ∨ 0x03000000 ≤ off ∧ off < 0x03600000) →
    z.outranked (memKey off) 0 = true →
    Yields (.bar2Write t off be (some v)) s fun u => u.resp = .ok ∧ Only [] [.resp] s u) ∧
  (∀ (t off : Nat) (v : Word) (s : State), s.pwr.serving = true → s.pwr.phase ≠ .done → off % 4 = 0 →
    off < 0x01800000 → s.memShut (pSeq (off / 0x80000)) = false → vecBad v = true →
    Yields (.bar2Write t off 0xF (some v)) s fun u =>
      u.rf (reg (pSeq (off / 0x80000)) oStatus) 15 8 = Reason.range.code ∧
        u.rb (reg (pSeq (off / 0x80000)) oEvent) 8 = true ∧
        Only [reg (pSeq (off / 0x80000)) oStatus, reg (pSeq (off / 0x80000)) oEvent] (.resp :: eventParts) s u) ∧
  (∀ (t : Nat) (k : Fin 256) (v : Word) (s : State), s.pwr.serving = true →
    Yields (.bar2Write t (0x0FFFE000 + 16 * k + 12) 0xF (some v)) s fun u =>
      tabGet true u.ep.masked k = bit v 0 ∧ tabGet 0 u.ep.table (16 * k + 12) = v ∧ Only [] [.ep, .out, .resp] s u) ∧
  (∀ (t off : Nat) (be : BitVec 4) (s : State), s.pwr.serving = true → off % 4 = 0 →
    (s.pwr.phase ≠ .done ∧ (off < 0x01800000 ∧ s.memShut (pSeq (off / 0x80000)) = false ∨
      0x03000000 ≤ off ∧ off < 0x03600000 ∧ s.memShut (pSeq ((off - 0x03000000) / 0x20000)) = false ∨
      0x03800000 ≤ off ∧ off < 0x03B00000 ∧ s.memShut (pSeq ((off - 0x03800000) / 0x10000)) = false)) →
    Yields (.bar2Write t off be none) s fun u =>
      u.rdata = (s.memWord off).toNat ∧ u.resp = .ok ∧ Only [] [.rdata, .resp] s u) ∧
  (∀ (t off k : Nat) (be : BitVec 4) (s z : State), z = bar2Finds off (s.upTo t) → s.pwr.serving = true → off % 4 = 0 →
    s.pwr.phase ≠ .done → 0x02000000 ≤ off → off < 0x02800000 → k = (off - 0x02000000) / 0x80000 → z.deepHeld k = false →
    z.deepClash k (off % 0x80000 / 8) true false = none → z.deepUndef k (off % 0x80000 / 8) = false →
    Yields (.bar2Write t off be none) s fun u =>
      u.rdata = (z.memWord off).toNat ∧ u.resp = .ok ∧ Only [] [.rdata, .deepLast, .resp] z u) ∧
  (∀ (t : Nat) (v : Fin 256) (be : BitVec 4) (s : State), s.pwr.serving = true →
    Yields (.bar2Write t (0x0FFFF000 + v / 32 * 4) be none) s fun u =>
      nbit u.rdata (v % 32) = tabGet false s.ep.pend v ∧ u.resp = .ok ∧ Only [] [.rdata, .resp] s u) ∧
  (∀ (t o : Nat) (be : BitVec 4) (s : State), s.pwr.serving = true → o < 0x1000 → o % 4 = 0 →
    Yields (.bar2Write t (0x0FFFE000 + o) be none) s fun u =>
      (o % 16 ≠ 12 → u.rdata = (tabGet 0 s.ep.table o).toNat) ∧
        (o % 16 = 12 → nbit u.rdata 0 = tabGet true s.ep.masked (o / 16)) ∧ u.resp = .ok ∧ Only [] [.rdata, .resp] s u) ∧
  (∀ (t off : Nat) (be : BitVec 4) (v : Option Word) (s : State), s.pwr.serving = false →
    Yields (.bar2Write t off be v) s fun u => u.resp = .ur ∧ Only [] [.resp] s u) ∧
  (∀ (t : Nat) (bs : List Byte) (c : ImgCmd) (h : List Word) (s z : State), z = s.upTo t →
    s.store.cmd = some c → c.fetch = true → c.asked = true → h = (List.range 256).map (fun i => bytesWord (bs.drop (4 * i))) →
    headerOk h = true → (s.usableKey (hdr h 0x018)).isSome = true →
    taken (s.claim actCommit agStw ((hdrMask h).map (resBank bLoad)) 500).1 = true →
    Yields (.dmaReadCompletion t true (.data bs)) s fun u =>
      ∃ n, u.store.cmd = some { c with fetch := false, header := h, since := z.now, claim := some n } ∧
        (u.claimOf n).isSome = true) ∧
  (∀ (t : Nat) (bs : List Byte) (c : ImgCmd) (s : State), s.store.cmd = some c → c.fetch = true → c.asked = true →
    headerOk ((List.range 256).map (fun i => bytesWord (bs.drop (4 * i)))) = false →
    Yields (.dmaReadCompletion t true (.data bs)) s fun u => ImageResult 0x01 0 s u) ∧
  (∀ (t q : Nat) (bs : List Byte) (j : Job) (ws : List (BitVec 64)) (s : State), s.fetching = some (q, j) →
    j ∈ (s.dq q).running → j.desc.op = opProgram → j.stopped = none → j.verdict = none → ws = wordsOf (bufLen j.desc / 8) bs →
    (∀ i (h : i < ws.length), 504 ≤ j.desc.first + i → flagOk ws[i] = true) → j.desc.overp = false →
    Yields (.dmaReadCompletion t false (.data bs)) s fun u =>
      { j with fetch := false, data := ws } ∈ (u.dq q).running ∧
        (u.sec j.desc.bank j.desc.sector).state = .programming ∧ (∀ k, (u.dq k).held = (s.dq k).held) ∧
        Only [] [.store, .xips, .free] s u) ∧
  (∀ e, e ∈ [(DmaEnd.ur, 2), (DmaEnd.ca, 3), (DmaEnd.poison, 5)] → ∀ (t : Nat) (c : ImgCmd) (s : State),
    s.store.cmd = some c → c.fetch = true → c.asked = true →
    Yields (.dmaReadCompletion t true e.1) s fun u =>
      u.rd (reg pPcie 0x044) = word (0x80000000 + 2 * 0x10000000 + e.2 * 0x1000000) ∧
        (s.inSelftest pPcie = false → u.rb (reg pPcie oEvent) 5 = true) ∧ ImageResult 0x0A 0 s u) ∧
  (∀ e, e ∈ [(DmaEnd.ur, 2), (DmaEnd.ca, 3), (DmaEnd.poison, 5)] → ∀ (t q : Nat) (j : Job) (s : State),
    s.fetching = some (q, j) → j.stopped = none → s.behind q j = false →
    (∀ k, k ∈ (s.dq q).running → k.ended = none) →
    Yields (.dmaReadCompletion t false e.1) s fun u =>
      u.rd (reg pPcie 0x044) = word (0x80000000 + 1 * 0x10000000 + e.2 * 0x1000000) ∧
        (u.dq q).running = (s.dq q).running.erase j ∧ Answered q j.desc stBad u) ∧
  (∀ (t : Nat) (c : ImgCmd) (s z : State), z = s.upTo t → s.store.cmd = some c → c.fetch = true →
    c.asked = true → c.since + ms 10 ≤ z.now →
    Yields (.dmaReadTimeout t true) s fun u =>
      u.rd (reg pPcie 0x044) = word (0x80000000 + 2 * 0x10000000 + 4 * 0x1000000) ∧ ImageResult 0x0A 0 s u) ∧
  (∀ (t q : Nat) (j : Job) (s z : State), z = s.upTo t → s.fetching = some (q, j) → j.since + ms 10 ≤ z.now →
    j.stopped = none → s.behind q j = false → (∀ k, k ∈ (s.dq q).running → k.ended = none) →
    Yields (.dmaReadTimeout t false) s fun u =>
      u.rd (reg pPcie 0x044) = word (0x80000000 + 1 * 0x10000000 + 4 * 0x1000000) ∧
        (u.dq q).running = (s.dq q).running.erase j ∧ Answered q j.desc stBad u) ∧
  (∀ (t n : Nat) (c : ImgCmd) (s z : State), z = s.upTo t → s.store.queues = [] → s.store.cmd = some c →
    c.claim = some n → (s.claimOf n).any (·.queued) = true → c.since + ms 10 < z.now →
    Yields (.claimQueueTimeout t) s fun u => ImageResult 0x09 0 s u ∧ u.store.slots = s.store.slots) ∧
  (∀ (t q n : Nat) (x : DQueue) (j : Job) (s z : State), z = s.upTo t → s.store.queues = [(q, x)] → x.running = [j] →
    isMeta j.desc.op = true → j.ended = none → j.claim = some n → (s.claimOf n).any (·.queued) = true → j.since + ms 10 < z.now →
    s.fifoFull q j.desc = false →
    Yields (.claimQueueTimeout t) s fun u =>
      (u.dq q).running = [] ∧ Answered q j.desc stConflict u ∧ u.store.words = s.store.words) ∧
  (∀ s : State,
    (s.retryStatus = false → s.configWord 0x00 = some 0xC0961F4E ∧ s.configWord 0x2C = some 0xC0961F4E ∧
      s.configWord 0x08 = some 0x118000B0) ∧ (s.retryStatus = true → ∀ off, s.configWord off = none) ∧
      (s.pwr.ready = true → s.retryStatus = false))

/-- The Packet Error Code of a read of command `code` that brings the bytes `d` (R325; the SMBus specification: assumption 207). -/
def readPec (s : State) (code : Nat) (d : List Byte) : Byte :=
  pec ([BitVec.ofNat 8 (2 * s.pwr.smbAddr), BitVec.ofNat 8 code, BitVec.ofNat 8 (2 * s.pwr.smbAddr + 1)] ++ d)

/-- The SMBus target and its address resolution (R325). Model's choices: assumptions 122, 207. -/
def Obligations.SmbusTarget : Prop :=
  (∀ (t : Nat) (d : List Byte) (s : State), s.pwr.vaux = true → s.factoryGood = true →
    d = wordBytes (word (bits (factoryWord 1).toNat 31 0)) ++ wordBytes (word (bits (factoryWord 1).toNat 63 32)) ++
      [BitVec.ofNat 8 (bits (factoryWord 4).toNat 7 0), BitVec.ofNat 8 (bits (factoryWord 4).toNat 11 9),
        BitVec.ofNat 8 (bits (factoryWord 4).toNat 8 8), BitVec.ofNat 8 s.lcState] →
    Yields (.smbusIdentity t) s fun u => .smbus d (readPec s 0 (12 :: d)) ∈ u.out ∧ Only [] [.out] s u) ∧
  (∀ (t : Nat) (s : State), s.pwr.vaux = true → s.factoryGood = false →
    Yields (.smbusIdentity t) s fun u =>
      .smbus (List.replicate 12 0xFF) (readPec s 0 (12 :: List.replicate 12 0xFF)) ∈ u.out ∧ Only [] [.out] s u) ∧
  (∀ (t : Nat) (d : List Byte) (s : State), s.pwr.vaux = true → d = natBytes 2 (s.rf (reg pPower 0x054) 15 0) →
    Yields (.smbusTemperature t) s fun u => .smbus d (readPec s 1 d) ∈ u.out ∧ Only [] [.out] s u) ∧
  (∀ (t : Nat) (s : State), s.pwr.vaux = true →
    Yields (.smbusStatus t) s fun u =>
      (∃ b, .smbus [b] (readPec s 2 [b]) ∈ u.out ∧ b.getLsbD 0 = nbit s.pwr.rails 2 ∧ b.getLsbD 1 = nbit s.pwr.rails 1 ∧
        b.getLsbD 2 = (nbit s.pwr.rails 3 && nbit s.pwr.rails 4) ∧ b.getLsbD 3 = nbit s.pwr.rails 5 ∧
        b.getLsbD 4 = s.pwr.ready ∧ b.getLsbD 5 = s.pwr.faultN ∧ b.getLsbD 6 = s.inReset ∧
        b.getLsbD 7 = decide (s.pwr.phase = .done)) ∧ Only [] [.out] s u) ∧
  (∀ (t : Nat) (d : List Byte) (s : State), s.pwr.vaux = true →
    d = (if s.pwr.phase = .fault ∨ s.pwr.clockWait = true then natBytes 2 (s.rf (reg pStw 0x044) 15 0) else [0, 0]) →
    Yields (.smbusFaultCode t) s fun u => .smbus d (readPec s 3 d) ∈ u.out ∧ Only [] [.out] s u) ∧
  (∀ (t : Nat) (a : BitVec 7) (s : State), s.pwr.vaux = true →
    Yields (.smbusArp t (.assign s.smbUdid a)) s fun u =>
      u.pwr = { s.pwr with smbAddr := a.toNat, smbAr := true } ∧ Only [] [.pwr] s u) ∧
  (∀ (t : Nat) (i : BitVec 128) (a : BitVec 7) (s : State), i ≠ s.smbUdid →
    Yields (.smbusArp t (.assign i a)) s fun u => Only [] [] s u) ∧
  (∀ (t : Nat) (s : State), s.pwr.vaux = true →
    Yields (.smbusArp t .prepare) s fun u => u.pwr = { s.pwr with smbAr := false } ∧ Only [] [.pwr] s u) ∧
  (∀ (t : Nat) (d : List Byte) (s : State), s.pwr.vaux = true → s.pwr.smbAr = false →
    d = (natBytes 16 s.smbUdid.toNat).reverse ++ [BitVec.ofNat 8 (2 * s.pwr.smbAddr + 1)] →
    Yields (.smbusArp t .getUdid) s fun u =>
      .smbus d (pec ([0xC2, 0x03, 0xC3, 0x11] ++ d)) ∈ u.out ∧ Only [] [.out] s u) ∧
  (∀ (t : Nat) (s : State), s.pwr.smbAr = true →
    Yields (.smbusArp t .getUdid) s fun u => Only [] [] s u) ∧
  (∀ (t : Nat) (a : BitVec 7) (c : Byte) (s : State), s.pwr.vaux = true → a.toNat = s.pwr.smbAddr → 3 < c.toNat →
    Yields (.smbusArp t (.other a c)) s fun u => .smbusNack ∈ u.out ∧ Only [] [.out] s u) ∧
  (∀ (t : Nat) (a : BitVec 7) (c : Byte) (s : State), a.toNat ≠ s.pwr.smbAddr →
    Yields (.smbusArp t (.other a c)) s fun u => Only [] [] s u) ∧
  (∀ (t : Nat) (o : SmbArp) (s : State), s.pwr.vaux = false →
    Yields (.smbusIdentity t) s (fun u => Only [] [] s u) ∧ Yields (.smbusTemperature t) s (fun u => Only [] [] s u) ∧
      Yields (.smbusStatus t) s (fun u => Only [] [] s u) ∧ Yields (.smbusArp t o) s (fun u => Only [] [] s u) ∧
      Yields (.smbusFaultCode t) s fun u => Only [] [] s u)

/-- Lane `k` takes the word `x` from its line between `z` and `u`: a word that its port presents in its next free cycle, or that
waits while the region's ports park. -/
def LaneTakes (k : Nat) (x : BitVec 72) (z u : State) : Prop :=
  (z.regionParked (z.laneRegion k) = true → (u.lane k).rx = z.laneHeld k ++ [(0, x)]) ∧
    (z.regionParked (z.laneRegion k) = false →
      (u.lane k).last = nextAfter (z.portT (z.laneRegion k)) (max z.now (z.lane k).last) ∧
        (u.lane k).rx = z.laneHeld k ++ [((u.lane k).last, x)] ∧
        .laneWord (z.laneRegion k) k (u.lane k).last x ∈ u.out)

/-- User lanes (R173, R312 to R315, Tables 10.4 and 10.5). Model's choices: assumptions 129, 130, 209, 215. -/
def Obligations.UserLanes : Prop :=
  (∀ (t : Nat) (k : Fin 16) (w : BitVec 72) (errs : LaneErrs) (s z : State), z = s.upTo t → s.isOn (pUlane k) = true →
    s.laneAligned k = true → s.rf (lreg k 0x040) 8 7 = 0 → s.rf (lreg k 0x040) 6 5 = 0 → s.laneEth k = false →
    (z.laneHeld k).length < 32 →
    Yields (.ulaneRxWord t k w errs) s fun u =>
      LaneTakes k (s.laneWordIn k w errs.bad).1 z u ∧ (u.lane k).tx = (s.lane k).tx ∧
        u.rf (lreg k 0x044) 15 0 = min 65535 (s.rf (lreg k 0x044) 15 0 + codeErrs (s.laneMode k) w errs.bad) ∧
        (∀ j, j ≠ k.val → u.lane j = s.lane j) ∧ Only [lreg k 0x044] [.lanes, .out] s u) ∧
  (∀ (t : Nat) (k : Fin 16) (w : BitVec 72) (errs : LaneErrs) (i : Fin 8) (s z : State), z = s.upTo t →
    s.isOn (pUlane k) = true → s.laneAligned k = true → s.rf (lreg k 0x040) 8 7 = 0 → s.laneEth k = false →
    (z.laneHeld k).length < 32 → s.laneMode k = 1 → errs.bad.getLsbD i = true →
    Yields (.ulaneRxWord t k w errs) s fun u =>
      ∃ due x, (due, x) ∈ (u.lane k).rx.getLast? ∧ x.extractLsb' (8 * i) 8 = 0xFE ∧ x.getLsbD (64 + i) = true) ∧
  (∀ (t : Nat) (k : Fin 16) (w : BitVec 72) (errs : LaneErrs) (s z : State), z = s.upTo t → s.isOn (pUlane k) = true →
    s.laneAligned k = true → s.rf (lreg k 0x040) 8 7 = 0 → s.laneEth k = false → 32 ≤ (z.laneHeld k).length →
    Yields (.ulaneRxWord t k w errs) s fun u =>
      (u.lane k).rx = (s.lane k).rx ∧ u.rb (reg (pUlane k) oEvent) 3 = true ∧
        Only [lreg k 0x044, lreg k 0x04C, reg (pUlane k) oEvent] (.lanes :: eventParts) s u) ∧
  (∀ (t : Nat) (k : Fin 16) (w : BitVec 72) (errs : LaneErrs) (s : State), s.isOn (pUlane k) = true →
    s.laneAligned k = true → s.rf (lreg k 0x040) 8 7 ≠ 1 → s.rf (lreg k 0x040) 6 5 ≠ 0 →
    Yields (.ulaneRxWord t k w errs) s fun u =>
      u.rd (lreg k 0x04C) = word (min (2 ^ 32 - 1) ((s.rd (lreg k 0x04C)).toNat + errs.bits)) ∧
        u.rd (lreg k 0x044) = s.rd (lreg k 0x044)) ∧
  (∀ (t : Nat) (k : Fin 16) (w : BitVec 72) (errs : LaneErrs) (s : State),
    (s.isOn (pUlane k) = false ∨ s.laneAligned k = false ∨ s.rf (lreg k 0x040) 8 7 = 1) →
    Yields (.ulaneRxWord t k w errs) s fun u => Only [] [] s u) ∧
  (∀ (t : Nat) (k : Fin 16) (w : BitVec 72) (r : List (BitVec 72)) (s : State), s.isOn (pUlane k) = true →
    s.laneEth k = false → s.rf (lreg k 0x040) 8 7 = 0 → s.rf (lreg k 0x040) 6 5 = 0 → (s.lane k).tx = w :: r →
    Yields (.ulaneTxWord t k) s fun u =>
      .lane k (s.laneWordOut k w).1 ∈ u.out ∧
        u.lane k = { s.lane k with tx := r, scr := (s.laneWordOut k w).2 } ∧ (∀ j, j ≠ k.val → u.lane j = s.lane j) ∧
        Only [] [.lanes, .out] s u) ∧
  (∀ (t : Nat) (k : Fin 16) (s : State), s.isOn (pUlane k) = true → s.laneEth k = false →
    s.rf (lreg k 0x040) 8 7 = 0 → s.rf (lreg k 0x040) 6 5 = 0 → (s.lane k).tx = [] → s.inSelftest (pUlane k) = false →
    Yields (.ulaneTxWord t k) s fun u =>
      .lane k (s.laneWordOut k (laneIdle (s.laneMode k))).1 ∈ u.out ∧ u.rb (reg (pUlane k) oEvent) 2 = true ∧
        Only [reg (pUlane k) oEvent] (.lanes :: eventParts) s u) ∧
  (∀ (t : Nat) (k : Fin 16) (w : BitVec 72) (r : List (BitVec 72)) (s z : State), z = s.upTo t →
    s.isOn (pUlane k) = true → s.laneEth k = false → s.rf (lreg k 0x040) 8 7 = 1 → s.rf (lreg k 0x040) 6 5 = 0 →
    (s.lane k).tx = w :: r → (z.laneHeld k).length < 32 →
    Yields (.ulaneTxWord t k) s fun u =>
      LaneTakes k w z u ∧ (u.lane k).tx = r ∧ (∀ j, j ≠ k.val → u.lane j = s.lane j) ∧ Only [] [.lanes, .out] s u) ∧
  (∀ (t : Nat) (k : Fin 16) (q : Nat × Nat) (s : State), s.isOn (pUlane k) = true → s.rf (lreg k 0x040) 8 7 = 0 →
    s.rf (lreg k 0x040) 6 5 ≠ 0 → q = prbsWord (s.rf (lreg k 0x040) 6 5) (s.lane k).prbs →
    Yields (.ulaneTxWord t k) s fun u =>
      .lane k (BitVec.ofNat 72 q.1) ∈ u.out ∧ (u.lane k).prbs = q.2 ∧ (∀ j, j ≠ k.val → u.lane j = s.lane j) ∧
        Only [reg (pUlane k) oEvent] (.lanes :: eventParts) s u) ∧
  (∀ (t : Nat) (r : Fin 96) (k : Fin 16) (w : BitVec 72) (s z : State), z = s.upTo t → Served r (8 + k) (pUlane k) z → s.laneEth k = false →
    s.laneRegion k = r → s.isOn (pUlane k) = true → (s.lane k).tx.length < 32 →
    Yields (.ulanePush t r k w) s fun u =>
      u.lane k = { s.lane k with tx := (s.lane k).tx ++ [w] } ∧ u.resp = .ok ∧ (∀ j, j ≠ k.val → u.lane j = s.lane j) ∧
        TookPort r (8 + k) z u ∧ Only [] [.lanes, .regions, .resp] s u) ∧
  (∀ (t : Nat) (r : Fin 96) (k : Fin 16) (w : BitVec 72) (s z : State), z = s.upTo t → Served r (8 + k) (pUlane k) z → s.laneEth k = false →
    s.laneRegion k = r → s.isOn (pUlane k) = true → 32 ≤ (s.lane k).tx.length →
    Yields (.ulanePush t r k w) s fun u => u.resp = .retry ∧ Only [] [.resp] s u) ∧
  (∀ (t : Nat) (r : Fin 96) (k : Fin 16) (w : BitVec 72) (s z : State), z = s.upTo t → Served r (8 + k) (pUlane k) z →
    (s.laneEth k = true ∨ s.laneRegion k ≠ r ∨ s.isOn (pUlane k) = false) →
    Yields (.ulanePush t r k w) s fun u =>
      u.resp = .refused ∧ u.rb (reg (pReg r) oEvent) 7 = true ∧ TookPort r (8 + k) z u ∧
        Only [reg (pReg r) oEvent] (.regions :: .resp :: eventParts) s u) ∧
  (∀ (t : Nat) (k : Fin 16) (lk : Fin 3) (khz : BitVec 19) (s : State), s.isOn (pUlane k) = true →
    Yields (.ulaneLockChange t k lk khz) s fun u =>
      u.rf (lreg k 0x044) 31 30 = lk ∧ u.rf (lreg k 0x044) 29 0 = s.rf (lreg k 0x044) 29 0 ∧
        u.rd (lreg k 0x048) = word khz.toNat ∧
        (s.rf (lreg k 0x044) 31 30 < lk → u.rb (reg (pUlane k) oEvent) 0 = true) ∧
        (lk < s.rf (lreg k 0x044) 31 30 → u.rb (reg (pUlane k) oEvent) 1 = true) ∧
        (∀ n, n < 32 → u.gclkRuns n =
          if bits (gclkByte s.store.clocks n) 7 6 = 3 ∧ bits (gclkByte s.store.clocks n) 4 0 = k.val ∧
              ¬(s.rf (lreg k 0x044) 31 30 = 0 ↔ lk = 0) then decide (lk ≠ 0) else s.gclkRuns n) ∧
        Only [lreg k 0x044, lreg k 0x048, reg (pUlane k) oEvent, gclkReg] eventParts s u) ∧
  (∀ (t : Nat) (k : Fin 16) (s : State), Reads (pUlane k) s →
    Yields (.ulaneStatRead t k) s fun u =>
      u.rdata = (s.rd (lreg k 0x044)).toNat ∧ u.rd (lreg k 0x044) = setFld (s.rd (lreg k 0x044)) 15 0 0 ∧
        Only [lreg k 0x044] [.rdata] s u) ∧
  (∀ (t : Nat) (k : Fin 16) (s : State), Reads (pUlane k) s →
    Yields (.prbsErrRead t k) s fun u =>
      u.rdata = (s.rd (lreg k 0x04C)).toNat ∧ u.rd (lreg k 0x04C) = 0 ∧ Only [lreg k 0x04C] [.rdata] s u)

/-- The TX FIFO of protocol page `p` takes an entry of header `h` (Table 10.12). -/
abbrev TxRoom (p : Nat) (h : List Word) (s : State) : Prop :=
  (s.proto p).tx.length < txSize ((blockOf p).getD .can) ∧
    (blockOf p = some .eth → ((s.proto p).tx.map (·.data.length)).sum + dataLen p (h.getD 0 0) ≤ 16384) ∧
    s.txBad p h = false

/-- The six header words in TX_H0 to TX_H5. -/
def txHeaders (p : Nat) (s : State) : List Word := (List.range 6).map fun k => s.rd (reg p (0x060 + 4 * k))

/-- The line of protocol page `p` carries what the block sends: the lane of an SGMII block neither sends PRBS nor loops back. -/
abbrev SendsLine (p : Nat) (s : State) : Prop :=
  s.ethLane p = true → s.rf (lreg (p - 0x0A0) 0x040) 6 5 = 0 ∧ s.rf (lreg (p - 0x0A0) 0x040) 8 7 ≠ 1

/-- Protocol blocks: entries to send, positions, ends of frames, wake-up and MDIO (R319 to R321, R324, Tables 10.10 to
10.12). Model's choices: assumptions 123, 124, 125. -/
def Obligations.ProtocolSending : Prop :=
  (∀ (t : Nat) (a : Agent) (p : Fin 512) (v : Word) (n : Nat) (s : State), isProto p = true → Opens a p s →
    s.fabricPath p = false → bit v 0 = true → bit v 1 = false → TxRoom p (txHeaders p s) s →
    n = dataLen p ((txHeaders p s).getD 0 0) → n ≤ 4 * (s.proto p).txData.length →
    Yields (.txPush t a p v) s fun u =>
      (∃ e, (u.proto p).tx = (s.proto p).tx ++ [e] ∧ e.h = txHeaders p s ∧
        e.data.take n = ((s.proto p).txData.flatMap wordBytes).take n ∧
        e.data.length = (if blockOf p = some .eth then max n 60 else n) ∧
        e.held = s.rb (reg p 0x060) 7 ∧ e.started = false ∧ e.pushed = (s.upTo t).now) ∧ u.resp = .ok ∧
        (∀ k, k ≠ p.val → u.proto k = s.proto k) ∧ Only [] [.protos, .free, .resp] s u) ∧
  (∀ (t : Nat) (a : Agent) (p : Fin 512) (v : Word) (s : State), isProto p = true → Opens a p s →
    s.fabricPath p = false → bit v 0 = true → bit v 1 = false →
    txSize ((blockOf p).getD .can) ≤ (s.proto p).tx.length →
    Yields (.txPush t a p v) s fun u =>
      u.rb (reg p oEvent) 3 = true ∧ Only [reg p oEvent] (.resp :: eventParts) s u) ∧
  (∀ (t : Nat) (a : Agent) (p : Fin 512) (v : Word) (s : State), isProto p = true → Opens a p s →
    s.fabricPath p = false → bit v 0 = true → bit v 1 = false →
    (s.proto p).tx.length < txSize ((blockOf p).getD .can) → blockOf p ≠ some .eth → s.txBad p (txHeaders p s) = true →
    Yields (.txPush t a p v) s fun u =>
      u.rf (reg p oStatus) 15 8 = Reason.range.code ∧ u.resp = .refused ∧ Only [reg p oStatus] [.resp] s u) ∧
  (∀ e, e ∈ [Instr.txPush, Instr.txAbort, Instr.txDataWrite, Instr.rxPop] → ∀ (t : Nat) (a : Agent) (p : Fin 512) (v : Word)
    (s : State), isProto p = true → Opens a p s → s.fabricPath p = true →
    Yields (e t a p v) s fun u => Only [] [.resp] s u) ∧
  (∀ (t : Nat) (a : Agent) (p : Fin 512) (v : Word) (s : State), isProto p = true → Opens a p s →
    s.fabricPath p = false → bit v 1 = true → bit v 0 = false →
    Yields (.txAbort t a p v) s fun u =>
      ((u.proto p).tx = [] ∨ ∃ e r, (s.proto p).tx = e :: r ∧ e.held = false ∧
        (u.proto p).tx = [{ e with started := true }]) ∧
        (∀ e r, (s.proto p).tx = e :: r → e.held = false → e.started = true →
          (u.proto p).tx = [{ e with started := true }])) ∧
  (∀ (t : Nat) (a : Agent) (p : Fin 512) (v : Word) (s : State), isProto p = true → Opens a p s →
    s.fabricPath p = false →
    Yields (.txDataWrite t a p v) s fun u =>
      u.proto p = { s.proto p with txData := (s.proto p).txData ++ [v] } ∧ u.resp = .ok ∧
        (∀ k, k ≠ p.val → u.proto k = s.proto k) ∧ Only [] [.protos, .resp] s u) ∧
  (∀ (t : Nat) (p : Fin 512) (e : Entry) (r : List Entry) (s z : State), z = s.upTo t → isProto p = true →
    (s.proto p).tx = e :: r → e.held = true → s.isOn (pDom (s.tsDom p)) = true →
    s.atTarget p e ≤ z.armRef (s.tsDom p) →
    Yields (.atCrossing t p) s fun u =>
      u.proto p = { s.proto p with tx := { e with held := false } :: r } ∧ (∀ k, k ≠ p.val → u.proto k = s.proto k) ∧
        Only [] [.protos] s u) ∧
  (∀ (t : Nat) (p : Fin 512) (status : Fin 8) (start : Nat) (e : Entry) (r : List Entry) (s z : State), z = s.upTo t →
    isProto p = true → blockOf p ≠ some .can → s.protoLive p = true → (s.proto p).tx = e :: r → e.held = false →
    s.maySend p e start = true → SendsLine p s →
    (s.proto p).rx.length < rxSize ((blockOf p).getD .can) → ((s.proto p).rx.map (·.data.length)).sum ≤ 32768 →
    Yields (.frameSent t p status start) s fun u =>
      (if blockOf p = some .sent ∧ s.rb (reg p 0x100) 0 = false then .spcRequest p
        else .frame p (s.onLine p e).1 (s.onLine p e).2) ∈ u.out ∧ (u.proto p).tx = r ∧ u.rb (reg p oEvent) 1 = true ∧
        (u.proto p).rx = (s.proto p).rx ++ (if bit (e.h.getD 0 0) 6 then
          [{ h := word (2 * 2 ^ 28 + status * 256 + 128 * b2n (z.stampWords p start).2 + fld (e.h.getD 0 0) 5 0) ::
              e.h.getD 1 0 :: (z.stampWords p start).1 }] else []) ∧
        (bit (e.h.getD 0 0) 6 = true → u.rb (reg p oEvent) 0 = true) ∧ (∀ k, k ≠ p.val → u.proto k = s.proto k) ∧
        Only [reg p oEvent] (.protos :: eventParts) s u) ∧
  (∀ (t : Nat) (p : Fin 512) (status : Fin 8) (start : Nat) (s : State), isProto p = true →
    (s.protoLive p = false ∨ s.busOff p = true ∨
      (s.proto p).tx.head?.all (fun e => e.held || !s.maySend p e start) = true) →
    Yields (.frameSent t p status start) s fun u => Only [] [] s u) ∧
  (∀ (t : Nat) (p : Fin 512) (start : Nat) (e : Entry) (r : List Entry) (s : State), isProto p (some .can) = true →
    s.protoLive p = true → s.busOff p = false → (s.proto p).tx = e :: r → e.held = false →
    s.rb (reg p 0x100) 3 = false → s.rf (canErr p) 24 16 < 256 → bit (e.h.getD 0 0) 6 = false →
    Yields (.frameSent t p 0 start) s fun u =>
      .frame p e.h e.data ∈ u.out ∧ (u.proto p).tx = r ∧ u.rf (canErr p) 24 16 = s.rf (canErr p) 24 16 - 1 ∧
        u.rb (reg p oEvent) 1 = true) ∧
  (∀ (t : Nat) (p : Fin 512) (start : Nat) (e : Entry) (r : List Entry) (s : State), isProto p (some .can) = true →
    s.protoLive p = true → s.busOff p = false → (s.proto p).tx = e :: r → e.held = false →
    s.rb (reg p 0x100) 3 = false → s.rb (reg p 0x100) 2 = false →
    Yields (.frameSent t p 2 start) s fun u =>
      .frame p e.h e.data ∈ u.out ∧ u.rf (canErr p) 24 16 = min 511 (s.rf (canErr p) 24 16 + 8) ∧
        (s.rf (canErr p) 24 16 < 248 → (u.proto p).tx = { e with started := false, began := some start } :: r) ∧
        (248 ≤ s.rf (canErr p) 24 16 → (u.proto p).tx = [] ∧ u.rf (canErr p) 1 0 = 2 ∧ u.rb (reg p oEvent) 9 = true)) ∧
  (∀ (t : Nat) (a : Agent) (p : Fin 512) (v : Word) (s : State), isProto p (some .lin) = true → Opens a p s →
    bit v 0 = true → s.protoLive p = true →
    Yields (.wake t a p v) s fun u => .wake p ∈ u.out ∧ u.resp = .ok ∧ Only [] [.out, .resp] s u) ∧
  (∀ (t : Nat) (a : Agent) (p : Fin 512) (v : Word) (s : State), isProto p (some .eth) = true → Opens a p s →
    s.rb (reg p 0x114) 31 = false → fld v 29 28 ≠ 3 → bit v 31 = true → s.protoLive p = true →
    Yields (.mdioGo t a p v) s fun u =>
      .mdio p v ∈ u.out ∧ u.rd (reg p 0x114) = setBit (v &&& 0xF3FFFFFF) 31 true ∧ u.resp = .ok ∧
        Only [reg p 0x114] [.out, .resp] s u) ∧
  (∀ (t : Nat) (a : Agent) (p : Fin 512) (v : Word) (s : State), isProto p (some .eth) = true → Opens a p s →
    s.rb (reg p 0x114) 31 = false → fld v 29 28 = 3 →
    Yields (.mdioGo t a p v) s fun u =>
      u.rf (reg p oStatus) 15 8 = Reason.range.code ∧ u.resp = .refused ∧ Only [reg p oStatus] [.resp] s u) ∧
  (∀ (t : Nat) (p : Fin 512) (data : BitVec 16) (s : State), isProto p (some .eth) = true →
    s.rb (reg p 0x114) 31 = true → s.inSelftest p = false →
    Yields (.mdioDone t p data) s fun u =>
      u.rb (reg p 0x114) 31 = false ∧
        u.rf (reg p 0x114) 15 0 = (if s.rf (reg p 0x114) 29 28 = 2 then data.toNat else s.rf (reg p 0x114) 15 0) ∧
        u.rb (reg p oEvent) 10 = true ∧ Only [reg p 0x114, reg p oEvent] eventParts s u)

/-- The RX FIFO of protocol page `p` takes an entry with `n` data bytes (Table 10.12). -/
abbrev RxRoom (p n : Nat) (s : State) : Prop :=
  (s.proto p).rx.length < rxSize ((blockOf p).getD .can) ∧
    (blockOf p = some .eth → ((s.proto p).rx.map (·.data.length)).sum + n ≤ 32768)

/-- Protocol page `p` takes part on its bus and hears it, and accepts the calibration of frame `fr`. -/
abbrev Hears (p : Nat) (fr : Frame) (s : State) : Prop :=
  s.protoLive p = true ∧ s.busOff p = false ∧ s.deaf p = false ∧ (s.calOk p fr).1 = true

/-- Protocol blocks: received frames, the RX FIFO, the region's port and the bus events (R316, R318 to R320, R322, R324).
Model's choices: assumptions 127, 128, 131, 210, 211, 217. -/
def Obligations.ProtocolReceiving : Prop :=
  (∀ (t : Nat) (p : Fin 512) (fr : Frame) (s z : State), z = s.upTo t → isProto p = true → Hears p fr s →
    (blockOf p = some .can → s.rf (canErr p) 24 16 < 256) → s.frameStatus p fr = 0 →
    (blockOf p = some .eth → fr.pflags.getLsbD 5 = false) →
    s.keepsFrame p fr = true → RxRoom p fr.data.length s →
    Yields (.frameReceived t p fr) s fun u =>
      (u.proto p).rx = (s.proto p).rx ++ [z.frameEntry p (s.frameJudged p fr)] ∧ (u.proto p).tx = (s.proto p).tx ∧
        u.rb (reg p oEvent) 0 = true ∧ (∀ k, k ≠ p.val → u.proto k = s.proto k) ∧
        (blockOf p = some .can → s.rb (reg p 0x100) 3 = false → .canAck p true ∈ u.out) ∧
        (blockOf p ≠ some .can → Only [reg p oEvent] (.protos :: .free :: eventParts) s u) ∧
        (blockOf p = some .can → Only [canErr p, reg p oEvent] (.protos :: eventParts) s u)) ∧
  (∀ (t : Nat) (p : Fin 512) (fr : Frame) (s : State), isProto p (some .sent) = true → Hears p fr s →
    s.frameStatus p fr = 0 → rxSize .sent ≤ (s.proto p).rx.length →
    Yields (.frameReceived t p fr) s fun u =>
      u.proto p = { s.proto p with cal := some fr.cal } ∧
        u.rf (reg p 0x04C) 23 16 = min 255 (s.rf (reg p 0x04C) 23 16 + 1) ∧
        u.rb (reg p oEvent) 2 = true ∧ Only [reg p 0x04C, reg p oEvent] (.protos :: eventParts) s u) ∧
  (∀ (t : Nat) (p : Fin 512) (fr : Frame) (s z : State), z = s.upTo t → isProto p (some .sent) = true → Hears p fr s →
    s.frameStatus p fr ≠ 0 → RxRoom p fr.data.length s →
    Yields (.frameReceived t p fr) s fun u =>
      u.rb (reg p oEvent) 6 = true ∧ (u.proto p).rx = (s.proto p).rx ++
        (if s.rb (reg p 0x040) 19 then [z.frameEntry p (s.frameJudged p fr)] else []) ∧
        Only [reg p oEvent] (.protos :: eventParts) s u) ∧
  (∀ (t : Nat) (p : Fin 512) (fr : Frame) (s : State), isProto p = true →
    (s.protoLive p = false ∨ s.busOff p = true ∨ s.deaf p = true) →
    Yields (.frameReceived t p fr) s fun u => Only [] [] s u) ∧
  (∀ (t : Nat) (p : Fin 512) (fr : Frame) (s : State), isProto p = true → s.protoLive p = true → s.busOff p = false →
    s.deaf p = false → (s.calOk p fr).1 = false →
    Yields (.frameReceived t p fr) s fun u =>
      u.rb (reg p oEvent) (if blockOf p = some .lin then 10 else 8) = true ∧ (u.proto p).rx = (s.proto p).rx ∧
        Only [reg p oEvent] (.protos :: .free :: eventParts) s u) ∧
  (∀ (t : Nat) (p : Fin 512) (fr : Frame) (n k : Nat) (bs : List Byte) (s : State), isProto p (some .lin) = true →
    Hears p fr s → fr.pflags.getLsbD 4 = true → k = fr.id.toNat % 64 → s.linAnswers p k = some true →
    n = s.rf (reg p (0x200 + 4 * k)) 3 0 →
    bs = (wordBytes (s.rd (reg p (0x300 + 8 * k))) ++ wordBytes (s.rd (reg p (0x304 + 8 * k)))).take n →
    Yields (.frameReceived t p fr) s fun u =>
      .frame p [word k] (bs ++ [linSum (s.rb (reg p (0x200 + 4 * k)) 29) k bs]) ∈ u.out ∧ Only [] [.out, .free] s u) ∧
  (∀ (t : Nat) (p : Fin 512) (fr : Frame) (q bitT : Nat) (s z : State), z = s.upTo t → isProto p (some .eth) = true →
    Hears p fr s → s.frameStatus p fr = 0 → fr.pflags.getLsbD 5 = true → s.rb (reg p 0x100) 3 = true →
    q = (fr.data.getD 16 0).toNat * 256 + (fr.data.getD 17 0).toNat → bitT = ns 100 / 10 ^ s.rf (reg p 0x100) 1 0 →
    Yields (.frameReceived t p fr) s fun u =>
      (u.proto p).pause = (z.now, z.now + q * 512 * bitT) ∧ u.rb (reg p oEvent) 9 = true) ∧
  (∀ (t : Nat) (a : Agent) (p : Fin 512) (v : Word) (e : Entry) (r : List Entry) (s : State), isProto p = true →
    Opens a p s → s.fabricPath p = false → bit v 0 = true → (s.proto p).rx = e :: r →
    Yields (.rxPop t a p v) s fun u =>
      (u.proto p).rx = r ∧ (u.proto p).rxData = entryWords e ∧
        (∀ k, k < 6 → u.rd (reg p (0x080 + 4 * k)) = e.h.getD k 0) ∧ u.resp = .ok ∧
        (∀ k, k ≠ p.val → u.proto k = s.proto k) ∧
        Only ((List.range 6).map fun k => reg p (0x080 + 4 * k)) [.protos, .resp] s u) ∧
  (∀ (t : Nat) (p : Fin 512) (w : Word) (r : List Word) (s : State), isProto p = true → Reads p s →
    s.fabricPath p = false → (s.proto p).rxData = w :: r →
    Yields (.rxDataRead t p) s fun u =>
      u.rdata = w.toNat ∧ (u.proto p).rxData = r ∧ (∀ k, k ≠ p.val → u.proto k = s.proto k) ∧
        Only [] [.protos, .rdata] s u) ∧
  (∀ (t : Nat) (p : Fin 512) (s : State), isProto p = true → Reads p s → (s.proto p).rxData = [] →
    Yields (.rxDataRead t p) s fun u => u.rdata = 0 ∧ Only [] [.rdata] s u) ∧
  (∀ (t : Nat) (p : Fin 512) (s : State), isProto p = true → Reads p s →
    Yields (.pstatRead t p) s fun u =>
      u.rdata = ((s.rd (reg p 0x04C)) ||| word ((s.proto p).rx.length * 256 + (s.proto p).tx.length)).toNat ∧
        u.rd (reg p 0x04C) = setFld (s.rd (reg p 0x04C)) 23 16 0 ∧ Only [reg p 0x04C] [.rdata] s u) ∧
  (∀ (t : Nat) (r : Fin 96) (p : Fin 512) (w : Word) (s z : State), z = s.upTo t → Served r 6 p z → isProto p = true →
    s.fabricPath p = true → s.protoRegion p = r →
    ((s.proto p).build ++ [w]).length < 6 + (dataLen p (((s.proto p).build ++ [w]).getD 0 0) + 3) / 4 →
    Yields (.protocolPortRequest t r p true w) s fun u =>
      u.proto p = { s.proto p with build := (s.proto p).build ++ [w] } ∧ u.resp = .ok ∧ TookPort r 6 z u ∧
        Only [] [.protos, .regions, .resp] s u) ∧
  (∀ (t : Nat) (r : Fin 96) (p : Fin 512) (w : Word) (b : List Word) (s z : State), z = s.upTo t → Served r 6 p z → isProto p = true →
    s.fabricPath p = true → s.protoRegion p = r → b = (s.proto p).build ++ [w] →
    6 + (dataLen p (b.getD 0 0) + 3) / 4 ≤ b.length → TxRoom p (b.take 6) s →
    Yields (.protocolPortRequest t r p true w) s fun u =>
      (∃ e, (u.proto p).tx = (s.proto p).tx ++ [e] ∧ e.h = b.take 6) ∧ (u.proto p).build = [] ∧ u.resp = .ok ∧
        TookPort r 6 z u ∧ Only [] [.protos, .free, .regions, .resp] s u) ∧
  (∀ (t : Nat) (r : Fin 96) (p : Fin 512) (w : Word) (e : Entry) (l : List Entry) (s z : State), z = s.upTo t → Served r 6 p z →
    isProto p = true → s.fabricPath p = true → s.protoRegion p = r → (s.proto p).unload = [] → (s.proto p).rx = e :: l →
    Yields (.protocolPortRequest t r p false w) s fun u =>
      .toRegion r (e.h.getD 0 0).toNat ∈ u.out ∧
        u.proto p = { s.proto p with rx := l, unload := e.h.tail ++ entryWords e } ∧ u.resp = .ok ∧ TookPort r 6 z u ∧
        Only [] [.protos, .out, .regions, .resp] s u) ∧
  (∀ (t : Nat) (r : Fin 96) (p : Fin 512) (w x : Word) (l : List Word) (s z : State), z = s.upTo t → Served r 6 p z →
    isProto p = true → s.fabricPath p = true → s.protoRegion p = r → (s.proto p).unload = x :: l →
    Yields (.protocolPortRequest t r p false w) s fun u =>
      .toRegion r x.toNat ∈ u.out ∧ u.proto p = { s.proto p with unload := l } ∧ u.resp = .ok ∧ TookPort r 6 z u ∧
        Only [] [.protos, .out, .regions, .resp] s u) ∧
  (∀ (t : Nat) (r : Fin 96) (p : Fin 512) (push : Bool) (w : Word) (s z : State), z = s.upTo t → Served r 6 p z → isProto p = true →
    (s.fabricPath p = false ∨ s.protoRegion p ≠ r) →
    Yields (.protocolPortRequest t r p push w) s fun u =>
      u.resp = .refused ∧ u.rb (reg (pReg r) oEvent) 7 = true ∧ TookPort r 6 z u ∧
        Only [reg (pReg r) oEvent] (.regions :: .resp :: eventParts) s u) ∧
  (∀ (t : Nat) (p : Fin 512) (s : State), isProto p (some .can) = true → s.isOn p = true → s.busOff p = true →
    s.rb (reg p 0x100) 1 = true →
    Yields (.busOffRecovered t p) s fun u =>
      u.rd (canErr p) = 0 ∧ u.busOff p = false ∧ u.rb (reg p oEvent) 10 = true ∧
        Only [canErr p, reg p oEvent] eventParts s u) ∧
  (∀ (t : Nat) (p : Fin 512) (id : BitVec 6) (start : Nat) (s : State), isProto p (some .lin) = true →
    s.protoLive p = true → s.rb (reg p 0x100) 0 = false → (s.proto p).tx = [] → s.rb (reg p 0x040) 19 = false →
    Yields (.noResponse t p id start) s fun u =>
      u.rb (reg p oEvent) 9 = true ∧ u.rb (reg p oEvent) 6 = true ∧ Only [reg p oEvent] eventParts s u) ∧
  (∀ (t : Nat) (p : Fin 512) (s : State), isProto p (some .lin) = true → s.protoLive p = true → s.deaf p = false →
    Yields (.wakeup t p) s fun u => u.rb (reg p oEvent) 8 = true ∧ Only [reg p oEvent] eventParts s u) ∧
  (∀ (t : Nat) (p : Fin 512) (s : State), isProto p (some .eth) = true → s.isOn p = true →
    Yields (.linkChange t p) s fun u => u.rb (reg p oEvent) 8 = true ∧ Only [reg p oEvent] eventParts s u) ∧
  (∀ (t : Nat) (p : Fin 512) (s : State), isProto p (some .sent) = true → s.protoLive p = true →
    s.rb (reg p 0x100) 2 = true → s.rb (reg p 0x100) 0 = false →
    Yields (.spcTimeout t p) s fun u => u.rb (reg p oEvent) 9 = true ∧ Only [reg p oEvent] eventParts s u)

/-- Units 0 to 303 and 307, which a test on demand can name (Table 12.2). -/
abbrev UnitIndex (n : Nat) : Prop := n < 304 ∨ n = 307

/-- The self-test of the units: on demand, its steps, its results and the shutdown self-test (R98, R166, R179, R341 to R354,
R363, Tables 12.1, 12.2 and 12.8). Model's choices: assumptions 140, 141, 142, 143, 144, 145, 202, 213, 214, 216. -/
def Obligations.UnitSelfTest : Prop :=
  (∀ (t : Nat) (a : Agent) (v : Word) (n : Nat) (s : State), privileged a = true → Opens a pBist s → fld v 31 28 = 1 →
    n = fld v 8 0 → UnitIndex n → s.test? n = none → s.pwr.phase = .user →
    taken (s.claim actSelftest agStw (unitRes n) (unitMw n)).1 = true →
    Yields (.bistRun t a v) s fun u =>
      (∃ c, u.test? n = some { claim := some c, why := 3 } ∧ (u.claimOf c).isSome = true ∧
        u.rf (breg 0x050) 23 16 = c % 256) ∧ u.resp = .ok) ∧
  (∀ (t : Nat) (a : Agent) (v : Word) (n : Nat) (r : Reason) (s : State), privileged a = true → Opens a pBist s →
    fld v 31 28 = 1 → n = fld v 8 0 → UnitIndex n → s.test? n = none → s.pwr.phase = .user →
    (s.claim actSelftest agStw (unitRes n) (unitMw n)).1 = .refused r →
    Yields (.bistRun t a v) s fun u =>
      u.test? n = none ∧ u.rf (breg 0x050) 31 24 = r.code ∧ u.rf (reg pBist oStatus) 15 8 = r.code ∧ u.resp = .refused) ∧
  (∀ (t : Nat) (a : Agent) (v : Word) (s : State), privileged a = true → Opens a pBist s → fld v 31 28 = 1 →
    UnitIndex (fld v 8 0) → ((s.test? (fld v 8 0)).isSome = true ∨ s.pwr.phase ≠ .user) →
    Yields (.bistRun t a v) s fun u =>
      u.rf (breg 0x050) 31 24 = Reason.conflict.code ∧ u.resp = .refused ∧
        Only [breg 0x050, reg pBist oStatus] [.resp] s u) ∧
  (∀ (t : Nat) (a : Agent) (v : Word) (s : State), privileged a = true → Opens a pBist s →
    (fld v 31 28 = 0 ∨ 2 < fld v 31 28 ∨ ¬UnitIndex (fld v 8 0)) →
    Yields (.bistRun t a v) s fun u =>
      u.rf (breg 0x050) 31 24 = Reason.range.code ∧ u.resp = .refused ∧
        Only [breg 0x050, reg pBist oStatus] [.resp] s u) ∧
  (∀ (t : Nat) (a : Agent) (v : Word) (n c : Nat) (x : Test) (s : State), privileged a = true → Opens a pBist s →
    fld v 31 28 = 2 → n = fld v 8 0 → UnitIndex n → s.test? n = some x → x.claim = some c →
    (s.claimOf c).any (·.queued) = true →
    Yields (.bistAbort t a v) s fun u =>
      u.test? n = none ∧ u.claimOf c = none ∧ u.rb (reg pLedger oEvent) 3 = (!s.inSelftest pLedger || s.rb (reg pLedger oEvent) 3) ∧
        u.resp = .ok) ∧
  (∀ (t : Nat) (a : Agent) (v : Word) (n : Nat) (x : Test) (s : State), privileged a = true → Opens a pBist s →
    fld v 31 28 = 2 → n = fld v 8 0 → UnitIndex n → s.test? n = some x →
    x.claim.all (fun c => !(s.claimOf c).any (·.queued)) = true →
    Yields (.bistAbort t a v) s fun u =>
      u.test? n = some { x with abort := true } ∧ u.resp = .ok ∧ Only [] [.bist, .resp] s u) ∧
  (∀ (t : Nat) (n : Fin 308) (x : Test) (s z : State), z = s.upTo t → s.test? n = some x → x.since = none →
    x.claim.all s.claimGranted = true →
    Yields (.testStart t n) s fun u =>
      (∀ p, p ∈ unitPages n → u.inSelftest p = true) ∧
        u.test? n = some { x with since := some z.now, prev := s.unitState (unitPage n) } ∧
        (∀ q, n.val = 144 + q → q < 48 → (s.sq q).armed = none → s.running q = true →
          u.runOf q = 4 ∧ u.rf (qreg q 0x05C) 11 8 = 2) ∧
        (∀ i, i ∈ s.unitPins n → 144 ≤ n.val → n.val < 288 → (u.pin i).oe = false) ∧
        (n.val = 307 → ∀ k, k < 8 → u.linkUp k = false) ∧ (n.val < 96 → (u.region n).holds = []) ∧
        (288 ≤ n.val → n.val < 304 → ∀ g, g < 32 → bits (gclkByte s.store.clocks g) 7 6 = 3 →
          bits (gclkByte s.store.clocks g) 4 0 = n.val - 288 → u.gclkRuns g = false)) ∧
  (∀ (t : Nat) (n : Fin 308) (c : Nat) (x : Test) (s : State), s.test? n = some x → x.claim = some c →
    s.claimGranted c = false →
    Yields (.testStart t n) s fun u => Only [] [] s u) ∧
  (∀ (t pats k r : Nat) (n : Fin 308) (caps : List (BitVec 64)) (mem : Bool) (x : Test) (s z : State), z = s.upTo t →
    s.test? n = some x → x.since.isSome = true → x.ended = none → x.why < 4 → s.inSelftest pBist = false →
    k = (if x.abort ∨ s.metaStopped then min pats (unitPatterns n) else unitPatterns n) →
    r = (if mem then 2 else if k < unitPatterns n then 3 else if misrOf caps = unitSig n then 1 else 2) →
    Yields (.testEnd t n pats caps mem) s fun u =>
      u.rf (breg (0x200 + 4 * n)) 31 29 = r ∧ u.rf (breg (0x200 + 4 * n)) 28 27 = x.why ∧
        u.rb (breg (0x200 + 4 * n)) 25 = mem ∧ u.rf (breg (0x200 + 4 * n)) 15 0 = k ∧
        u.test? n = some { x with ended := some (z.now, r) } ∧ (∀ p, p ∈ unitPages n → u.rb (reg p oCtrl) 0 = false) ∧
        (r ≠ 3 → u.rb (reg pBist oEvent) 0 = true) ∧ (r = 2 → u.rb (reg pBist oEvent) 1 = true) ∧
        (r = 3 → u.rb (reg pBist oEvent) 2 = true) ∧
        tabGet 0 u.bist.misr n = (misrOf caps).toNat ∧ (n.val = 307 → u.lat.remotes = s.lat.remotes) ∧
        (∀ q, n.val = 144 + q → q < 48 →
          u.sq q = { logClaim := (s.sq q).logClaim, logQueued := (s.sq q).logQueued } ∧
          (∀ o, o ∈ [0x040, 0x044, 0x048, 0x070] → u.rd (qreg q o) = 0) ∧ (∀ b, b < 0x10000 → u.byte (progBase q + b) = 0) ∧
          (∀ b, b < 0x80000 → u.byte (vecBase q + b) = 0) ∧ ∀ b, b < 0x20000 → u.byte (resBase q + b) = 0)) ∧
  (∀ (t r b : Nat) (n : Fin 308) (x : Test) (s : State), s.test? n = some x → x.ended = some (b, r) →
    s.pwr.phase = .user → s.bist.todo = [] →
    Yields (.isolationEnd t n) s fun u =>
      (∀ p, p ∈ unitPages n → u.unitState p =
        if r = 2 then 5 else if r = 1 then 0 else if x.why = 2 then 6
        else if x.prev = 5 ∨ x.prev = 6 then x.prev else 0) ∧
        u.test? n = none ∧ (∀ c, x.claim = some c → u.claimOf c = none) ∧
        (∀ k, k < 96 → s.regionParked k = false → ∀ h, h ∈ (u.region k).holds → h.page ∈ unitPages n →
          ∃ y, h.req = .access y) ∧
        (r = 2 → s.inSelftest pBist = false → u.rb (reg pBist oEvent) 3 = true)) ∧
  (∀ (t r b : Nat) (n : Fin 308) (x : Test) (s : State), s.bist.tests = [(n.val, x)] → x.ended = some (b, r) →
    s.pwr.phase = .test → s.bist.todo = [] → s.inSelftest pStw = false →
    Yields (.isolationEnd t n) s fun u =>
      u.pwr.phase = .done ∧ u.rf (reg pStw 0x040) 31 29 = 4 ∧ u.rb (reg pStw oEvent) 2 = true) ∧
  (∀ (t b k : Nat) (s z : State), z = s.upTo t → s.pwr.phase = .test → s.bist.shut = some b → b + ms 100 ≤ z.now →
    Yields (.selftestHoldTimeout t) s fun u =>
      ((∃ c, c ∈ s.ledger.claims ∧ c.activity ≠ actSelftest ∧ (clashAt (unitRes k) c.res).isSome = true) →
        k ∉ u.bist.todo) ∧
        ((∀ c, c ∈ s.ledger.claims → clashAt (unitRes k) c.res = none) → k ∈ s.bist.todo → k ∈ u.bist.todo) ∧
        u.bist.tests = s.bist.tests ∧ u.bist.recs = s.bist.recs) ∧
  (∀ (t : Nat) (a : Agent) (v : Word) (s : State), Opens a pBist s →
    Yields (.bistCfgWrite t a v) s fun u =>
      u.bist = { s.bist with policy := bit v 0 } ∧ u.resp = .ok ∧ Only [] [.bist, .resp] s u)

/-- A new claim on words `ws` with power `mw` is neither refused nor in conflict (R355, R356). -/
abbrev Claimable (act : Nat) (ws : List Word) (mw : Nat) (s : State) : Prop :=
  ws.all resOk = true ∧ s.shutRefuses act = false ∧ (∀ c, c ∈ s.ledger.claims → clashAt ws c.res = none) ∧
    (s.ledger.reroot = true → clashAt ws [resUnit pCar] = none) ∧ s.ledger.claims.length < 64 ∧ mw ≤ s.budget

/-- The words and the power of the claim that a write `v` of CLAIM_CTRL submits (R357). -/
abbrev HostClaim (v : Word) (ws : List Word) (mw : Nat) (s : State) : Prop :=
  bit v 31 = true ∧ (fld v 27 24 = 1 ∨ fld v 27 24 = 2) ∧
    ws = (List.range (fld v 23 20 + 1)).map (fun i => s.rd (reg pLedger (0x050 + 4 * i))) ∧
    ws.all (fun w => !(fld w 31 30 = 1 && fld w 9 8 = 3)) = true ∧
    mw = 100 * (ws.filter fun w => fld w 31 30 = 1 && (fld w 9 8 = 1 || fld w 9 8 = 2)).length + fld v 16 0

/-- The maintenance ledger: claims granted, queued and refused, releases and the power budget (R355 to R360, Tables 12.5 to
12.7 and 12.10). Model's choices: assumptions 136, 137, 213. -/
def Obligations.MaintenanceLedger : Prop :=
  (∀ (t : Nat) (a : Agent) (v : Word) (ws : List Word) (mw : Nat) (s : State), Opens a pLedger s →
    HostClaim v ws mw s → Claimable (fld v 27 24) ws mw s → s.claimQueue = [] → s.grantedMw + mw ≤ s.budget →
    Yields (.claimSubmit t a v) s fun u =>
      (∃ n, n < 256 ∧ (∀ c, c ∈ s.ledger.claims → c.number % 64 ≠ n % 64) ∧
        u.ledger.claims = s.ledger.claims ++ [{ number := n, activity := fld v 27 24, agent := agHost, res := ws, mw := mw
                                                queued := false }] ∧
        u.rd (reg pLedger 0x094) = word (2 ^ 30 + n)) ∧
        u.rb (reg pLedger oEvent) 0 = true ∧ u.resp = .ok ∧
        Only [reg pLedger 0x090, reg pLedger 0x094, reg pLedger oEvent] (.ledger :: .free :: .resp :: eventParts) s u) ∧
  (∀ (t : Nat) (a : Agent) (v : Word) (ws : List Word) (mw : Nat) (s : State), Opens a pLedger s →
    HostClaim v ws mw s → Claimable (fld v 27 24) ws mw s → (s.claimQueue ≠ [] ∨ s.budget < s.grantedMw + mw) →
    s.claimQueue.length < 16 →
    Yields (.claimSubmit t a v) s fun u =>
      (∃ n, n < 256 ∧ (∀ c, c ∈ s.ledger.claims → c.number % 64 ≠ n % 64) ∧
        u.ledger.claims = s.ledger.claims ++ [{ number := n, activity := fld v 27 24, agent := agHost, res := ws, mw := mw
                                                queued := true }] ∧
        u.rd (reg pLedger 0x094) = word (2 * 2 ^ 30 + n)) ∧
        u.rb (reg pLedger oEvent) 1 = true ∧ u.resp = .ok ∧
        Only [reg pLedger 0x090, reg pLedger 0x094, reg pLedger oEvent] (.ledger :: .free :: .resp :: eventParts) s u) ∧
  (∀ (t : Nat) (a : Agent) (v : Word) (ws : List Word) (mw i : Nat) (c : Claim) (r : List Claim) (s : State),
    Opens a pLedger s → HostClaim v ws mw s → ws.all resOk = true → s.shutRefuses (fld v 27 24) = false →
    s.ledger.claims = c :: r → clashAt ws c.res = some i →
    Yields (.claimSubmit t a v) s fun u =>
      u.ledger = s.ledger ∧ u.rd (reg pLedger 0x09C) = word (c.number * 0x1000000 + c.agent * 0x10000 + c.activity * 0x1000 + i) ∧
        u.rf (reg pLedger 0x094) 31 30 = 3 ∧ u.rf (reg pLedger 0x094) 23 16 = Reason.conflict.code ∧
        u.rf (reg pLedger oStatus) 15 8 = Reason.conflict.code ∧ u.rb (reg pLedger oEvent) 2 = true ∧ u.resp = .refused ∧
        Only [reg pLedger 0x090, reg pLedger 0x094, reg pLedger 0x09C, reg pLedger oStatus, reg pLedger oEvent]
          (.free :: .resp :: eventParts) s u) ∧
  (∀ (t : Nat) (a : Agent) (v : Word) (ws : List Word) (mw : Nat) (s : State), Opens a pLedger s →
    HostClaim v ws mw s → ws.all resOk = true → s.shutRefuses (fld v 27 24) = false → s.clashing ws = none →
    (s.ledger.reroot = true → clashAt ws [resUnit pCar] = none) →
    (64 ≤ s.ledger.claims.length ∨ s.budget < mw) →
    Yields (.claimSubmit t a v) s fun u =>
      u.ledger = s.ledger ∧ u.rf (reg pLedger 0x094) 31 30 = 3 ∧
        u.rf (reg pLedger 0x094) 23 16 = Reason.budget.code ∧ u.rb (reg pLedger oEvent) 2 = true ∧ u.resp = .refused) ∧
  (∀ (t : Nat) (a : Agent) (v : Word) (s : State), Opens a pLedger s → bit v 31 = true → fld v 27 24 ≠ 1 →
    fld v 27 24 ≠ 2 →
    Yields (.claimSubmit t a v) s fun u =>
      u.ledger = s.ledger ∧ u.rf (reg pLedger 0x094) 31 30 = 3 ∧
        u.rf (reg pLedger 0x094) 23 16 = Reason.range.code ∧ u.rb (reg pLedger oEvent) 2 = true ∧ u.resp = .refused) ∧
  (∀ (t : Nat) (a : Agent) (v : Word) (c : Claim) (s : State), Opens a pLedger s → bit v 31 = true →
    s.claimOf (fld v 7 0) = some c → c.agent = agHost → s.bist.todo = [] →
    Yields (.release t a v) s fun u =>
      u.claimOf (fld v 7 0) = none ∧ u.rb (reg pLedger oEvent) 3 = true ∧ u.resp = .ok ∧
        (s.claimQueue = [] → u.ledger.claims = s.ledger.claims.filter (·.number != fld v 7 0)) ∧
        Only [reg pLedger 0x094, reg pLedger oEvent] (.ledger :: .resp :: eventParts) s u) ∧
  (∀ (t : Nat) (a : Agent) (v : Word) (c d : Claim) (s : State), Opens a pLedger s → bit v 31 = true →
    s.ledger.claims = [c, d] → c.number = fld v 7 0 → c.agent = agHost → c.queued = false → d.number ≠ c.number →
    d.queued = true → d.mw ≤ s.budget → s.bist.tests = [] → s.bist.todo = [] →
    Yields (.release t a v) s fun u => u.ledger.claims = [{ d with queued := false }]) ∧
  (∀ (t k : Nat) (a : Agent) (v : Word) (c : Claim) (s : State), Opens a pLedger s → bit v 31 = true →
    s.ledger.claims = [c] → c.number = fld v 7 0 → c.agent = agHost → s.ledger.reroot = false → s.pwr.phase = .test →
    s.bist.tests = [] → s.bist.todo = [k] → k < 304 → unitMw k ≤ s.budget →
    Yields (.release t a v) s fun u =>
      u.bist.todo = [] ∧ ∃ n, u.test? k = some { claim := some n, why := 1 } ∧ u.claimGranted n = true) ∧
  (∀ (t : Nat) (a : Agent) (v : Word) (s : State), Opens a pLedger s → bit v 31 = true →
    (s.claimOf (fld v 7 0)).all (·.agent != agHost) = true →
    Yields (.release t a v) s fun u =>
      u.rf (reg pLedger oStatus) 15 8 = Reason.owner.code ∧ u.resp = .refused ∧ Only [reg pLedger oStatus] [.resp] s u) ∧
  (∀ (t : Nat) (a : Agent) (v : Word) (s : State), Opens a pLedger s → 1000 ≤ fld v 16 0 → fld v 16 0 ≤ 100000 →
    s.bist.todo = [] →
    Yields (.budgetWrite t a v) s fun u =>
      u.budget = fld v 16 0 ∧ u.resp = .ok ∧
        (fld v 16 0 < s.grantedMw → u.rb (reg pLedger oEvent) 4 = true ∧ u.ledger = s.ledger) ∧
        (s.grantedMw ≤ fld v 16 0 → ∀ d r, s.claimQueue = d :: r → s.grantedMw + d.mw ≤ fld v 16 0 →
          ∀ c, c ∈ u.ledger.claims → c.number = d.number → c.queued = false) ∧
        Only [reg pLedger 0x040, reg pLedger 0x094, reg pLedger oEvent] (.ledger :: .resp :: eventParts) s u) ∧
  (∀ (t k : Nat) (a : Agent) (v : Word) (s : State), Opens a pLedger s → 1000 ≤ fld v 16 0 → fld v 16 0 ≤ 100000 →
    s.ledger.claims = [] → s.ledger.reroot = false → s.pwr.phase = .test → s.bist.tests = [] → s.bist.todo = [k] → k < 304 →
    unitMw k ≤ fld v 16 0 →
    Yields (.budgetWrite t a v) s fun u =>
      u.budget = fld v 16 0 ∧ u.bist.todo = [] ∧
        ∃ n, u.test? k = some { claim := some n, why := 1 } ∧ u.claimGranted n = true) ∧
  (∀ (t : Nat) (a : Agent) (v : Word) (s : State), Opens a pLedger s → (fld v 16 0 < 1000 ∨ 100000 < fld v 16 0) →
    Yields (.budgetWrite t a v) s fun u =>
      u.rf (reg pLedger oStatus) 15 8 = Reason.range.code ∧ u.resp = .refused ∧ Only [reg pLedger oStatus] [.resp] s u)

/-- A life-cycle command `op` on `target` with unlock mask `mask` passes checks 1 to 5 of Table 13.2, and the ALL claim
is granted. -/
abbrev LcPasses (op target mask : Nat) (s : State) : Prop :=
  s.lcRange op target mask = false ∧ s.lifeBusy = false ∧ s.pwr.phase ≠ .drain ∧ s.pwr.phase ≠ .test ∧
    s.pwr.phase ≠ .done ∧ s.pwr.phase ≠ .reset ∧ s.pwr.phase ≠ .fault ∧ s.lcForbidden op target = false ∧
    s.lcUnready op target = false ∧ granted (s.claim actLife agStw [resAll] 0).1 = true

/-- A life-cycle command was refused with reason `r`: the token is cleared (Table 13.2). -/
def LcRefused (r : Reason) (s u : State) : Prop :=
  u.rd (lifeReg 0x04C) = word (r.code * 2 ^ 24 + 2 * 2 ^ 22) ∧ u.rb (reg pLife oEvent) 0 = true ∧
    u.rf (reg pLife oStatus) 15 8 = r.code ∧ u.resp = .refused ∧ (∀ i, i < 8 → u.rd (lifeReg (0x060 + 4 * i)) = 0) ∧
    u.life = s.life

/-- Life-cycle commands, their OTP bits and the profile (R366 to R376, Tables 13.2 and 13.3).
Model's choices: assumptions 13, 147, 150, 152. -/
def Obligations.LifeCycle : Prop :=
  (∀ e, e ∈ [(Instr.advance, 1), (Instr.unlock, 2)] → ∀ (t : Nat) (a : Agent) (v : Word) (s z : State), z = s.upTo t →
    Opens a pLife s → fld v 31 28 = e.2 → LcPasses e.2 (fld v 20 18) (fld v 9 8) s → s.lcBits e.2 (fld v 20 18) ≠ [] →
    Yields (e.1 t a v) s fun u =>
      if (s.lcDigest e.2 (fld v 20 18)).all (fun d => sha256 s.token == d) then
        u.life = { s.life with cmd := some { advance := e.2 = 1, unlock := fld v 9 8, left := s.lcBits e.2 (fld v 20 18)
                                             since := z.now }
                               held := true } ∧
          u.rd (lifeReg 0x04C) = word (2 ^ 22) ∧ (u.ledger.claims.any fun c => !c.queued && c.res == [resAll]) = true ∧
          (∀ k, k < 8 → u.isOn (pPort k) = false) ∧ u.resp = .ok
      else
        u.rf (lifeReg 0x040) 19 16 = s.rf (lifeReg 0x040) 19 16 + 1 ∧
          u.rd (lifeReg 0x04C) = word (7 * 2 ^ 24 + 3 * 2 ^ 22) ∧ (∀ i, i < 8 → u.rd (lifeReg (0x060 + 4 * i)) = 0) ∧
          u.rb (reg pLife oEvent) 1 = true ∧ (s.rf (lifeReg 0x040) 19 16 = 7 → u.rb (reg pLife oEvent) 2 = true) ∧
          u.life = s.life ∧ u.ledger.claims = s.ledger.claims ∧ u.resp = .refused) ∧
  (∀ (t : Nat) (a : Agent) (v : Word) (s z : State), z = s.upTo t → Opens a pLife s → fld v 31 28 = 2 →
    LcPasses 2 (fld v 20 18) (fld v 9 8) s → s.lcState = 1 →
    Yields (.unlock t a v) s fun u =>
      u.pwr.phase = .reset ∧ u.life.latch = fld v 9 8 ∧ u.life.cmd = none ∧ u.rd (reg pStw 0x048) = 4 ∧
        u.pwr.startAt = z.now + us 10 ∧ u.ledger = {}) ∧
  (∀ e, e ∈ [(Instr.advance, 1), (Instr.unlock, 2)] → ∀ (t : Nat) (a : Agent) (v : Word) (s : State),
    Opens a pLife s → fld v 31 28 = e.2 → s.lcRange e.2 (fld v 20 18) (fld v 9 8) = true →
    Yields (e.1 t a v) s (LcRefused .range s)) ∧
  (∀ e, e ∈ [(Instr.advance, 1), (Instr.unlock, 2)] → ∀ (t : Nat) (a : Agent) (v : Word) (s : State),
    Opens a pLife s → fld v 31 28 = e.2 → s.lcRange e.2 (fld v 20 18) (fld v 9 8) = false → s.lifeBusy = true →
    Yields (e.1 t a v) s (LcRefused .conflict s)) ∧
  (∀ e, e ∈ [(Instr.advance, 1), (Instr.unlock, 2)] → ∀ (t : Nat) (a : Agent) (v : Word) (s : State),
    Opens a pLife s → fld v 31 28 = e.2 → s.lcRange e.2 (fld v 20 18) (fld v 9 8) = false → s.lifeBusy = false →
    s.pwr.phase = .user → s.lcForbidden e.2 (fld v 20 18) = true →
    Yields (e.1 t a v) s (LcRefused .lifecycle s)) ∧
  (∀ (t b : Nat) (r : List Nat) (c : LcCmd) (s : State), s.metaStopped = false → s.life.cmd = some c →
    c.left = b :: r → r ≠ [] →
    Yields (.otpBitDone t true) s fun u =>
      u.cells b = 8 ∧ u.life.cmd = some { c with left := r } ∧ (∀ k, k ≠ b → u.cells k = s.cells k) ∧
        Only [] [.life] s u) ∧
  (∀ (t b : Nat) (c : LcCmd) (s z : State), z = s.upTo t → s.metaStopped = false → s.life.cmd = some c →
    c.left = [b] → s.life.sec = none →
    Yields (.otpBitDone t true) s fun u =>
      u.cells b = 8 ∧ (∀ k, k ≠ b → u.cells k = s.cells k) ∧ u.life.cmd = none ∧ u.pwr.phase = .reset ∧
        u.rd (reg pStw 0x048) = 4 ∧ u.pwr.startAt = z.now + us 10 ∧ u.life.latch = (if c.advance then 0 else c.unlock) ∧
        u.life.cause = if c.advance then 1 else 2) ∧
  (∀ (t b : Nat) (r : List Nat) (c : LcCmd) (s : State), s.metaStopped = false → s.life.cmd = some c →
    c.left = b :: r → s.inSelftest pLife = false →
    Yields (.otpBitDone t false) s fun u =>
      u.life.cmd = none ∧ u.life.fault = true ∧ u.rd (lifeReg 0x04C) = word (7 * 2 ^ 24 + 2 * 2 ^ 22) ∧
        u.rb (reg pLife oEvent) 0 = true) ∧
  (∀ (t : Nat) (ok : Bool) (s : State), s.metaStopped = true →
    Yields (.otpBitDone t ok) s fun u => Only [] [] s u) ∧
  (∀ (t : Nat) (a : Agent) (v : Word) (s : State), Opens a pLife s → fld v 1 0 ≠ 3 → s.lcState ≠ 5 →
    (s.lcState < 3 ∨ s.profile ≤ fld v 1 0) →
    Yields (.profileWrite t a v) s fun u =>
      u.profile = fld v 1 0 ∧ (s.profile ≠ fld v 1 0 → u.rb (reg pLife oEvent) 4 = true) ∧ u.resp = .ok ∧
        Only [lifeReg 0x044, reg pLife oEvent] (.resp :: eventParts) s u) ∧
  (∀ (t : Nat) (a : Agent) (v : Word) (s : State), Opens a pLife s → fld v 1 0 ≠ 3 →
    (s.lcState = 5 ∨ 3 ≤ s.lcState ∧ fld v 1 0 < s.profile) →
    Yields (.profileWrite t a v) s fun u =>
      u.rf (reg pLife oStatus) 15 8 = Reason.lifecycle.code ∧ u.resp = .refused ∧ Only [reg pLife oStatus] [.resp] s u)

/-- A SECURITY command was refused with reason `r`. -/
def SecRefused (r : Reason) (s u : State) : Prop :=
  u.rd (secreg 0x048) = word (r.code * 2 ^ 24 + 2 ^ 23) ∧ u.rb (reg pSec oEvent) 1 = true ∧
    u.rf (reg pSec oStatus) 15 8 = r.code ∧ u.resp = .refused ∧
    Only [secreg 0x048, reg pSec oStatus, reg pSec oEvent] (.resp :: eventParts) s u

/-- Digests and keys of the SECURITY page (R380, R381, R385). Model's choices: assumptions 13, 153, 154, 155, 156. -/
def Obligations.SecurityCommands : Prop :=
  (∀ e, e ∈ [(Instr.writeDigest, 1), (Instr.installKey, 2), (Instr.revokeKey, 3), (Instr.setSealDefault, 4)] →
    ∀ (t tg slot : Nat) (a : Agent) (v : Word) (s : State), Opens a pSec s → fld v 31 28 = e.2 →
    tg = fld v 12 8 → slot = fld v 2 0 → s.secRange e.2 tg slot = false → s.lifeBusy = false → s.pwr.phase = .user →
    s.secConflict e.2 tg slot = false → s.secForbidden e.2 = false →
    Yields (e.1 t a v) s fun u =>
      if e.2 = 2 ∧ onCurve s.stagedPoint = false then SecRefused .inconsistent s u
      else
        u.life.sec = some { op := e.2, target := if e.2 = 1 then tg else slot, left := s.secBits e.2 } ∧
          (e.2 = 1 → (u.digest tg).value = some s.stagedDigest ∧ (u.digest tg).commit = (s.digest tg).commit) ∧
          (e.2 = 2 → (u.keySlot slot).value = some (s.stagedId, s.stagedPoint) ∧
            (u.keySlot slot).commit = (s.keySlot slot).commit) ∧
          u.resp = .ok ∧ Only [] [.life, .resp] s u) ∧
  (∀ e, e ∈ [(Instr.writeDigest, 1), (Instr.installKey, 2), (Instr.revokeKey, 3), (Instr.setSealDefault, 4)] →
    ∀ (t tg slot : Nat) (a : Agent) (v : Word) (r : Reason) (s : State), Opens a pSec s →
    fld v 31 28 = e.2 → tg = fld v 12 8 → slot = fld v 2 0 →
    (s.secRange e.2 tg slot = true ∧ r = .range ∨
      s.secRange e.2 tg slot = false ∧ s.secConflict e.2 tg slot = true ∧ r = .conflict ∨
      s.secRange e.2 tg slot = false ∧ s.lifeBusy = false ∧ s.pwr.phase = .user ∧ s.secConflict e.2 tg slot = false ∧
        s.secForbidden e.2 = true ∧ r = .lifecycle) →
    Yields (e.1 t a v) s (SecRefused r s)) ∧
  (∀ (t : Nat) (c : SecCmd) (s : State), s.metaStopped = false → s.life.cmd = none → s.life.sec = some c →
    1 < c.left →
    Yields (.otpBitDone t true) s fun u =>
      u.life = { s.life with sec := some { c with left := c.left - 1 } } ∧ Only [] [.life] s u) ∧
  (∀ (t : Nat) (c : SecCmd) (s : State), s.metaStopped = false → s.life.cmd = none → s.life.sec = some c →
    c.left ≤ 1 → s.inSelftest pSec = false →
    Yields (.otpBitDone t true) s fun u =>
      u.life.sec = none ∧ (c.op = 1 → (u.digest c.target).commit = true) ∧ (c.op = 2 → (u.keySlot c.target).commit = true) ∧
        (c.op = 3 → (u.keySlot c.target).revoked = true) ∧ (c.op = 4 → u.life.sealed = true) ∧
        u.rf (secreg 0x048) 23 22 = 3 ∧ u.rb (reg pSec oEvent) 0 = true ∧
        (c.op = 2 → u.rb (reg pSec oEvent) 2 = true) ∧ (c.op = 3 → u.rb (reg pSec oEvent) 3 = true) ∧
        Only [secreg 0x048, reg pSec oEvent] (.life :: eventParts) s u) ∧
  (∀ (t : Nat) (c : SecCmd) (s : State), s.metaStopped = false → s.life.cmd = none → s.life.sec = some c →
    s.inSelftest pSec = false →
    Yields (.otpBitDone t false) s fun u =>
      u.life.sec = none ∧ u.life.fault = true ∧ u.rd (secreg 0x048) = word (7 * 2 ^ 24 + 2 ^ 23) ∧
        u.rb (reg pSec oEvent) 1 = true)

/-- The device stands in reset for cause `cause`: every unit's state is gone; the self-test records, the OTP and the levels at
the balls remain (R390, R391). -/
def ResetFor (cause : Nat) (s u : State) : Prop :=
  u.rd (reg pStw 0x048) = word cause ∧ u.pwr.ready = false ∧ u.pwr.serving = false ∧ u.mem = [] ∧ u.doms = [] ∧
    u.seqs = [] ∧ u.tsets = [] ∧ u.ctr = {} ∧ u.ledger = {} ∧ u.protos = [] ∧ u.lanes = [] ∧ u.regions = [] ∧
    u.anas = [] ∧ u.trims = [] ∧ u.checks = [] ∧ u.ep = { perst := s.ep.perst } ∧ u.bist.recs = s.bist.recs ∧
    u.life.cmd = none ∧ u.life.sec = none ∧ u.taken = [] ∧ u.offs = [] ∧ u.deepLast = [] ∧
    (s.life.cmd = none → s.life.sec = none → u.life.pairs = s.life.pairs ∧ u.life.digests = s.life.digests ∧
      u.life.keys = s.life.keys ∧ u.life.sealed = s.life.sealed) ∧
    (∀ i, (u.pin i).cmph = (s.pin i).cmph ∧ (u.pin i).cmpl = (s.pin i).cmpl ∧ (u.pin i).uv = (s.pin i).uv ∧
      (u.pin i).mid = (s.pin i).mid) ∧ (∀ g, (u.grp g).mv = (s.grp g).mv) ∧
    ∀ k, k / 4096 ≠ pStw → k / 4096 ≠ pPower → k / 4096 ≠ pStore → k / 4096 ≠ pLife → u.rd k = regReset k

/-- A fault of code `code` holds the device in reset with FAULT_N low (R393, Table 14.3). -/
def HeldFor (code : Nat) (u : State) : Prop :=
  u.pwr.phase = .fault ∧ u.pwr.hold = code ∧ u.pwr.faultN = true ∧ u.rd (reg pStw 0x044) = word code ∧
    u.pwr.ready = false ∧ u.pwr.serving = false

/-- Supplies, RESET_N, DEV_RESET and the thermal trip (R232, R389 to R393, R401, Tables 14.2 and 14.3).
Model's choices: assumptions 85, 148, 160, 161, 162. -/
def Obligations.PowerAndReset : Prop :=
  (∀ (t : Nat) (ok : Bool) (s : State), s.pwr.vaux = false → (s.rollOwed = false ∨ s.metaStopped = true) →
    Yields (.powerOn t ok) s fun u =>
      u.pwr = { s.pwr with vaux := true, phase := .reset } ∧ u.rd (reg pStw 0x048) = 0 ∧
        Only [reg pStw 0x048] [.pwr] s u) ∧
  (∀ (t : Nat) (s : State), s.pwr.vaux = false → s.rollOwed = true → s.metaStopped = false →
    Yields (.powerOn t true) s fun u =>
      u.pwr.vaux = true ∧ u.pwr.phase = .reset ∧ (∀ p, p ∈ s.torn → u.cells (2 * p + 1) = 8) ∧
        (∀ b, b < 42 → 5 ≤ s.cells b → u.cells b = max 8 (s.cells b)) ∧
        (s.torn ≠ [] → u.rb (lifeReg 0x040) 28 = true ∧ u.life.cause = 3)) ∧
  (∀ (t : Nat) (s : State), s.pwr.vaux = false → s.rollOwed = true → s.metaStopped = false →
    s.pwr.ready = false → s.pwr.serving = false → Yields (.powerOn t false) s (HeldFor 0x22)) ∧
  (∀ (t : Nat) (ok : Bool) (s : State), s.pwr.vaux = true → Yields (.powerOn t ok) s fun u => Only [] [] s u) ∧
  (∀ (t : Nat) (s : State), s.pwr.vaux = true →
    Yields (.vauxLost t) s fun u =>
      ResetFor 0 s u ∧ u.pwr.vaux = false ∧ u.pwr.smbAddr = 0x5A ∧ u.pwr.smbAr = false ∧ u.jtag = {} ∧ u.life.latch = 0 ∧
        u.rd (reg pStw 0x044) = 0) ∧
  (∀ (t : Nat) (k : Fin 5) (s : State), s.pwr.phase ≠ .reset → s.pwr.phase ≠ .fault →
    Yields (.railLost t k) s fun u =>
      ResetFor 1 s u ∧ u.pwr.phase = .reset ∧ u.rd (reg pPower 0x040) = word (k + 1) ∧
        nbit u.pwr.rails (k + 1) = false ∧ (k.val ≤ 1 → u.jtag = {})) ∧
  (∀ (t : Nat) (k : Fin 5) (s : State), (s.pwr.phase = .reset ∨ s.pwr.phase = .fault) →
    Yields (.railLost t k) s fun u =>
      nbit u.pwr.rails (k + 1) = false ∧ u.pwr.phase = s.pwr.phase ∧ Only [] [.pwr, .jtag] s u) ∧
  (∀ (t q : Nat) (k : Fin 5) (x : DQueue) (j : Job) (s z : State), z = s.upTo t → s.pwr.phase ≠ .reset →
    s.pwr.phase ≠ .fault → s.store.queues = [(q, x)] → x.running = [j] → isOperation j.desc.op = true → j.fetch = false →
    j.ended = none → j.stopped = none → (j.desc.op = opProgram → 0 < j.data.length) → j.desc.bank < 104 →
    z.store.pfFall.all (fun b => decide (z.now < b + us 50)) = true →
    Yields (.railLost t k) s fun u => ∀ w, w < 512 → (u.flashWord j.desc.bank j.desc.sector w).undef = true) ∧
  (∀ (t : Nat) (s z : State), z = s.upTo t → s.pwr.vaux = true → s.thermalHold = false →
    Yields (.resetNFall t) s fun u =>
      ResetFor 2 s u ∧ u.pwr.phase = .reset ∧ u.pwr.resetN = false ∧ u.pwr.resetLow = some z.now ∧ u.life.latch = 0) ∧
  (∀ (t : Nat) (s z : State), z = s.upTo t → s.pwr.vaux = true → s.thermalHold = true →
    Yields (.resetNFall t) s fun u =>
      u.pwr = { s.pwr with resetN := false, resetLow := some z.now } ∧ Only [] [.pwr] s u) ∧
  (∀ (t : Nat) (a : Agent) (v : Word) (s z : State), z = s.upTo t → Opens a pStw s → v = 0xC0960001 →
    Yields (.devReset t a v) s fun u =>
      ResetFor 3 s u ∧ u.pwr.phase = .reset ∧ u.pwr.startAt = z.now + us 10 ∧ u.life.latch = 0) ∧
  (∀ (t : Nat) (a : Agent) (v : Word) (s : State), Opens a pStw s → v ≠ 0xC0960001 →
    Yields (.devReset t a v) s fun u =>
      u.rf (reg pStw oStatus) 15 8 = Reason.range.code ∧ u.resp = .refused ∧ Only [reg pStw oStatus] [.resp] s u) ∧
  (∀ (t : Nat) (fab : List (BitVec 16)) (store : BitVec 16) (top : Int) (s : State), s.pwr.vaux = true →
    top ∈ fab.map (fun x => x.toInt) → fab.all (fun x => decide (x.toInt ≤ top)) = true → fab.length = 16 → s.pwr.phase ≠ .reset →
    s.pwr.phase ≠ .fault → (top < 2000 ∨ s.pwr.hot < 9) → s.inSelftest pPower = false →
    Yields (.thermalReading t fab store) s fun u =>
      u.rd (reg pPower 0x050) = word (unsigned 16 top) ∧ u.rd (reg pPower 0x054) = word store.toNat ∧
        u.pwr.top = top ∧ u.pwr.hot = (if 2000 ≤ top then s.pwr.hot + 1 else 0) ∧ u.pwr.phase = s.pwr.phase ∧
        (s.rb (reg pPower 0x064) 1 = false → signed 16 (s.rf (reg pPower 0x060) 15 0) ≤ top →
          u.rb (reg pPower 0x064) 1 = true ∧ u.rb (reg pPower oEvent) 0 = true) ∧
        (s.rb (reg pPower 0x064) 1 = true →
          top < signed 16 (s.rf (reg pPower 0x060) 15 0) - 16 * s.rf (reg pPower 0x060) 23 16 →
          u.rb (reg pPower 0x064) 1 = false ∧ u.rb (reg pPower oEvent) 1 = true) ∧
        Only [reg pPower 0x050, reg pPower 0x054, reg pPower 0x064, reg pPower oEvent] (.pwr :: eventParts) s u) ∧
  (∀ (t : Nat) (fab : List (BitVec 16)) (store : BitVec 16) (top : Int) (s : State), s.pwr.vaux = true →
    top ∈ fab.map (fun x => x.toInt) → fab.all (fun x => decide (x.toInt ≤ top)) = true → fab.length = 16 → s.pwr.phase ≠ .reset →
    s.pwr.phase ≠ .fault → 2000 ≤ top → 9 ≤ s.pwr.hot →
    Yields (.thermalReading t fab store) s fun u =>
      HeldFor 0x30 u ∧ u.rd (reg pStw 0x048) = 5 ∧ u.pwr.top = top ∧ u.rd (reg pPower 0x050) = 0 ∧
        u.rb (reg pPower 0x064) 0 = true ∧ u.mem = [] ∧ u.ledger = {}) ∧
  (∀ (t : Nat) (fab : List (BitVec 16)) (store : BitVec 16) (s : State), s.pwr.vaux = false →
    Yields (.thermalReading t fab store) s fun u => Only [] [] s u)

/-- A start can begin at this instant (R394). -/
abbrev StartDue (s z : State) : Prop :=
  s.pwr.vaux = true ∧ s.pwr.phase = .reset ∧ s.pwr.startAt ≤ z.now

/-- The start, its end, and the orderly shutdown (R17, R351, R394 to R400, Tables 14.5 and 14.6).
Model's choices: assumptions 139, 146, 159, 163, 165, 182, 187. -/
def Obligations.StartAndShutdown : Prop :=
  (∀ (t : Nat) (straps : BitVec 4) (s z : State), z = s.upTo t → StartDue s z → s.life.fault = false →
    s.rollOwed = false →
    Yields (.start t straps true {}) s fun u =>
      u.pwr.phase = .starting ∧ u.pwr.t0 = z.now ∧ u.pwr.straps = straps.toNat ∧ u.pwr.resetN = true ∧
        u.pwr.faultN = false ∧ u.rd (reg pStw 0x050) = word straps.toNat ∧ u.rd (reg 0 0x064) = 1 ∧ u.life.latch = 0 ∧
        u.rb (lifeReg 0x040) 27 = nbit s.life.latch 0 ∧ u.rb (lifeReg 0x040) 26 = nbit s.life.latch 1 ∧
        u.pwr.serving = s.pwr.serving ∧ u.rd (reg pPower 0x044) = s.vccioWord 0 ∧ u.rd (reg pPower 0x048) = s.vccioWord 1 ∧
        (nbit straps.toNat 1 = false → ∀ n x, n < 304 → s.bist.recs.find? (·.1 = n) = some (n, x) → x.result = 2 →
          u.unitState (unitPage n) = 5)) ∧
  (∀ (t : Nat) (straps : BitVec 4) (o : StartRun) (s z : State), z = s.upTo t → StartDue s z → s.life.fault = false →
    s.rollOwed = false →
    Yields (.start t straps false o) s fun u =>
      u.pwr.phase = .starting ∧ u.pwr.clockWait = true ∧ u.rd (reg pStw 0x044) = 1) ∧
  (∀ (t : Nat) (straps : BitVec 4) (bad : List (Nat × BitVec 64)) (wipe : Bool) (s z : State), z = s.upTo t → StartDue s z →
    s.life.fault = false → s.rollOwed = false → rowGood bad = false →
    Yields (.start t straps true { factory := bad, wipe := wipe }) s (HeldFor 0x20)) ∧
  (∀ e, e ∈ [(({ wipe := false } : StartRun), 0x21), ({ fail := some (0, false) }, 0x10),
      ({ fail := some (1, false) }, 0x11), ({ fail := some (2, false) }, 0x12), ({ fail := some (3, false) }, 0x13),
      ({ fail := some (0, true) }, 0x18), ({ fail := some (1, true) }, 0x19), ({ fail := some (2, true) }, 0x1A),
      ({ fail := some (3, true) }, 0x1B)] →
    ∀ (t : Nat) (straps : BitVec 4) (s z : State), z = s.upTo t → StartDue s z → s.life.fault = false →
    s.rollOwed = false → Yields (.start t straps true e.1) s (HeldFor e.2)) ∧
  (∀ (t : Nat) (straps : BitVec 4) (refclk : Bool) (o : StartRun) (s z : State), z = s.upTo t → StartDue s z →
    s.life.fault = true → Yields (.start t straps refclk o) s (HeldFor 0x22)) ∧
  (∀ (t : Nat) (straps : BitVec 4) (refclk : Bool) (o : StartRun) (s z : State), z = s.upTo t → s.thermalHold = false →
    (s.pwr.vaux = false ∨ s.pwr.phase ≠ .reset ∨ z.now < s.pwr.startAt) →
    Yields (.start t straps refclk o) s fun u => Only [] [] s u) ∧
  (∀ (t : Nat) (straps : BitVec 4) (refclk : Bool) (o : StartRun) (s : State), s.thermalHold = true →
    s.pwr.resetN = false → 1760 ≤ s.pwr.top →
    Yields (.start t straps refclk o) s fun u => u.thermalHold = true ∧ u.pwr.resetN = true ∧ Only [] [.pwr] s u) ∧
  (∀ (t : Nat) (s : State), s.pwr.clockWait = true →
    Yields (.refclkReturn t {}) s fun u =>
      u.pwr.clockWait = false ∧ u.pwr.refclk = true ∧ u.pwr.phase = s.pwr.phase ∧ u.rd (reg 0 0x064) = 1) ∧
  (∀ (t : Nat) (o : StartRun) (s : State), s.pwr.clockWait = false →
    Yields (.refclkReturn t o) s fun u => u.pwr = { s.pwr with refclk := true } ∧ Only [] [.pwr] s u) ∧
  (∀ (t : Nat) (s z : State), z = s.upTo t → s.startOver = true →
    Yields (.startComplete t) s fun u =>
      u.pwr.phase = .user ∧ u.pwr.ready = true ∧ u.pwr.serving = true ∧ u.resetEnd = atOrAfter pageCycle z.now ∧ u.devTime = 0 ∧
        u.rb (reg pStore 0x040) 0 = true ∧ u.rb (ireg 0x040) 31 = true ∧
        u.rd (reg pStw 0x04C) = word ((z.now - s.pwr.t0) / us 1) ∧ (∀ c, c ∈ u.ledger.claims → c.activity ≠ actWipe) ∧
        (s.rb (lifeReg 0x040) 28 = true → s.inSelftest pLife = false → u.rb (reg pLife oEvent) 3 = true) ∧
        Only [reg pStore 0x040, ireg 0x040, reg pStw 0x04C, reg pLife oEvent]
          (.pwr :: .resetEnd :: .ledger :: eventParts) s u) ∧
  (∀ (t : Nat) (s : State), s.startOver = false → Yields (.startComplete t) s fun u => Only [] [] s u) ∧
  (∀ (t : Nat) (a : Agent) (v : Word) (s z : State), z = s.upTo t → privileged a = true → Opens a pStw s →
    bit v 0 = true → s.pwr.ready = true → s.lifeBusy = false →
    Yields (.shutdown t a v) s fun u =>
      u.pwr = { s.pwr with ready := false, phase := .drain, shutAt := z.now } ∧
        u.rf (reg pStw 0x040) 31 28 = 4 ∧ u.rb (reg pStw oEvent) 0 = true ∧ u.resp = .ok ∧
        (∀ n, n < 8 → s.swapState n = 1 ∨ s.swapState n = 2 → u.swapState n = 0) ∧
        ∀ q, q ∈ s.seqs.map (·.1) → q < 48 → s.isOn (pSeq q) = true → (s.sq q).armed = none → s.running q = true →
          u.runOf q = 4 ∧ u.rf (qreg q 0x05C) 11 8 = 2) ∧
  (∀ (t : Nat) (a : Agent) (v : Word) (s : State), privileged a = true → Opens a pStw s → bit v 0 = true →
    (s.pwr.ready = false ∨ s.lifeBusy = true) →
    Yields (.shutdown t a v) s fun u =>
      u.rf (reg pStw oStatus) 15 8 = Reason.conflict.code ∧ u.resp = .refused ∧ Only [reg pStw oStatus] [.resp] s u) ∧
  (∀ (t : Nat) (s z : State), z = s.upTo t → s.pwr.phase = .drain →
    ((∀ q, q ∈ [1, 2, 3] → s.dqHeld q = 0) ∨ s.pwr.shutAt + ms 100 ≤ z.now) → s.inSelftest pStw = false →
    Yields (.drainDone t) s fun u =>
      u.pwr.phase = .test ∧ u.rf (reg pStw 0x040) 31 29 = 3 ∧ u.rb (reg pStw oEvent) 1 = true ∧
        u.bist.shut = some z.now ∧ (∀ d, d < 16 → u.isOn (pDom d) = false) ∧ (∀ g, g < 48 → u.isOn (pGrp g) = false) ∧
        (∀ q, q < 48 → u.isOn (pSeq q) = false) ∧ ∀ r, r < 96 → u.isOn (pReg r) = false) ∧
  (∀ (t : Nat) (s z : State), z = s.upTo t →
    (s.pwr.phase ≠ .drain ∨ (∃ q, q ∈ [1, 2, 3] ∧ s.dqHeld q ≠ 0) ∧ z.now < s.pwr.shutAt + ms 100) →
    Yields (.drainDone t) s fun u => Only [] [] s u)

/-- What the power state keeps: READY only in the user phase and only while memory requests are served, FAULT_N low exactly
while a fault holds the device, and without VAUX nothing but reset (R389, R393, R396, R399). -/
abbrev PowerConsistent (p : Power) : Prop :=
  (p.ready = true → p.phase = .user ∧ p.serving = true) ∧ (p.faultN = true ↔ p.phase = .fault) ∧
    (p.vaux = false → p.phase = .reset) ∧ (p.clockWait = true → p.vaux = true)

/-- What holds right after reset: the registers at the values that the register tables give, no unit enabled, the memories
empty, no command waiting and the device not yet serving (R10, R307, R379, R442, Tables 16.3 and 16.4).
Model's choices: assumptions 4, 5, 6, 12. -/
def Obligations.AfterReset : Prop :=
  (∀ p, (blockOf p).isSome = true →
    State.reset.rd (reg p oMask) = 0xFFFF ∧ State.reset.unitState p = 0 ∧ State.reset.rd (reg p oEvent) = 0 ∧
      State.reset.rd (reg p oOwner) = 0 ∧ State.reset.locked p = false ∧ State.reset.rb (reg p oCtrl) 0 = false) ∧
  (∀ d : Fin 16, State.reset.rd (reg (pDom d) 0x084) = 4096 ∧ State.reset.rd (reg (pDom d) 0x0C0) = 3600) ∧
  (∀ q : Fin 48, State.reset.rd (qreg q 0x044) = 128 ∧ State.reset.rd (qreg q 0x040) = 0x80000000) ∧
  State.reset.budget = 60000 ∧ State.reset.rd (reg pPower 0x060) = 0x000505F0 ∧
  (∀ a, State.reset.byte a = 0) ∧ State.reset.pending = [] ∧ State.reset.pwr.ready = false ∧
  State.reset.pwr.serving = false ∧ Memory.wf State.reset.mem = true ∧
  PowerConsistent State.reset.pwr

/-- Every command has its effect: the clock stands at the instant of the command, never earlier than before, and the
commands that wait are those that waited. On an empty queue a clock edge of the fabric is all that happens (the model's
choice: assumptions 7, 186): a region that is not ON holds its logic, and a flip-flop without an edge of its region clock
network or an asynchronous reset holds its value, as does an arithmetic slice without one (R171 to R173, R199). -/
def Obligations.ClockAndQueue : Prop :=
  (∀ (c : Instr) (s : State), ∃ u, exec c s = .next u ∧ u.now = max s.now c.time ∧ u.pending = s.pending) ∧
  ∀ s : State, s.pending = [] → ∃ u, step s = .next u ∧ u.now = s.now ∧ u.pending = [] ∧
    Only [] [.regions, .free, .out] s u ∧
    (∀ r, u.region r = { s.region r with logic := (u.region r).logic, taps := (u.region r).taps }) ∧
    (∀ r, s.isOn (pReg r) = false → u.region r = s.region r) ∧
    ∀ (r n : Nat) (i v : Word), n < regionFfs → (s.region r).logic.frame = some (i, v) → Config.ffAsync i v r n = false →
      (Config.regionClock i v r (Config.ffClock i v r n)).1.val ≠ s.freeNat % 33 →
      (u.region r).logic.frame = some (i, v) ∧ u.ffVal r n = s.ffVal r n ∧
        ((Config.regionClock i v r (Config.sliceClock i v r (n % 16))).1.val ≠ s.freeNat % 33 →
          u.sliceOf r (n % 16) = s.sliceOf r (n % 16))

/-- Every step keeps the memories in canonical form, so that equal memories are equal data.
Model's choices: assumption 12. -/
def Obligations.MemoryStaysCanonical : Prop :=
  ∀ s u : State, Memory.wf s.mem = true → step s = .next u → Memory.wf u.mem = true

/-- No command but those that `Instr.storing` lists changes a byte of the BAR2 memories.
Model's choices: assumption 12. -/
def Obligations.MemoryFrame : Prop :=
  ∀ (c : Instr) (s u : State), c.storing = false → exec c s = .next u → ∀ a, u.byte a = s.byte a

/-- Every step keeps the power state consistent. Model's choices: assumption 4. -/
def Obligations.PowerStaysConsistent : Prop :=
  ∀ s u : State, PowerConsistent s.pwr → step s = .next u → PowerConsistent u.pwr

/-- A write to a page of the shared blocks by an agent whose path does not reach it, that the page's self-test stops, or that
OWNER excludes: it has no effect, and REFUSE and the response say why (R153, R187, R346, R433).
Model's choices: assumption 18. -/
def Obligations.SharedPagesAreGated : Prop :=
  ∀ (c : Instr) (a : Agent) (p : Nat) (s : State), c.sharedPage = some (a, p) → s.serves a = true →
    s.closed p = false →
    (s.inSelftest p = true → Yields c s fun u => u.resp = .selftest ∧ Only [] [.resp] s u) ∧
    (s.inSelftest p = false → s.reachesWrite a p = false →
      Yields c s fun u => u.resp = .denied ∧ Only [] [.resp] s u) ∧
    (s.inSelftest p = false → s.reachesWrite a p = true → s.ownerAllows p a = false →
      Yields c s fun u =>
        u.rf (reg p oStatus) 15 8 = Reason.owner.code ∧ u.resp = .refused ∧ Only [reg p oStatus] [.resp] s u)

end
end

