-- ==== Sys2Proof/Laws/State.lean ====
section
/-! SUPPORT. Laws/State.lean: what each update of the state leaves as it is, one lemma per field and update, true by
`rfl`, so that no later proof unfolds a record update. -/
namespace Sys2Proof.Machine.State

@[simp] theorem now_wr (s : State) (k : Nat) (v : Word) : (s.wr k v).now = s.now := by cases s; rfl
@[simp] theorem pending_wr (s : State) (k : Nat) (v : Word) : (s.wr k v).pending = s.pending := by cases s; rfl
@[simp] theorem out_wr (s : State) (k : Nat) (v : Word) : (s.wr k v).out = s.out := by cases s; rfl
@[simp] theorem rdata_wr (s : State) (k : Nat) (v : Word) : (s.wr k v).rdata = s.rdata := by cases s; rfl
@[simp] theorem resp_wr (s : State) (k : Nat) (v : Word) : (s.wr k v).resp = s.resp := by cases s; rfl
@[simp] theorem free_wr (s : State) (k : Nat) (v : Word) : (s.wr k v).free = s.free := by cases s; rfl
@[simp] theorem checks_wr (s : State) (k : Nat) (v : Word) : (s.wr k v).checks = s.checks := by cases s; rfl
@[simp] theorem offs_wr (s : State) (k : Nat) (v : Word) : (s.wr k v).offs = s.offs := by cases s; rfl
@[simp] theorem lagged_wr (s : State) (k : Nat) (v : Word) : (s.wr k v).lagged = s.lagged := by cases s; rfl
@[simp] theorem taken_wr (s : State) (k : Nat) (v : Word) : (s.wr k v).taken = s.taken := by cases s; rfl
@[simp] theorem mem_wr (s : State) (k : Nat) (v : Word) : (s.wr k v).mem = s.mem := by cases s; rfl
@[simp] theorem doms_wr (s : State) (k : Nat) (v : Word) : (s.wr k v).doms = s.doms := by cases s; rfl
@[simp] theorem ctr_wr (s : State) (k : Nat) (v : Word) : (s.wr k v).ctr = s.ctr := by cases s; rfl
@[simp] theorem lat_wr (s : State) (k : Nat) (v : Word) : (s.wr k v).lat = s.lat := by cases s; rfl
@[simp] theorem ep_wr (s : State) (k : Nat) (v : Word) : (s.wr k v).ep = s.ep := by cases s; rfl
@[simp] theorem pins_wr (s : State) (k : Nat) (v : Word) : (s.wr k v).pins = s.pins := by cases s; rfl
@[simp] theorem groups_wr (s : State) (k : Nat) (v : Word) : (s.wr k v).groups = s.groups := by cases s; rfl
@[simp] theorem anas_wr (s : State) (k : Nat) (v : Word) : (s.wr k v).anas = s.anas := by cases s; rfl
@[simp] theorem tsets_wr (s : State) (k : Nat) (v : Word) : (s.wr k v).tsets = s.tsets := by cases s; rfl
@[simp] theorem trims_wr (s : State) (k : Nat) (v : Word) : (s.wr k v).trims = s.trims := by cases s; rfl
@[simp] theorem seqs_wr (s : State) (k : Nat) (v : Word) : (s.wr k v).seqs = s.seqs := by cases s; rfl
@[simp] theorem xips_wr (s : State) (k : Nat) (v : Word) : (s.wr k v).xips = s.xips := by cases s; rfl
@[simp] theorem pwr_wr (s : State) (k : Nat) (v : Word) : (s.wr k v).pwr = s.pwr := by cases s; rfl
@[simp] theorem resetEnd_wr (s : State) (k : Nat) (v : Word) : (s.wr k v).resetEnd = s.resetEnd := by cases s; rfl
@[simp] theorem regions_wr (s : State) (k : Nat) (v : Word) : (s.wr k v).regions = s.regions := by cases s; rfl
@[simp] theorem undef_wr (s : State) (k : Nat) (v : Word) : (s.wr k v).undef = s.undef := by cases s; rfl
@[simp] theorem deepLast_wr (s : State) (k : Nat) (v : Word) : (s.wr k v).deepLast = s.deepLast := by cases s; rfl
@[simp] theorem blocks_wr (s : State) (k : Nat) (v : Word) : (s.wr k v).blocks = s.blocks := by cases s; rfl
@[simp] theorem ledger_wr (s : State) (k : Nat) (v : Word) : (s.wr k v).ledger = s.ledger := by cases s; rfl
@[simp] theorem bist_wr (s : State) (k : Nat) (v : Word) : (s.wr k v).bist = s.bist := by cases s; rfl
@[simp] theorem store_wr (s : State) (k : Nat) (v : Word) : (s.wr k v).store = s.store := by cases s; rfl
@[simp] theorem life_wr (s : State) (k : Nat) (v : Word) : (s.wr k v).life = s.life := by cases s; rfl
@[simp] theorem jtag_wr (s : State) (k : Nat) (v : Word) : (s.wr k v).jtag = s.jtag := by cases s; rfl
@[simp] theorem protos_wr (s : State) (k : Nat) (v : Word) : (s.wr k v).protos = s.protos := by cases s; rfl
@[simp] theorem lanes_wr (s : State) (k : Nat) (v : Word) : (s.wr k v).lanes = s.lanes := by cases s; rfl

@[simp] theorem now_wf (s : State) (k hi lo v : Nat) : (s.wf k hi lo v).now = s.now := by cases s; rfl
@[simp] theorem pending_wf (s : State) (k hi lo v : Nat) : (s.wf k hi lo v).pending = s.pending := by cases s; rfl
@[simp] theorem out_wf (s : State) (k hi lo v : Nat) : (s.wf k hi lo v).out = s.out := by cases s; rfl
@[simp] theorem rdata_wf (s : State) (k hi lo v : Nat) : (s.wf k hi lo v).rdata = s.rdata := by cases s; rfl
@[simp] theorem resp_wf (s : State) (k hi lo v : Nat) : (s.wf k hi lo v).resp = s.resp := by cases s; rfl
@[simp] theorem free_wf (s : State) (k hi lo v : Nat) : (s.wf k hi lo v).free = s.free := by cases s; rfl
@[simp] theorem checks_wf (s : State) (k hi lo v : Nat) : (s.wf k hi lo v).checks = s.checks := by cases s; rfl
@[simp] theorem offs_wf (s : State) (k hi lo v : Nat) : (s.wf k hi lo v).offs = s.offs := by cases s; rfl
@[simp] theorem lagged_wf (s : State) (k hi lo v : Nat) : (s.wf k hi lo v).lagged = s.lagged := by cases s; rfl
@[simp] theorem taken_wf (s : State) (k hi lo v : Nat) : (s.wf k hi lo v).taken = s.taken := by cases s; rfl
@[simp] theorem mem_wf (s : State) (k hi lo v : Nat) : (s.wf k hi lo v).mem = s.mem := by cases s; rfl
@[simp] theorem doms_wf (s : State) (k hi lo v : Nat) : (s.wf k hi lo v).doms = s.doms := by cases s; rfl
@[simp] theorem ctr_wf (s : State) (k hi lo v : Nat) : (s.wf k hi lo v).ctr = s.ctr := by cases s; rfl
@[simp] theorem lat_wf (s : State) (k hi lo v : Nat) : (s.wf k hi lo v).lat = s.lat := by cases s; rfl
@[simp] theorem ep_wf (s : State) (k hi lo v : Nat) : (s.wf k hi lo v).ep = s.ep := by cases s; rfl
@[simp] theorem pins_wf (s : State) (k hi lo v : Nat) : (s.wf k hi lo v).pins = s.pins := by cases s; rfl
@[simp] theorem groups_wf (s : State) (k hi lo v : Nat) : (s.wf k hi lo v).groups = s.groups := by cases s; rfl
@[simp] theorem anas_wf (s : State) (k hi lo v : Nat) : (s.wf k hi lo v).anas = s.anas := by cases s; rfl
@[simp] theorem tsets_wf (s : State) (k hi lo v : Nat) : (s.wf k hi lo v).tsets = s.tsets := by cases s; rfl
@[simp] theorem trims_wf (s : State) (k hi lo v : Nat) : (s.wf k hi lo v).trims = s.trims := by cases s; rfl
@[simp] theorem seqs_wf (s : State) (k hi lo v : Nat) : (s.wf k hi lo v).seqs = s.seqs := by cases s; rfl
@[simp] theorem xips_wf (s : State) (k hi lo v : Nat) : (s.wf k hi lo v).xips = s.xips := by cases s; rfl
@[simp] theorem pwr_wf (s : State) (k hi lo v : Nat) : (s.wf k hi lo v).pwr = s.pwr := by cases s; rfl
@[simp] theorem resetEnd_wf (s : State) (k hi lo v : Nat) : (s.wf k hi lo v).resetEnd = s.resetEnd := by cases s; rfl
@[simp] theorem regions_wf (s : State) (k hi lo v : Nat) : (s.wf k hi lo v).regions = s.regions := by cases s; rfl
@[simp] theorem undef_wf (s : State) (k hi lo v : Nat) : (s.wf k hi lo v).undef = s.undef := by cases s; rfl
@[simp] theorem deepLast_wf (s : State) (k hi lo v : Nat) : (s.wf k hi lo v).deepLast = s.deepLast := by cases s; rfl
@[simp] theorem blocks_wf (s : State) (k hi lo v : Nat) : (s.wf k hi lo v).blocks = s.blocks := by cases s; rfl
@[simp] theorem ledger_wf (s : State) (k hi lo v : Nat) : (s.wf k hi lo v).ledger = s.ledger := by cases s; rfl
@[simp] theorem bist_wf (s : State) (k hi lo v : Nat) : (s.wf k hi lo v).bist = s.bist := by cases s; rfl
@[simp] theorem store_wf (s : State) (k hi lo v : Nat) : (s.wf k hi lo v).store = s.store := by cases s; rfl
@[simp] theorem life_wf (s : State) (k hi lo v : Nat) : (s.wf k hi lo v).life = s.life := by cases s; rfl
@[simp] theorem jtag_wf (s : State) (k hi lo v : Nat) : (s.wf k hi lo v).jtag = s.jtag := by cases s; rfl
@[simp] theorem protos_wf (s : State) (k hi lo v : Nat) : (s.wf k hi lo v).protos = s.protos := by cases s; rfl
@[simp] theorem lanes_wf (s : State) (k hi lo v : Nat) : (s.wf k hi lo v).lanes = s.lanes := by cases s; rfl

@[simp] theorem now_wb (s : State) (k n : Nat) (b : Bool) : (s.wb k n b).now = s.now := by cases s; rfl
@[simp] theorem pending_wb (s : State) (k n : Nat) (b : Bool) : (s.wb k n b).pending = s.pending := by cases s; rfl
@[simp] theorem out_wb (s : State) (k n : Nat) (b : Bool) : (s.wb k n b).out = s.out := by cases s; rfl
@[simp] theorem rdata_wb (s : State) (k n : Nat) (b : Bool) : (s.wb k n b).rdata = s.rdata := by cases s; rfl
@[simp] theorem resp_wb (s : State) (k n : Nat) (b : Bool) : (s.wb k n b).resp = s.resp := by cases s; rfl
@[simp] theorem free_wb (s : State) (k n : Nat) (b : Bool) : (s.wb k n b).free = s.free := by cases s; rfl
@[simp] theorem checks_wb (s : State) (k n : Nat) (b : Bool) : (s.wb k n b).checks = s.checks := by cases s; rfl
@[simp] theorem offs_wb (s : State) (k n : Nat) (b : Bool) : (s.wb k n b).offs = s.offs := by cases s; rfl
@[simp] theorem lagged_wb (s : State) (k n : Nat) (b : Bool) : (s.wb k n b).lagged = s.lagged := by cases s; rfl
@[simp] theorem taken_wb (s : State) (k n : Nat) (b : Bool) : (s.wb k n b).taken = s.taken := by cases s; rfl
@[simp] theorem mem_wb (s : State) (k n : Nat) (b : Bool) : (s.wb k n b).mem = s.mem := by cases s; rfl
@[simp] theorem doms_wb (s : State) (k n : Nat) (b : Bool) : (s.wb k n b).doms = s.doms := by cases s; rfl
@[simp] theorem ctr_wb (s : State) (k n : Nat) (b : Bool) : (s.wb k n b).ctr = s.ctr := by cases s; rfl
@[simp] theorem lat_wb (s : State) (k n : Nat) (b : Bool) : (s.wb k n b).lat = s.lat := by cases s; rfl
@[simp] theorem ep_wb (s : State) (k n : Nat) (b : Bool) : (s.wb k n b).ep = s.ep := by cases s; rfl
@[simp] theorem pins_wb (s : State) (k n : Nat) (b : Bool) : (s.wb k n b).pins = s.pins := by cases s; rfl
@[simp] theorem groups_wb (s : State) (k n : Nat) (b : Bool) : (s.wb k n b).groups = s.groups := by cases s; rfl
@[simp] theorem anas_wb (s : State) (k n : Nat) (b : Bool) : (s.wb k n b).anas = s.anas := by cases s; rfl
@[simp] theorem tsets_wb (s : State) (k n : Nat) (b : Bool) : (s.wb k n b).tsets = s.tsets := by cases s; rfl
@[simp] theorem trims_wb (s : State) (k n : Nat) (b : Bool) : (s.wb k n b).trims = s.trims := by cases s; rfl
@[simp] theorem seqs_wb (s : State) (k n : Nat) (b : Bool) : (s.wb k n b).seqs = s.seqs := by cases s; rfl
@[simp] theorem xips_wb (s : State) (k n : Nat) (b : Bool) : (s.wb k n b).xips = s.xips := by cases s; rfl
@[simp] theorem pwr_wb (s : State) (k n : Nat) (b : Bool) : (s.wb k n b).pwr = s.pwr := by cases s; rfl
@[simp] theorem resetEnd_wb (s : State) (k n : Nat) (b : Bool) : (s.wb k n b).resetEnd = s.resetEnd := by cases s; rfl
@[simp] theorem regions_wb (s : State) (k n : Nat) (b : Bool) : (s.wb k n b).regions = s.regions := by cases s; rfl
@[simp] theorem undef_wb (s : State) (k n : Nat) (b : Bool) : (s.wb k n b).undef = s.undef := by cases s; rfl
@[simp] theorem deepLast_wb (s : State) (k n : Nat) (b : Bool) : (s.wb k n b).deepLast = s.deepLast := by cases s; rfl
@[simp] theorem blocks_wb (s : State) (k n : Nat) (b : Bool) : (s.wb k n b).blocks = s.blocks := by cases s; rfl
@[simp] theorem ledger_wb (s : State) (k n : Nat) (b : Bool) : (s.wb k n b).ledger = s.ledger := by cases s; rfl
@[simp] theorem bist_wb (s : State) (k n : Nat) (b : Bool) : (s.wb k n b).bist = s.bist := by cases s; rfl
@[simp] theorem store_wb (s : State) (k n : Nat) (b : Bool) : (s.wb k n b).store = s.store := by cases s; rfl
@[simp] theorem life_wb (s : State) (k n : Nat) (b : Bool) : (s.wb k n b).life = s.life := by cases s; rfl
@[simp] theorem jtag_wb (s : State) (k n : Nat) (b : Bool) : (s.wb k n b).jtag = s.jtag := by cases s; rfl
@[simp] theorem protos_wb (s : State) (k n : Nat) (b : Bool) : (s.wb k n b).protos = s.protos := by cases s; rfl
@[simp] theorem lanes_wb (s : State) (k n : Nat) (b : Bool) : (s.wb k n b).lanes = s.lanes := by cases s; rfl

@[simp] theorem now_emit (s : State) (o : Output) : (s.emit o).now = s.now := by cases s; rfl
@[simp] theorem pending_emit (s : State) (o : Output) : (s.emit o).pending = s.pending := by cases s; rfl
@[simp] theorem rdata_emit (s : State) (o : Output) : (s.emit o).rdata = s.rdata := by cases s; rfl
@[simp] theorem resp_emit (s : State) (o : Output) : (s.emit o).resp = s.resp := by cases s; rfl
@[simp] theorem free_emit (s : State) (o : Output) : (s.emit o).free = s.free := by cases s; rfl
@[simp] theorem regs_emit (s : State) (o : Output) : (s.emit o).regs = s.regs := by cases s; rfl
@[simp] theorem checks_emit (s : State) (o : Output) : (s.emit o).checks = s.checks := by cases s; rfl
@[simp] theorem offs_emit (s : State) (o : Output) : (s.emit o).offs = s.offs := by cases s; rfl
@[simp] theorem lagged_emit (s : State) (o : Output) : (s.emit o).lagged = s.lagged := by cases s; rfl
@[simp] theorem taken_emit (s : State) (o : Output) : (s.emit o).taken = s.taken := by cases s; rfl
@[simp] theorem mem_emit (s : State) (o : Output) : (s.emit o).mem = s.mem := by cases s; rfl
@[simp] theorem doms_emit (s : State) (o : Output) : (s.emit o).doms = s.doms := by cases s; rfl
@[simp] theorem ctr_emit (s : State) (o : Output) : (s.emit o).ctr = s.ctr := by cases s; rfl
@[simp] theorem lat_emit (s : State) (o : Output) : (s.emit o).lat = s.lat := by cases s; rfl
@[simp] theorem ep_emit (s : State) (o : Output) : (s.emit o).ep = s.ep := by cases s; rfl
@[simp] theorem pins_emit (s : State) (o : Output) : (s.emit o).pins = s.pins := by cases s; rfl
@[simp] theorem groups_emit (s : State) (o : Output) : (s.emit o).groups = s.groups := by cases s; rfl
@[simp] theorem anas_emit (s : State) (o : Output) : (s.emit o).anas = s.anas := by cases s; rfl
@[simp] theorem tsets_emit (s : State) (o : Output) : (s.emit o).tsets = s.tsets := by cases s; rfl
@[simp] theorem trims_emit (s : State) (o : Output) : (s.emit o).trims = s.trims := by cases s; rfl
@[simp] theorem seqs_emit (s : State) (o : Output) : (s.emit o).seqs = s.seqs := by cases s; rfl
@[simp] theorem xips_emit (s : State) (o : Output) : (s.emit o).xips = s.xips := by cases s; rfl
@[simp] theorem pwr_emit (s : State) (o : Output) : (s.emit o).pwr = s.pwr := by cases s; rfl
@[simp] theorem resetEnd_emit (s : State) (o : Output) : (s.emit o).resetEnd = s.resetEnd := by cases s; rfl
@[simp] theorem regions_emit (s : State) (o : Output) : (s.emit o).regions = s.regions := by cases s; rfl
@[simp] theorem undef_emit (s : State) (o : Output) : (s.emit o).undef = s.undef := by cases s; rfl
@[simp] theorem deepLast_emit (s : State) (o : Output) : (s.emit o).deepLast = s.deepLast := by cases s; rfl
@[simp] theorem blocks_emit (s : State) (o : Output) : (s.emit o).blocks = s.blocks := by cases s; rfl
@[simp] theorem ledger_emit (s : State) (o : Output) : (s.emit o).ledger = s.ledger := by cases s; rfl
@[simp] theorem bist_emit (s : State) (o : Output) : (s.emit o).bist = s.bist := by cases s; rfl
@[simp] theorem store_emit (s : State) (o : Output) : (s.emit o).store = s.store := by cases s; rfl
@[simp] theorem life_emit (s : State) (o : Output) : (s.emit o).life = s.life := by cases s; rfl
@[simp] theorem jtag_emit (s : State) (o : Output) : (s.emit o).jtag = s.jtag := by cases s; rfl
@[simp] theorem protos_emit (s : State) (o : Output) : (s.emit o).protos = s.protos := by cases s; rfl
@[simp] theorem lanes_emit (s : State) (o : Output) : (s.emit o).lanes = s.lanes := by cases s; rfl

@[simp] theorem now_ret (s : State) (n : Nat) : (s.ret n).now = s.now := by cases s; rfl
@[simp] theorem pending_ret (s : State) (n : Nat) : (s.ret n).pending = s.pending := by cases s; rfl
@[simp] theorem out_ret (s : State) (n : Nat) : (s.ret n).out = s.out := by cases s; rfl
@[simp] theorem resp_ret (s : State) (n : Nat) : (s.ret n).resp = s.resp := by cases s; rfl
@[simp] theorem free_ret (s : State) (n : Nat) : (s.ret n).free = s.free := by cases s; rfl
@[simp] theorem regs_ret (s : State) (n : Nat) : (s.ret n).regs = s.regs := by cases s; rfl
@[simp] theorem checks_ret (s : State) (n : Nat) : (s.ret n).checks = s.checks := by cases s; rfl
@[simp] theorem offs_ret (s : State) (n : Nat) : (s.ret n).offs = s.offs := by cases s; rfl
@[simp] theorem lagged_ret (s : State) (n : Nat) : (s.ret n).lagged = s.lagged := by cases s; rfl
@[simp] theorem taken_ret (s : State) (n : Nat) : (s.ret n).taken = s.taken := by cases s; rfl
@[simp] theorem mem_ret (s : State) (n : Nat) : (s.ret n).mem = s.mem := by cases s; rfl
@[simp] theorem doms_ret (s : State) (n : Nat) : (s.ret n).doms = s.doms := by cases s; rfl
@[simp] theorem ctr_ret (s : State) (n : Nat) : (s.ret n).ctr = s.ctr := by cases s; rfl
@[simp] theorem lat_ret (s : State) (n : Nat) : (s.ret n).lat = s.lat := by cases s; rfl
@[simp] theorem ep_ret (s : State) (n : Nat) : (s.ret n).ep = s.ep := by cases s; rfl
@[simp] theorem pins_ret (s : State) (n : Nat) : (s.ret n).pins = s.pins := by cases s; rfl
@[simp] theorem groups_ret (s : State) (n : Nat) : (s.ret n).groups = s.groups := by cases s; rfl
@[simp] theorem anas_ret (s : State) (n : Nat) : (s.ret n).anas = s.anas := by cases s; rfl
@[simp] theorem tsets_ret (s : State) (n : Nat) : (s.ret n).tsets = s.tsets := by cases s; rfl
@[simp] theorem trims_ret (s : State) (n : Nat) : (s.ret n).trims = s.trims := by cases s; rfl
@[simp] theorem seqs_ret (s : State) (n : Nat) : (s.ret n).seqs = s.seqs := by cases s; rfl
@[simp] theorem xips_ret (s : State) (n : Nat) : (s.ret n).xips = s.xips := by cases s; rfl
@[simp] theorem pwr_ret (s : State) (n : Nat) : (s.ret n).pwr = s.pwr := by cases s; rfl
@[simp] theorem resetEnd_ret (s : State) (n : Nat) : (s.ret n).resetEnd = s.resetEnd := by cases s; rfl
@[simp] theorem regions_ret (s : State) (n : Nat) : (s.ret n).regions = s.regions := by cases s; rfl
@[simp] theorem undef_ret (s : State) (n : Nat) : (s.ret n).undef = s.undef := by cases s; rfl
@[simp] theorem deepLast_ret (s : State) (n : Nat) : (s.ret n).deepLast = s.deepLast := by cases s; rfl
@[simp] theorem blocks_ret (s : State) (n : Nat) : (s.ret n).blocks = s.blocks := by cases s; rfl
@[simp] theorem ledger_ret (s : State) (n : Nat) : (s.ret n).ledger = s.ledger := by cases s; rfl
@[simp] theorem bist_ret (s : State) (n : Nat) : (s.ret n).bist = s.bist := by cases s; rfl
@[simp] theorem store_ret (s : State) (n : Nat) : (s.ret n).store = s.store := by cases s; rfl
@[simp] theorem life_ret (s : State) (n : Nat) : (s.ret n).life = s.life := by cases s; rfl
@[simp] theorem jtag_ret (s : State) (n : Nat) : (s.ret n).jtag = s.jtag := by cases s; rfl
@[simp] theorem protos_ret (s : State) (n : Nat) : (s.ret n).protos = s.protos := by cases s; rfl
@[simp] theorem lanes_ret (s : State) (n : Nat) : (s.ret n).lanes = s.lanes := by cases s; rfl

@[simp] theorem now_answer (s : State) (r : Resp) : (s.answer r).now = s.now := by cases s; rfl
@[simp] theorem pending_answer (s : State) (r : Resp) : (s.answer r).pending = s.pending := by cases s; rfl
@[simp] theorem out_answer (s : State) (r : Resp) : (s.answer r).out = s.out := by cases s; rfl
@[simp] theorem rdata_answer (s : State) (r : Resp) : (s.answer r).rdata = s.rdata := by cases s; rfl
@[simp] theorem free_answer (s : State) (r : Resp) : (s.answer r).free = s.free := by cases s; rfl
@[simp] theorem regs_answer (s : State) (r : Resp) : (s.answer r).regs = s.regs := by cases s; rfl
@[simp] theorem checks_answer (s : State) (r : Resp) : (s.answer r).checks = s.checks := by cases s; rfl
@[simp] theorem offs_answer (s : State) (r : Resp) : (s.answer r).offs = s.offs := by cases s; rfl
@[simp] theorem lagged_answer (s : State) (r : Resp) : (s.answer r).lagged = s.lagged := by cases s; rfl
@[simp] theorem taken_answer (s : State) (r : Resp) : (s.answer r).taken = s.taken := by cases s; rfl
@[simp] theorem mem_answer (s : State) (r : Resp) : (s.answer r).mem = s.mem := by cases s; rfl
@[simp] theorem doms_answer (s : State) (r : Resp) : (s.answer r).doms = s.doms := by cases s; rfl
@[simp] theorem ctr_answer (s : State) (r : Resp) : (s.answer r).ctr = s.ctr := by cases s; rfl
@[simp] theorem lat_answer (s : State) (r : Resp) : (s.answer r).lat = s.lat := by cases s; rfl
@[simp] theorem ep_answer (s : State) (r : Resp) : (s.answer r).ep = s.ep := by cases s; rfl
@[simp] theorem pins_answer (s : State) (r : Resp) : (s.answer r).pins = s.pins := by cases s; rfl
@[simp] theorem groups_answer (s : State) (r : Resp) : (s.answer r).groups = s.groups := by cases s; rfl
@[simp] theorem anas_answer (s : State) (r : Resp) : (s.answer r).anas = s.anas := by cases s; rfl
@[simp] theorem tsets_answer (s : State) (r : Resp) : (s.answer r).tsets = s.tsets := by cases s; rfl
@[simp] theorem trims_answer (s : State) (r : Resp) : (s.answer r).trims = s.trims := by cases s; rfl
@[simp] theorem seqs_answer (s : State) (r : Resp) : (s.answer r).seqs = s.seqs := by cases s; rfl
@[simp] theorem xips_answer (s : State) (r : Resp) : (s.answer r).xips = s.xips := by cases s; rfl
@[simp] theorem pwr_answer (s : State) (r : Resp) : (s.answer r).pwr = s.pwr := by cases s; rfl
@[simp] theorem resetEnd_answer (s : State) (r : Resp) : (s.answer r).resetEnd = s.resetEnd := by cases s; rfl
@[simp] theorem regions_answer (s : State) (r : Resp) : (s.answer r).regions = s.regions := by cases s; rfl
@[simp] theorem undef_answer (s : State) (r : Resp) : (s.answer r).undef = s.undef := by cases s; rfl
@[simp] theorem deepLast_answer (s : State) (r : Resp) : (s.answer r).deepLast = s.deepLast := by cases s; rfl
@[simp] theorem blocks_answer (s : State) (r : Resp) : (s.answer r).blocks = s.blocks := by cases s; rfl
@[simp] theorem ledger_answer (s : State) (r : Resp) : (s.answer r).ledger = s.ledger := by cases s; rfl
@[simp] theorem bist_answer (s : State) (r : Resp) : (s.answer r).bist = s.bist := by cases s; rfl
@[simp] theorem store_answer (s : State) (r : Resp) : (s.answer r).store = s.store := by cases s; rfl
@[simp] theorem life_answer (s : State) (r : Resp) : (s.answer r).life = s.life := by cases s; rfl
@[simp] theorem jtag_answer (s : State) (r : Resp) : (s.answer r).jtag = s.jtag := by cases s; rfl
@[simp] theorem protos_answer (s : State) (r : Resp) : (s.answer r).protos = s.protos := by cases s; rfl
@[simp] theorem lanes_answer (s : State) (r : Resp) : (s.answer r).lanes = s.lanes := by cases s; rfl

@[simp] theorem now_drew (s : State) : (s.drew).now = s.now := by cases s; rfl
@[simp] theorem pending_drew (s : State) : (s.drew).pending = s.pending := by cases s; rfl
@[simp] theorem out_drew (s : State) : (s.drew).out = s.out := by cases s; rfl
@[simp] theorem rdata_drew (s : State) : (s.drew).rdata = s.rdata := by cases s; rfl
@[simp] theorem resp_drew (s : State) : (s.drew).resp = s.resp := by cases s; rfl
@[simp] theorem regs_drew (s : State) : (s.drew).regs = s.regs := by cases s; rfl
@[simp] theorem checks_drew (s : State) : (s.drew).checks = s.checks := by cases s; rfl
@[simp] theorem offs_drew (s : State) : (s.drew).offs = s.offs := by cases s; rfl
@[simp] theorem lagged_drew (s : State) : (s.drew).lagged = s.lagged := by cases s; rfl
@[simp] theorem taken_drew (s : State) : (s.drew).taken = s.taken := by cases s; rfl
@[simp] theorem mem_drew (s : State) : (s.drew).mem = s.mem := by cases s; rfl
@[simp] theorem doms_drew (s : State) : (s.drew).doms = s.doms := by cases s; rfl
@[simp] theorem ctr_drew (s : State) : (s.drew).ctr = s.ctr := by cases s; rfl
@[simp] theorem lat_drew (s : State) : (s.drew).lat = s.lat := by cases s; rfl
@[simp] theorem ep_drew (s : State) : (s.drew).ep = s.ep := by cases s; rfl
@[simp] theorem pins_drew (s : State) : (s.drew).pins = s.pins := by cases s; rfl
@[simp] theorem groups_drew (s : State) : (s.drew).groups = s.groups := by cases s; rfl
@[simp] theorem anas_drew (s : State) : (s.drew).anas = s.anas := by cases s; rfl
@[simp] theorem tsets_drew (s : State) : (s.drew).tsets = s.tsets := by cases s; rfl
@[simp] theorem trims_drew (s : State) : (s.drew).trims = s.trims := by cases s; rfl
@[simp] theorem seqs_drew (s : State) : (s.drew).seqs = s.seqs := by cases s; rfl
@[simp] theorem xips_drew (s : State) : (s.drew).xips = s.xips := by cases s; rfl
@[simp] theorem pwr_drew (s : State) : (s.drew).pwr = s.pwr := by cases s; rfl
@[simp] theorem resetEnd_drew (s : State) : (s.drew).resetEnd = s.resetEnd := by cases s; rfl
@[simp] theorem regions_drew (s : State) : (s.drew).regions = s.regions := by cases s; rfl
@[simp] theorem undef_drew (s : State) : (s.drew).undef = s.undef := by cases s; rfl
@[simp] theorem deepLast_drew (s : State) : (s.drew).deepLast = s.deepLast := by cases s; rfl
@[simp] theorem blocks_drew (s : State) : (s.drew).blocks = s.blocks := by cases s; rfl
@[simp] theorem ledger_drew (s : State) : (s.drew).ledger = s.ledger := by cases s; rfl
@[simp] theorem bist_drew (s : State) : (s.drew).bist = s.bist := by cases s; rfl
@[simp] theorem store_drew (s : State) : (s.drew).store = s.store := by cases s; rfl
@[simp] theorem life_drew (s : State) : (s.drew).life = s.life := by cases s; rfl
@[simp] theorem jtag_drew (s : State) : (s.drew).jtag = s.jtag := by cases s; rfl
@[simp] theorem protos_drew (s : State) : (s.drew).protos = s.protos := by cases s; rfl
@[simp] theorem lanes_drew (s : State) : (s.drew).lanes = s.lanes := by cases s; rfl

@[simp] theorem now_drewN (s : State) (n : Nat) : (s.drewN n).now = s.now := by cases s; rfl
@[simp] theorem pending_drewN (s : State) (n : Nat) : (s.drewN n).pending = s.pending := by cases s; rfl
@[simp] theorem out_drewN (s : State) (n : Nat) : (s.drewN n).out = s.out := by cases s; rfl
@[simp] theorem rdata_drewN (s : State) (n : Nat) : (s.drewN n).rdata = s.rdata := by cases s; rfl
@[simp] theorem resp_drewN (s : State) (n : Nat) : (s.drewN n).resp = s.resp := by cases s; rfl
@[simp] theorem regs_drewN (s : State) (n : Nat) : (s.drewN n).regs = s.regs := by cases s; rfl
@[simp] theorem checks_drewN (s : State) (n : Nat) : (s.drewN n).checks = s.checks := by cases s; rfl
@[simp] theorem offs_drewN (s : State) (n : Nat) : (s.drewN n).offs = s.offs := by cases s; rfl
@[simp] theorem lagged_drewN (s : State) (n : Nat) : (s.drewN n).lagged = s.lagged := by cases s; rfl
@[simp] theorem taken_drewN (s : State) (n : Nat) : (s.drewN n).taken = s.taken := by cases s; rfl
@[simp] theorem mem_drewN (s : State) (n : Nat) : (s.drewN n).mem = s.mem := by cases s; rfl
@[simp] theorem doms_drewN (s : State) (n : Nat) : (s.drewN n).doms = s.doms := by cases s; rfl
@[simp] theorem ctr_drewN (s : State) (n : Nat) : (s.drewN n).ctr = s.ctr := by cases s; rfl
@[simp] theorem lat_drewN (s : State) (n : Nat) : (s.drewN n).lat = s.lat := by cases s; rfl
@[simp] theorem ep_drewN (s : State) (n : Nat) : (s.drewN n).ep = s.ep := by cases s; rfl
@[simp] theorem pins_drewN (s : State) (n : Nat) : (s.drewN n).pins = s.pins := by cases s; rfl
@[simp] theorem groups_drewN (s : State) (n : Nat) : (s.drewN n).groups = s.groups := by cases s; rfl
@[simp] theorem anas_drewN (s : State) (n : Nat) : (s.drewN n).anas = s.anas := by cases s; rfl
@[simp] theorem tsets_drewN (s : State) (n : Nat) : (s.drewN n).tsets = s.tsets := by cases s; rfl
@[simp] theorem trims_drewN (s : State) (n : Nat) : (s.drewN n).trims = s.trims := by cases s; rfl
@[simp] theorem seqs_drewN (s : State) (n : Nat) : (s.drewN n).seqs = s.seqs := by cases s; rfl
@[simp] theorem xips_drewN (s : State) (n : Nat) : (s.drewN n).xips = s.xips := by cases s; rfl
@[simp] theorem pwr_drewN (s : State) (n : Nat) : (s.drewN n).pwr = s.pwr := by cases s; rfl
@[simp] theorem resetEnd_drewN (s : State) (n : Nat) : (s.drewN n).resetEnd = s.resetEnd := by cases s; rfl
@[simp] theorem regions_drewN (s : State) (n : Nat) : (s.drewN n).regions = s.regions := by cases s; rfl
@[simp] theorem undef_drewN (s : State) (n : Nat) : (s.drewN n).undef = s.undef := by cases s; rfl
@[simp] theorem deepLast_drewN (s : State) (n : Nat) : (s.drewN n).deepLast = s.deepLast := by cases s; rfl
@[simp] theorem blocks_drewN (s : State) (n : Nat) : (s.drewN n).blocks = s.blocks := by cases s; rfl
@[simp] theorem ledger_drewN (s : State) (n : Nat) : (s.drewN n).ledger = s.ledger := by cases s; rfl
@[simp] theorem bist_drewN (s : State) (n : Nat) : (s.drewN n).bist = s.bist := by cases s; rfl
@[simp] theorem store_drewN (s : State) (n : Nat) : (s.drewN n).store = s.store := by cases s; rfl
@[simp] theorem life_drewN (s : State) (n : Nat) : (s.drewN n).life = s.life := by cases s; rfl
@[simp] theorem jtag_drewN (s : State) (n : Nat) : (s.drewN n).jtag = s.jtag := by cases s; rfl
@[simp] theorem protos_drewN (s : State) (n : Nat) : (s.drewN n).protos = s.protos := by cases s; rfl
@[simp] theorem lanes_drewN (s : State) (n : Nat) : (s.drewN n).lanes = s.lanes := by cases s; rfl

@[simp] theorem now_setDom (s : State) (d : Nat) (x : Dom) : (s.setDom d x).now = s.now := by cases s; rfl
@[simp] theorem pending_setDom (s : State) (d : Nat) (x : Dom) : (s.setDom d x).pending = s.pending := by cases s; rfl
@[simp] theorem out_setDom (s : State) (d : Nat) (x : Dom) : (s.setDom d x).out = s.out := by cases s; rfl
@[simp] theorem rdata_setDom (s : State) (d : Nat) (x : Dom) : (s.setDom d x).rdata = s.rdata := by cases s; rfl
@[simp] theorem resp_setDom (s : State) (d : Nat) (x : Dom) : (s.setDom d x).resp = s.resp := by cases s; rfl
@[simp] theorem free_setDom (s : State) (d : Nat) (x : Dom) : (s.setDom d x).free = s.free := by cases s; rfl
@[simp] theorem regs_setDom (s : State) (d : Nat) (x : Dom) : (s.setDom d x).regs = s.regs := by cases s; rfl
@[simp] theorem checks_setDom (s : State) (d : Nat) (x : Dom) : (s.setDom d x).checks = s.checks := by cases s; rfl
@[simp] theorem offs_setDom (s : State) (d : Nat) (x : Dom) : (s.setDom d x).offs = s.offs := by cases s; rfl
@[simp] theorem lagged_setDom (s : State) (d : Nat) (x : Dom) : (s.setDom d x).lagged = s.lagged := by cases s; rfl
@[simp] theorem taken_setDom (s : State) (d : Nat) (x : Dom) : (s.setDom d x).taken = s.taken := by cases s; rfl
@[simp] theorem mem_setDom (s : State) (d : Nat) (x : Dom) : (s.setDom d x).mem = s.mem := by cases s; rfl
@[simp] theorem ctr_setDom (s : State) (d : Nat) (x : Dom) : (s.setDom d x).ctr = s.ctr := by cases s; rfl
@[simp] theorem lat_setDom (s : State) (d : Nat) (x : Dom) : (s.setDom d x).lat = s.lat := by cases s; rfl
@[simp] theorem ep_setDom (s : State) (d : Nat) (x : Dom) : (s.setDom d x).ep = s.ep := by cases s; rfl
@[simp] theorem pins_setDom (s : State) (d : Nat) (x : Dom) : (s.setDom d x).pins = s.pins := by cases s; rfl
@[simp] theorem groups_setDom (s : State) (d : Nat) (x : Dom) : (s.setDom d x).groups = s.groups := by cases s; rfl
@[simp] theorem anas_setDom (s : State) (d : Nat) (x : Dom) : (s.setDom d x).anas = s.anas := by cases s; rfl
@[simp] theorem tsets_setDom (s : State) (d : Nat) (x : Dom) : (s.setDom d x).tsets = s.tsets := by cases s; rfl
@[simp] theorem trims_setDom (s : State) (d : Nat) (x : Dom) : (s.setDom d x).trims = s.trims := by cases s; rfl
@[simp] theorem seqs_setDom (s : State) (d : Nat) (x : Dom) : (s.setDom d x).seqs = s.seqs := by cases s; rfl
@[simp] theorem xips_setDom (s : State) (d : Nat) (x : Dom) : (s.setDom d x).xips = s.xips := by cases s; rfl
@[simp] theorem pwr_setDom (s : State) (d : Nat) (x : Dom) : (s.setDom d x).pwr = s.pwr := by cases s; rfl
@[simp] theorem resetEnd_setDom (s : State) (d : Nat) (x : Dom) : (s.setDom d x).resetEnd = s.resetEnd := by cases s; rfl
@[simp] theorem regions_setDom (s : State) (d : Nat) (x : Dom) : (s.setDom d x).regions = s.regions := by cases s; rfl
@[simp] theorem undef_setDom (s : State) (d : Nat) (x : Dom) : (s.setDom d x).undef = s.undef := by cases s; rfl
@[simp] theorem deepLast_setDom (s : State) (d : Nat) (x : Dom) : (s.setDom d x).deepLast = s.deepLast := by cases s; rfl
@[simp] theorem blocks_setDom (s : State) (d : Nat) (x : Dom) : (s.setDom d x).blocks = s.blocks := by cases s; rfl
@[simp] theorem ledger_setDom (s : State) (d : Nat) (x : Dom) : (s.setDom d x).ledger = s.ledger := by cases s; rfl
@[simp] theorem bist_setDom (s : State) (d : Nat) (x : Dom) : (s.setDom d x).bist = s.bist := by cases s; rfl
@[simp] theorem store_setDom (s : State) (d : Nat) (x : Dom) : (s.setDom d x).store = s.store := by cases s; rfl
@[simp] theorem life_setDom (s : State) (d : Nat) (x : Dom) : (s.setDom d x).life = s.life := by cases s; rfl
@[simp] theorem jtag_setDom (s : State) (d : Nat) (x : Dom) : (s.setDom d x).jtag = s.jtag := by cases s; rfl
@[simp] theorem protos_setDom (s : State) (d : Nat) (x : Dom) : (s.setDom d x).protos = s.protos := by cases s; rfl
@[simp] theorem lanes_setDom (s : State) (d : Nat) (x : Dom) : (s.setDom d x).lanes = s.lanes := by cases s; rfl

@[simp] theorem now_setPort (s : State) (n : Nat) (x : Port) : (s.setPort n x).now = s.now := by cases s; rfl
@[simp] theorem pending_setPort (s : State) (n : Nat) (x : Port) : (s.setPort n x).pending = s.pending := by cases s; rfl
@[simp] theorem out_setPort (s : State) (n : Nat) (x : Port) : (s.setPort n x).out = s.out := by cases s; rfl
@[simp] theorem rdata_setPort (s : State) (n : Nat) (x : Port) : (s.setPort n x).rdata = s.rdata := by cases s; rfl
@[simp] theorem resp_setPort (s : State) (n : Nat) (x : Port) : (s.setPort n x).resp = s.resp := by cases s; rfl
@[simp] theorem free_setPort (s : State) (n : Nat) (x : Port) : (s.setPort n x).free = s.free := by cases s; rfl
@[simp] theorem regs_setPort (s : State) (n : Nat) (x : Port) : (s.setPort n x).regs = s.regs := by cases s; rfl
@[simp] theorem checks_setPort (s : State) (n : Nat) (x : Port) : (s.setPort n x).checks = s.checks := by cases s; rfl
@[simp] theorem offs_setPort (s : State) (n : Nat) (x : Port) : (s.setPort n x).offs = s.offs := by cases s; rfl
@[simp] theorem lagged_setPort (s : State) (n : Nat) (x : Port) : (s.setPort n x).lagged = s.lagged := by cases s; rfl
@[simp] theorem taken_setPort (s : State) (n : Nat) (x : Port) : (s.setPort n x).taken = s.taken := by cases s; rfl
@[simp] theorem mem_setPort (s : State) (n : Nat) (x : Port) : (s.setPort n x).mem = s.mem := by cases s; rfl
@[simp] theorem doms_setPort (s : State) (n : Nat) (x : Port) : (s.setPort n x).doms = s.doms := by cases s; rfl
@[simp] theorem ctr_setPort (s : State) (n : Nat) (x : Port) : (s.setPort n x).ctr = s.ctr := by cases s; rfl
@[simp] theorem ep_setPort (s : State) (n : Nat) (x : Port) : (s.setPort n x).ep = s.ep := by cases s; rfl
@[simp] theorem pins_setPort (s : State) (n : Nat) (x : Port) : (s.setPort n x).pins = s.pins := by cases s; rfl
@[simp] theorem groups_setPort (s : State) (n : Nat) (x : Port) : (s.setPort n x).groups = s.groups := by cases s; rfl
@[simp] theorem anas_setPort (s : State) (n : Nat) (x : Port) : (s.setPort n x).anas = s.anas := by cases s; rfl
@[simp] theorem tsets_setPort (s : State) (n : Nat) (x : Port) : (s.setPort n x).tsets = s.tsets := by cases s; rfl
@[simp] theorem trims_setPort (s : State) (n : Nat) (x : Port) : (s.setPort n x).trims = s.trims := by cases s; rfl
@[simp] theorem seqs_setPort (s : State) (n : Nat) (x : Port) : (s.setPort n x).seqs = s.seqs := by cases s; rfl
@[simp] theorem xips_setPort (s : State) (n : Nat) (x : Port) : (s.setPort n x).xips = s.xips := by cases s; rfl
@[simp] theorem pwr_setPort (s : State) (n : Nat) (x : Port) : (s.setPort n x).pwr = s.pwr := by cases s; rfl
@[simp] theorem resetEnd_setPort (s : State) (n : Nat) (x : Port) : (s.setPort n x).resetEnd = s.resetEnd := by cases s; rfl
@[simp] theorem regions_setPort (s : State) (n : Nat) (x : Port) : (s.setPort n x).regions = s.regions := by cases s; rfl
@[simp] theorem undef_setPort (s : State) (n : Nat) (x : Port) : (s.setPort n x).undef = s.undef := by cases s; rfl
@[simp] theorem deepLast_setPort (s : State) (n : Nat) (x : Port) : (s.setPort n x).deepLast = s.deepLast := by cases s; rfl
@[simp] theorem blocks_setPort (s : State) (n : Nat) (x : Port) : (s.setPort n x).blocks = s.blocks := by cases s; rfl
@[simp] theorem ledger_setPort (s : State) (n : Nat) (x : Port) : (s.setPort n x).ledger = s.ledger := by cases s; rfl
@[simp] theorem bist_setPort (s : State) (n : Nat) (x : Port) : (s.setPort n x).bist = s.bist := by cases s; rfl
@[simp] theorem store_setPort (s : State) (n : Nat) (x : Port) : (s.setPort n x).store = s.store := by cases s; rfl
@[simp] theorem life_setPort (s : State) (n : Nat) (x : Port) : (s.setPort n x).life = s.life := by cases s; rfl
@[simp] theorem jtag_setPort (s : State) (n : Nat) (x : Port) : (s.setPort n x).jtag = s.jtag := by cases s; rfl
@[simp] theorem protos_setPort (s : State) (n : Nat) (x : Port) : (s.setPort n x).protos = s.protos := by cases s; rfl
@[simp] theorem lanes_setPort (s : State) (n : Nat) (x : Port) : (s.setPort n x).lanes = s.lanes := by cases s; rfl

@[simp] theorem now_setPin (s : State) (i : Nat) (x : Pin) : (s.setPin i x).now = s.now := by cases s; rfl
@[simp] theorem pending_setPin (s : State) (i : Nat) (x : Pin) : (s.setPin i x).pending = s.pending := by cases s; rfl
@[simp] theorem out_setPin (s : State) (i : Nat) (x : Pin) : (s.setPin i x).out = s.out := by cases s; rfl
@[simp] theorem rdata_setPin (s : State) (i : Nat) (x : Pin) : (s.setPin i x).rdata = s.rdata := by cases s; rfl
@[simp] theorem resp_setPin (s : State) (i : Nat) (x : Pin) : (s.setPin i x).resp = s.resp := by cases s; rfl
@[simp] theorem free_setPin (s : State) (i : Nat) (x : Pin) : (s.setPin i x).free = s.free := by cases s; rfl
@[simp] theorem regs_setPin (s : State) (i : Nat) (x : Pin) : (s.setPin i x).regs = s.regs := by cases s; rfl
@[simp] theorem checks_setPin (s : State) (i : Nat) (x : Pin) : (s.setPin i x).checks = s.checks := by cases s; rfl
@[simp] theorem offs_setPin (s : State) (i : Nat) (x : Pin) : (s.setPin i x).offs = s.offs := by cases s; rfl
@[simp] theorem lagged_setPin (s : State) (i : Nat) (x : Pin) : (s.setPin i x).lagged = s.lagged := by cases s; rfl
@[simp] theorem taken_setPin (s : State) (i : Nat) (x : Pin) : (s.setPin i x).taken = s.taken := by cases s; rfl
@[simp] theorem mem_setPin (s : State) (i : Nat) (x : Pin) : (s.setPin i x).mem = s.mem := by cases s; rfl
@[simp] theorem doms_setPin (s : State) (i : Nat) (x : Pin) : (s.setPin i x).doms = s.doms := by cases s; rfl
@[simp] theorem ctr_setPin (s : State) (i : Nat) (x : Pin) : (s.setPin i x).ctr = s.ctr := by cases s; rfl
@[simp] theorem lat_setPin (s : State) (i : Nat) (x : Pin) : (s.setPin i x).lat = s.lat := by cases s; rfl
@[simp] theorem ep_setPin (s : State) (i : Nat) (x : Pin) : (s.setPin i x).ep = s.ep := by cases s; rfl
@[simp] theorem groups_setPin (s : State) (i : Nat) (x : Pin) : (s.setPin i x).groups = s.groups := by cases s; rfl
@[simp] theorem anas_setPin (s : State) (i : Nat) (x : Pin) : (s.setPin i x).anas = s.anas := by cases s; rfl
@[simp] theorem tsets_setPin (s : State) (i : Nat) (x : Pin) : (s.setPin i x).tsets = s.tsets := by cases s; rfl
@[simp] theorem trims_setPin (s : State) (i : Nat) (x : Pin) : (s.setPin i x).trims = s.trims := by cases s; rfl
@[simp] theorem seqs_setPin (s : State) (i : Nat) (x : Pin) : (s.setPin i x).seqs = s.seqs := by cases s; rfl
@[simp] theorem xips_setPin (s : State) (i : Nat) (x : Pin) : (s.setPin i x).xips = s.xips := by cases s; rfl
@[simp] theorem pwr_setPin (s : State) (i : Nat) (x : Pin) : (s.setPin i x).pwr = s.pwr := by cases s; rfl
@[simp] theorem resetEnd_setPin (s : State) (i : Nat) (x : Pin) : (s.setPin i x).resetEnd = s.resetEnd := by cases s; rfl
@[simp] theorem regions_setPin (s : State) (i : Nat) (x : Pin) : (s.setPin i x).regions = s.regions := by cases s; rfl
@[simp] theorem undef_setPin (s : State) (i : Nat) (x : Pin) : (s.setPin i x).undef = s.undef := by cases s; rfl
@[simp] theorem deepLast_setPin (s : State) (i : Nat) (x : Pin) : (s.setPin i x).deepLast = s.deepLast := by cases s; rfl
@[simp] theorem blocks_setPin (s : State) (i : Nat) (x : Pin) : (s.setPin i x).blocks = s.blocks := by cases s; rfl
@[simp] theorem ledger_setPin (s : State) (i : Nat) (x : Pin) : (s.setPin i x).ledger = s.ledger := by cases s; rfl
@[simp] theorem bist_setPin (s : State) (i : Nat) (x : Pin) : (s.setPin i x).bist = s.bist := by cases s; rfl
@[simp] theorem store_setPin (s : State) (i : Nat) (x : Pin) : (s.setPin i x).store = s.store := by cases s; rfl
@[simp] theorem life_setPin (s : State) (i : Nat) (x : Pin) : (s.setPin i x).life = s.life := by cases s; rfl
@[simp] theorem jtag_setPin (s : State) (i : Nat) (x : Pin) : (s.setPin i x).jtag = s.jtag := by cases s; rfl
@[simp] theorem protos_setPin (s : State) (i : Nat) (x : Pin) : (s.setPin i x).protos = s.protos := by cases s; rfl
@[simp] theorem lanes_setPin (s : State) (i : Nat) (x : Pin) : (s.setPin i x).lanes = s.lanes := by cases s; rfl

@[simp] theorem now_setGrp (s : State) (i : Nat) (x : Group) : (s.setGrp i x).now = s.now := by cases s; rfl
@[simp] theorem pending_setGrp (s : State) (i : Nat) (x : Group) : (s.setGrp i x).pending = s.pending := by cases s; rfl
@[simp] theorem out_setGrp (s : State) (i : Nat) (x : Group) : (s.setGrp i x).out = s.out := by cases s; rfl
@[simp] theorem rdata_setGrp (s : State) (i : Nat) (x : Group) : (s.setGrp i x).rdata = s.rdata := by cases s; rfl
@[simp] theorem resp_setGrp (s : State) (i : Nat) (x : Group) : (s.setGrp i x).resp = s.resp := by cases s; rfl
@[simp] theorem free_setGrp (s : State) (i : Nat) (x : Group) : (s.setGrp i x).free = s.free := by cases s; rfl
@[simp] theorem regs_setGrp (s : State) (i : Nat) (x : Group) : (s.setGrp i x).regs = s.regs := by cases s; rfl
@[simp] theorem checks_setGrp (s : State) (i : Nat) (x : Group) : (s.setGrp i x).checks = s.checks := by cases s; rfl
@[simp] theorem offs_setGrp (s : State) (i : Nat) (x : Group) : (s.setGrp i x).offs = s.offs := by cases s; rfl
@[simp] theorem lagged_setGrp (s : State) (i : Nat) (x : Group) : (s.setGrp i x).lagged = s.lagged := by cases s; rfl
@[simp] theorem taken_setGrp (s : State) (i : Nat) (x : Group) : (s.setGrp i x).taken = s.taken := by cases s; rfl
@[simp] theorem mem_setGrp (s : State) (i : Nat) (x : Group) : (s.setGrp i x).mem = s.mem := by cases s; rfl
@[simp] theorem doms_setGrp (s : State) (i : Nat) (x : Group) : (s.setGrp i x).doms = s.doms := by cases s; rfl
@[simp] theorem ctr_setGrp (s : State) (i : Nat) (x : Group) : (s.setGrp i x).ctr = s.ctr := by cases s; rfl
@[simp] theorem lat_setGrp (s : State) (i : Nat) (x : Group) : (s.setGrp i x).lat = s.lat := by cases s; rfl
@[simp] theorem ep_setGrp (s : State) (i : Nat) (x : Group) : (s.setGrp i x).ep = s.ep := by cases s; rfl
@[simp] theorem pins_setGrp (s : State) (i : Nat) (x : Group) : (s.setGrp i x).pins = s.pins := by cases s; rfl
@[simp] theorem anas_setGrp (s : State) (i : Nat) (x : Group) : (s.setGrp i x).anas = s.anas := by cases s; rfl
@[simp] theorem tsets_setGrp (s : State) (i : Nat) (x : Group) : (s.setGrp i x).tsets = s.tsets := by cases s; rfl
@[simp] theorem trims_setGrp (s : State) (i : Nat) (x : Group) : (s.setGrp i x).trims = s.trims := by cases s; rfl
@[simp] theorem seqs_setGrp (s : State) (i : Nat) (x : Group) : (s.setGrp i x).seqs = s.seqs := by cases s; rfl
@[simp] theorem xips_setGrp (s : State) (i : Nat) (x : Group) : (s.setGrp i x).xips = s.xips := by cases s; rfl
@[simp] theorem pwr_setGrp (s : State) (i : Nat) (x : Group) : (s.setGrp i x).pwr = s.pwr := by cases s; rfl
@[simp] theorem resetEnd_setGrp (s : State) (i : Nat) (x : Group) : (s.setGrp i x).resetEnd = s.resetEnd := by cases s; rfl
@[simp] theorem regions_setGrp (s : State) (i : Nat) (x : Group) : (s.setGrp i x).regions = s.regions := by cases s; rfl
@[simp] theorem undef_setGrp (s : State) (i : Nat) (x : Group) : (s.setGrp i x).undef = s.undef := by cases s; rfl
@[simp] theorem deepLast_setGrp (s : State) (i : Nat) (x : Group) : (s.setGrp i x).deepLast = s.deepLast := by cases s; rfl
@[simp] theorem blocks_setGrp (s : State) (i : Nat) (x : Group) : (s.setGrp i x).blocks = s.blocks := by cases s; rfl
@[simp] theorem ledger_setGrp (s : State) (i : Nat) (x : Group) : (s.setGrp i x).ledger = s.ledger := by cases s; rfl
@[simp] theorem bist_setGrp (s : State) (i : Nat) (x : Group) : (s.setGrp i x).bist = s.bist := by cases s; rfl
@[simp] theorem store_setGrp (s : State) (i : Nat) (x : Group) : (s.setGrp i x).store = s.store := by cases s; rfl
@[simp] theorem life_setGrp (s : State) (i : Nat) (x : Group) : (s.setGrp i x).life = s.life := by cases s; rfl
@[simp] theorem jtag_setGrp (s : State) (i : Nat) (x : Group) : (s.setGrp i x).jtag = s.jtag := by cases s; rfl
@[simp] theorem protos_setGrp (s : State) (i : Nat) (x : Group) : (s.setGrp i x).protos = s.protos := by cases s; rfl
@[simp] theorem lanes_setGrp (s : State) (i : Nat) (x : Group) : (s.setGrp i x).lanes = s.lanes := by cases s; rfl

@[simp] theorem now_setAna (s : State) (i : Nat) (x : Ana) : (s.setAna i x).now = s.now := by cases s; rfl
@[simp] theorem pending_setAna (s : State) (i : Nat) (x : Ana) : (s.setAna i x).pending = s.pending := by cases s; rfl
@[simp] theorem out_setAna (s : State) (i : Nat) (x : Ana) : (s.setAna i x).out = s.out := by cases s; rfl
@[simp] theorem rdata_setAna (s : State) (i : Nat) (x : Ana) : (s.setAna i x).rdata = s.rdata := by cases s; rfl
@[simp] theorem resp_setAna (s : State) (i : Nat) (x : Ana) : (s.setAna i x).resp = s.resp := by cases s; rfl
@[simp] theorem free_setAna (s : State) (i : Nat) (x : Ana) : (s.setAna i x).free = s.free := by cases s; rfl
@[simp] theorem regs_setAna (s : State) (i : Nat) (x : Ana) : (s.setAna i x).regs = s.regs := by cases s; rfl
@[simp] theorem checks_setAna (s : State) (i : Nat) (x : Ana) : (s.setAna i x).checks = s.checks := by cases s; rfl
@[simp] theorem offs_setAna (s : State) (i : Nat) (x : Ana) : (s.setAna i x).offs = s.offs := by cases s; rfl
@[simp] theorem lagged_setAna (s : State) (i : Nat) (x : Ana) : (s.setAna i x).lagged = s.lagged := by cases s; rfl
@[simp] theorem taken_setAna (s : State) (i : Nat) (x : Ana) : (s.setAna i x).taken = s.taken := by cases s; rfl
@[simp] theorem mem_setAna (s : State) (i : Nat) (x : Ana) : (s.setAna i x).mem = s.mem := by cases s; rfl
@[simp] theorem doms_setAna (s : State) (i : Nat) (x : Ana) : (s.setAna i x).doms = s.doms := by cases s; rfl
@[simp] theorem ctr_setAna (s : State) (i : Nat) (x : Ana) : (s.setAna i x).ctr = s.ctr := by cases s; rfl
@[simp] theorem lat_setAna (s : State) (i : Nat) (x : Ana) : (s.setAna i x).lat = s.lat := by cases s; rfl
@[simp] theorem ep_setAna (s : State) (i : Nat) (x : Ana) : (s.setAna i x).ep = s.ep := by cases s; rfl
@[simp] theorem pins_setAna (s : State) (i : Nat) (x : Ana) : (s.setAna i x).pins = s.pins := by cases s; rfl
@[simp] theorem groups_setAna (s : State) (i : Nat) (x : Ana) : (s.setAna i x).groups = s.groups := by cases s; rfl
@[simp] theorem tsets_setAna (s : State) (i : Nat) (x : Ana) : (s.setAna i x).tsets = s.tsets := by cases s; rfl
@[simp] theorem trims_setAna (s : State) (i : Nat) (x : Ana) : (s.setAna i x).trims = s.trims := by cases s; rfl
@[simp] theorem seqs_setAna (s : State) (i : Nat) (x : Ana) : (s.setAna i x).seqs = s.seqs := by cases s; rfl
@[simp] theorem xips_setAna (s : State) (i : Nat) (x : Ana) : (s.setAna i x).xips = s.xips := by cases s; rfl
@[simp] theorem pwr_setAna (s : State) (i : Nat) (x : Ana) : (s.setAna i x).pwr = s.pwr := by cases s; rfl
@[simp] theorem resetEnd_setAna (s : State) (i : Nat) (x : Ana) : (s.setAna i x).resetEnd = s.resetEnd := by cases s; rfl
@[simp] theorem regions_setAna (s : State) (i : Nat) (x : Ana) : (s.setAna i x).regions = s.regions := by cases s; rfl
@[simp] theorem undef_setAna (s : State) (i : Nat) (x : Ana) : (s.setAna i x).undef = s.undef := by cases s; rfl
@[simp] theorem deepLast_setAna (s : State) (i : Nat) (x : Ana) : (s.setAna i x).deepLast = s.deepLast := by cases s; rfl
@[simp] theorem blocks_setAna (s : State) (i : Nat) (x : Ana) : (s.setAna i x).blocks = s.blocks := by cases s; rfl
@[simp] theorem ledger_setAna (s : State) (i : Nat) (x : Ana) : (s.setAna i x).ledger = s.ledger := by cases s; rfl
@[simp] theorem bist_setAna (s : State) (i : Nat) (x : Ana) : (s.setAna i x).bist = s.bist := by cases s; rfl
@[simp] theorem store_setAna (s : State) (i : Nat) (x : Ana) : (s.setAna i x).store = s.store := by cases s; rfl
@[simp] theorem life_setAna (s : State) (i : Nat) (x : Ana) : (s.setAna i x).life = s.life := by cases s; rfl
@[simp] theorem jtag_setAna (s : State) (i : Nat) (x : Ana) : (s.setAna i x).jtag = s.jtag := by cases s; rfl
@[simp] theorem protos_setAna (s : State) (i : Nat) (x : Ana) : (s.setAna i x).protos = s.protos := by cases s; rfl
@[simp] theorem lanes_setAna (s : State) (i : Nat) (x : Ana) : (s.setAna i x).lanes = s.lanes := by cases s; rfl

@[simp] theorem now_setSq (s : State) (i : Nat) (x : Seq) : (s.setSq i x).now = s.now := by cases s; rfl
@[simp] theorem pending_setSq (s : State) (i : Nat) (x : Seq) : (s.setSq i x).pending = s.pending := by cases s; rfl
@[simp] theorem out_setSq (s : State) (i : Nat) (x : Seq) : (s.setSq i x).out = s.out := by cases s; rfl
@[simp] theorem rdata_setSq (s : State) (i : Nat) (x : Seq) : (s.setSq i x).rdata = s.rdata := by cases s; rfl
@[simp] theorem resp_setSq (s : State) (i : Nat) (x : Seq) : (s.setSq i x).resp = s.resp := by cases s; rfl
@[simp] theorem free_setSq (s : State) (i : Nat) (x : Seq) : (s.setSq i x).free = s.free := by cases s; rfl
@[simp] theorem regs_setSq (s : State) (i : Nat) (x : Seq) : (s.setSq i x).regs = s.regs := by cases s; rfl
@[simp] theorem checks_setSq (s : State) (i : Nat) (x : Seq) : (s.setSq i x).checks = s.checks := by cases s; rfl
@[simp] theorem offs_setSq (s : State) (i : Nat) (x : Seq) : (s.setSq i x).offs = s.offs := by cases s; rfl
@[simp] theorem lagged_setSq (s : State) (i : Nat) (x : Seq) : (s.setSq i x).lagged = s.lagged := by cases s; rfl
@[simp] theorem taken_setSq (s : State) (i : Nat) (x : Seq) : (s.setSq i x).taken = s.taken := by cases s; rfl
@[simp] theorem mem_setSq (s : State) (i : Nat) (x : Seq) : (s.setSq i x).mem = s.mem := by cases s; rfl
@[simp] theorem doms_setSq (s : State) (i : Nat) (x : Seq) : (s.setSq i x).doms = s.doms := by cases s; rfl
@[simp] theorem ctr_setSq (s : State) (i : Nat) (x : Seq) : (s.setSq i x).ctr = s.ctr := by cases s; rfl
@[simp] theorem lat_setSq (s : State) (i : Nat) (x : Seq) : (s.setSq i x).lat = s.lat := by cases s; rfl
@[simp] theorem ep_setSq (s : State) (i : Nat) (x : Seq) : (s.setSq i x).ep = s.ep := by cases s; rfl
@[simp] theorem pins_setSq (s : State) (i : Nat) (x : Seq) : (s.setSq i x).pins = s.pins := by cases s; rfl
@[simp] theorem groups_setSq (s : State) (i : Nat) (x : Seq) : (s.setSq i x).groups = s.groups := by cases s; rfl
@[simp] theorem anas_setSq (s : State) (i : Nat) (x : Seq) : (s.setSq i x).anas = s.anas := by cases s; rfl
@[simp] theorem tsets_setSq (s : State) (i : Nat) (x : Seq) : (s.setSq i x).tsets = s.tsets := by cases s; rfl
@[simp] theorem trims_setSq (s : State) (i : Nat) (x : Seq) : (s.setSq i x).trims = s.trims := by cases s; rfl
@[simp] theorem xips_setSq (s : State) (i : Nat) (x : Seq) : (s.setSq i x).xips = s.xips := by cases s; rfl
@[simp] theorem pwr_setSq (s : State) (i : Nat) (x : Seq) : (s.setSq i x).pwr = s.pwr := by cases s; rfl
@[simp] theorem resetEnd_setSq (s : State) (i : Nat) (x : Seq) : (s.setSq i x).resetEnd = s.resetEnd := by cases s; rfl
@[simp] theorem regions_setSq (s : State) (i : Nat) (x : Seq) : (s.setSq i x).regions = s.regions := by cases s; rfl
@[simp] theorem undef_setSq (s : State) (i : Nat) (x : Seq) : (s.setSq i x).undef = s.undef := by cases s; rfl
@[simp] theorem deepLast_setSq (s : State) (i : Nat) (x : Seq) : (s.setSq i x).deepLast = s.deepLast := by cases s; rfl
@[simp] theorem blocks_setSq (s : State) (i : Nat) (x : Seq) : (s.setSq i x).blocks = s.blocks := by cases s; rfl
@[simp] theorem ledger_setSq (s : State) (i : Nat) (x : Seq) : (s.setSq i x).ledger = s.ledger := by cases s; rfl
@[simp] theorem bist_setSq (s : State) (i : Nat) (x : Seq) : (s.setSq i x).bist = s.bist := by cases s; rfl
@[simp] theorem store_setSq (s : State) (i : Nat) (x : Seq) : (s.setSq i x).store = s.store := by cases s; rfl
@[simp] theorem life_setSq (s : State) (i : Nat) (x : Seq) : (s.setSq i x).life = s.life := by cases s; rfl
@[simp] theorem jtag_setSq (s : State) (i : Nat) (x : Seq) : (s.setSq i x).jtag = s.jtag := by cases s; rfl
@[simp] theorem protos_setSq (s : State) (i : Nat) (x : Seq) : (s.setSq i x).protos = s.protos := by cases s; rfl
@[simp] theorem lanes_setSq (s : State) (i : Nat) (x : Seq) : (s.setSq i x).lanes = s.lanes := by cases s; rfl

@[simp] theorem now_setXip (s : State) (i : Nat) (x : Xip) : (s.setXip i x).now = s.now := by cases s; rfl
@[simp] theorem pending_setXip (s : State) (i : Nat) (x : Xip) : (s.setXip i x).pending = s.pending := by cases s; rfl
@[simp] theorem out_setXip (s : State) (i : Nat) (x : Xip) : (s.setXip i x).out = s.out := by cases s; rfl
@[simp] theorem rdata_setXip (s : State) (i : Nat) (x : Xip) : (s.setXip i x).rdata = s.rdata := by cases s; rfl
@[simp] theorem resp_setXip (s : State) (i : Nat) (x : Xip) : (s.setXip i x).resp = s.resp := by cases s; rfl
@[simp] theorem free_setXip (s : State) (i : Nat) (x : Xip) : (s.setXip i x).free = s.free := by cases s; rfl
@[simp] theorem regs_setXip (s : State) (i : Nat) (x : Xip) : (s.setXip i x).regs = s.regs := by cases s; rfl
@[simp] theorem checks_setXip (s : State) (i : Nat) (x : Xip) : (s.setXip i x).checks = s.checks := by cases s; rfl
@[simp] theorem offs_setXip (s : State) (i : Nat) (x : Xip) : (s.setXip i x).offs = s.offs := by cases s; rfl
@[simp] theorem lagged_setXip (s : State) (i : Nat) (x : Xip) : (s.setXip i x).lagged = s.lagged := by cases s; rfl
@[simp] theorem taken_setXip (s : State) (i : Nat) (x : Xip) : (s.setXip i x).taken = s.taken := by cases s; rfl
@[simp] theorem mem_setXip (s : State) (i : Nat) (x : Xip) : (s.setXip i x).mem = s.mem := by cases s; rfl
@[simp] theorem doms_setXip (s : State) (i : Nat) (x : Xip) : (s.setXip i x).doms = s.doms := by cases s; rfl
@[simp] theorem ctr_setXip (s : State) (i : Nat) (x : Xip) : (s.setXip i x).ctr = s.ctr := by cases s; rfl
@[simp] theorem lat_setXip (s : State) (i : Nat) (x : Xip) : (s.setXip i x).lat = s.lat := by cases s; rfl
@[simp] theorem ep_setXip (s : State) (i : Nat) (x : Xip) : (s.setXip i x).ep = s.ep := by cases s; rfl
@[simp] theorem pins_setXip (s : State) (i : Nat) (x : Xip) : (s.setXip i x).pins = s.pins := by cases s; rfl
@[simp] theorem groups_setXip (s : State) (i : Nat) (x : Xip) : (s.setXip i x).groups = s.groups := by cases s; rfl
@[simp] theorem anas_setXip (s : State) (i : Nat) (x : Xip) : (s.setXip i x).anas = s.anas := by cases s; rfl
@[simp] theorem tsets_setXip (s : State) (i : Nat) (x : Xip) : (s.setXip i x).tsets = s.tsets := by cases s; rfl
@[simp] theorem trims_setXip (s : State) (i : Nat) (x : Xip) : (s.setXip i x).trims = s.trims := by cases s; rfl
@[simp] theorem seqs_setXip (s : State) (i : Nat) (x : Xip) : (s.setXip i x).seqs = s.seqs := by cases s; rfl
@[simp] theorem pwr_setXip (s : State) (i : Nat) (x : Xip) : (s.setXip i x).pwr = s.pwr := by cases s; rfl
@[simp] theorem resetEnd_setXip (s : State) (i : Nat) (x : Xip) : (s.setXip i x).resetEnd = s.resetEnd := by cases s; rfl
@[simp] theorem regions_setXip (s : State) (i : Nat) (x : Xip) : (s.setXip i x).regions = s.regions := by cases s; rfl
@[simp] theorem undef_setXip (s : State) (i : Nat) (x : Xip) : (s.setXip i x).undef = s.undef := by cases s; rfl
@[simp] theorem deepLast_setXip (s : State) (i : Nat) (x : Xip) : (s.setXip i x).deepLast = s.deepLast := by cases s; rfl
@[simp] theorem blocks_setXip (s : State) (i : Nat) (x : Xip) : (s.setXip i x).blocks = s.blocks := by cases s; rfl
@[simp] theorem ledger_setXip (s : State) (i : Nat) (x : Xip) : (s.setXip i x).ledger = s.ledger := by cases s; rfl
@[simp] theorem bist_setXip (s : State) (i : Nat) (x : Xip) : (s.setXip i x).bist = s.bist := by cases s; rfl
@[simp] theorem store_setXip (s : State) (i : Nat) (x : Xip) : (s.setXip i x).store = s.store := by cases s; rfl
@[simp] theorem life_setXip (s : State) (i : Nat) (x : Xip) : (s.setXip i x).life = s.life := by cases s; rfl
@[simp] theorem jtag_setXip (s : State) (i : Nat) (x : Xip) : (s.setXip i x).jtag = s.jtag := by cases s; rfl
@[simp] theorem protos_setXip (s : State) (i : Nat) (x : Xip) : (s.setXip i x).protos = s.protos := by cases s; rfl
@[simp] theorem lanes_setXip (s : State) (i : Nat) (x : Xip) : (s.setXip i x).lanes = s.lanes := by cases s; rfl

@[simp] theorem now_putBytes (s : State) (a : Nat) (bs : List Byte) : (s.putBytes a bs).now = s.now := by cases s; rfl
@[simp] theorem pending_putBytes (s : State) (a : Nat) (bs : List Byte) : (s.putBytes a bs).pending = s.pending := by cases s; rfl
@[simp] theorem out_putBytes (s : State) (a : Nat) (bs : List Byte) : (s.putBytes a bs).out = s.out := by cases s; rfl
@[simp] theorem rdata_putBytes (s : State) (a : Nat) (bs : List Byte) : (s.putBytes a bs).rdata = s.rdata := by cases s; rfl
@[simp] theorem resp_putBytes (s : State) (a : Nat) (bs : List Byte) : (s.putBytes a bs).resp = s.resp := by cases s; rfl
@[simp] theorem free_putBytes (s : State) (a : Nat) (bs : List Byte) : (s.putBytes a bs).free = s.free := by cases s; rfl
@[simp] theorem regs_putBytes (s : State) (a : Nat) (bs : List Byte) : (s.putBytes a bs).regs = s.regs := by cases s; rfl
@[simp] theorem checks_putBytes (s : State) (a : Nat) (bs : List Byte) : (s.putBytes a bs).checks = s.checks := by cases s; rfl
@[simp] theorem offs_putBytes (s : State) (a : Nat) (bs : List Byte) : (s.putBytes a bs).offs = s.offs := by cases s; rfl
@[simp] theorem lagged_putBytes (s : State) (a : Nat) (bs : List Byte) : (s.putBytes a bs).lagged = s.lagged := by cases s; rfl
@[simp] theorem taken_putBytes (s : State) (a : Nat) (bs : List Byte) : (s.putBytes a bs).taken = s.taken := by cases s; rfl
@[simp] theorem doms_putBytes (s : State) (a : Nat) (bs : List Byte) : (s.putBytes a bs).doms = s.doms := by cases s; rfl
@[simp] theorem ctr_putBytes (s : State) (a : Nat) (bs : List Byte) : (s.putBytes a bs).ctr = s.ctr := by cases s; rfl
@[simp] theorem lat_putBytes (s : State) (a : Nat) (bs : List Byte) : (s.putBytes a bs).lat = s.lat := by cases s; rfl
@[simp] theorem ep_putBytes (s : State) (a : Nat) (bs : List Byte) : (s.putBytes a bs).ep = s.ep := by cases s; rfl
@[simp] theorem pins_putBytes (s : State) (a : Nat) (bs : List Byte) : (s.putBytes a bs).pins = s.pins := by cases s; rfl
@[simp] theorem groups_putBytes (s : State) (a : Nat) (bs : List Byte) : (s.putBytes a bs).groups = s.groups := by cases s; rfl
@[simp] theorem anas_putBytes (s : State) (a : Nat) (bs : List Byte) : (s.putBytes a bs).anas = s.anas := by cases s; rfl
@[simp] theorem tsets_putBytes (s : State) (a : Nat) (bs : List Byte) : (s.putBytes a bs).tsets = s.tsets := by cases s; rfl
@[simp] theorem trims_putBytes (s : State) (a : Nat) (bs : List Byte) : (s.putBytes a bs).trims = s.trims := by cases s; rfl
@[simp] theorem seqs_putBytes (s : State) (a : Nat) (bs : List Byte) : (s.putBytes a bs).seqs = s.seqs := by cases s; rfl
@[simp] theorem xips_putBytes (s : State) (a : Nat) (bs : List Byte) : (s.putBytes a bs).xips = s.xips := by cases s; rfl
@[simp] theorem pwr_putBytes (s : State) (a : Nat) (bs : List Byte) : (s.putBytes a bs).pwr = s.pwr := by cases s; rfl
@[simp] theorem resetEnd_putBytes (s : State) (a : Nat) (bs : List Byte) : (s.putBytes a bs).resetEnd = s.resetEnd := by cases s; rfl
@[simp] theorem regions_putBytes (s : State) (a : Nat) (bs : List Byte) : (s.putBytes a bs).regions = s.regions := by cases s; rfl
@[simp] theorem undef_putBytes (s : State) (a : Nat) (bs : List Byte) : (s.putBytes a bs).undef = s.undef := by cases s; rfl
@[simp] theorem deepLast_putBytes (s : State) (a : Nat) (bs : List Byte) : (s.putBytes a bs).deepLast = s.deepLast := by cases s; rfl
@[simp] theorem blocks_putBytes (s : State) (a : Nat) (bs : List Byte) : (s.putBytes a bs).blocks = s.blocks := by cases s; rfl
@[simp] theorem ledger_putBytes (s : State) (a : Nat) (bs : List Byte) : (s.putBytes a bs).ledger = s.ledger := by cases s; rfl
@[simp] theorem bist_putBytes (s : State) (a : Nat) (bs : List Byte) : (s.putBytes a bs).bist = s.bist := by cases s; rfl
@[simp] theorem store_putBytes (s : State) (a : Nat) (bs : List Byte) : (s.putBytes a bs).store = s.store := by cases s; rfl
@[simp] theorem life_putBytes (s : State) (a : Nat) (bs : List Byte) : (s.putBytes a bs).life = s.life := by cases s; rfl
@[simp] theorem jtag_putBytes (s : State) (a : Nat) (bs : List Byte) : (s.putBytes a bs).jtag = s.jtag := by cases s; rfl
@[simp] theorem protos_putBytes (s : State) (a : Nat) (bs : List Byte) : (s.putBytes a bs).protos = s.protos := by cases s; rfl
@[simp] theorem lanes_putBytes (s : State) (a : Nat) (bs : List Byte) : (s.putBytes a bs).lanes = s.lanes := by cases s; rfl

@[simp] theorem now_setRegion (s : State) (r : Nat) (x : Region) : (s.setRegion r x).now = s.now := by cases s; rfl
@[simp] theorem pending_setRegion (s : State) (r : Nat) (x : Region) : (s.setRegion r x).pending = s.pending := by cases s; rfl
@[simp] theorem out_setRegion (s : State) (r : Nat) (x : Region) : (s.setRegion r x).out = s.out := by cases s; rfl
@[simp] theorem rdata_setRegion (s : State) (r : Nat) (x : Region) : (s.setRegion r x).rdata = s.rdata := by cases s; rfl
@[simp] theorem resp_setRegion (s : State) (r : Nat) (x : Region) : (s.setRegion r x).resp = s.resp := by cases s; rfl
@[simp] theorem free_setRegion (s : State) (r : Nat) (x : Region) : (s.setRegion r x).free = s.free := by cases s; rfl
@[simp] theorem regs_setRegion (s : State) (r : Nat) (x : Region) : (s.setRegion r x).regs = s.regs := by cases s; rfl
@[simp] theorem checks_setRegion (s : State) (r : Nat) (x : Region) : (s.setRegion r x).checks = s.checks := by cases s; rfl
@[simp] theorem offs_setRegion (s : State) (r : Nat) (x : Region) : (s.setRegion r x).offs = s.offs := by cases s; rfl
@[simp] theorem lagged_setRegion (s : State) (r : Nat) (x : Region) : (s.setRegion r x).lagged = s.lagged := by cases s; rfl
@[simp] theorem taken_setRegion (s : State) (r : Nat) (x : Region) : (s.setRegion r x).taken = s.taken := by cases s; rfl
@[simp] theorem mem_setRegion (s : State) (r : Nat) (x : Region) : (s.setRegion r x).mem = s.mem := by cases s; rfl
@[simp] theorem doms_setRegion (s : State) (r : Nat) (x : Region) : (s.setRegion r x).doms = s.doms := by cases s; rfl
@[simp] theorem ctr_setRegion (s : State) (r : Nat) (x : Region) : (s.setRegion r x).ctr = s.ctr := by cases s; rfl
@[simp] theorem lat_setRegion (s : State) (r : Nat) (x : Region) : (s.setRegion r x).lat = s.lat := by cases s; rfl
@[simp] theorem ep_setRegion (s : State) (r : Nat) (x : Region) : (s.setRegion r x).ep = s.ep := by cases s; rfl
@[simp] theorem pins_setRegion (s : State) (r : Nat) (x : Region) : (s.setRegion r x).pins = s.pins := by cases s; rfl
@[simp] theorem groups_setRegion (s : State) (r : Nat) (x : Region) : (s.setRegion r x).groups = s.groups := by cases s; rfl
@[simp] theorem anas_setRegion (s : State) (r : Nat) (x : Region) : (s.setRegion r x).anas = s.anas := by cases s; rfl
@[simp] theorem tsets_setRegion (s : State) (r : Nat) (x : Region) : (s.setRegion r x).tsets = s.tsets := by cases s; rfl
@[simp] theorem trims_setRegion (s : State) (r : Nat) (x : Region) : (s.setRegion r x).trims = s.trims := by cases s; rfl
@[simp] theorem seqs_setRegion (s : State) (r : Nat) (x : Region) : (s.setRegion r x).seqs = s.seqs := by cases s; rfl
@[simp] theorem xips_setRegion (s : State) (r : Nat) (x : Region) : (s.setRegion r x).xips = s.xips := by cases s; rfl
@[simp] theorem pwr_setRegion (s : State) (r : Nat) (x : Region) : (s.setRegion r x).pwr = s.pwr := by cases s; rfl
@[simp] theorem resetEnd_setRegion (s : State) (r : Nat) (x : Region) : (s.setRegion r x).resetEnd = s.resetEnd := by cases s; rfl
@[simp] theorem undef_setRegion (s : State) (r : Nat) (x : Region) : (s.setRegion r x).undef = s.undef := by cases s; rfl
@[simp] theorem deepLast_setRegion (s : State) (r : Nat) (x : Region) : (s.setRegion r x).deepLast = s.deepLast := by cases s; rfl
@[simp] theorem blocks_setRegion (s : State) (r : Nat) (x : Region) : (s.setRegion r x).blocks = s.blocks := by cases s; rfl
@[simp] theorem ledger_setRegion (s : State) (r : Nat) (x : Region) : (s.setRegion r x).ledger = s.ledger := by cases s; rfl
@[simp] theorem bist_setRegion (s : State) (r : Nat) (x : Region) : (s.setRegion r x).bist = s.bist := by cases s; rfl
@[simp] theorem store_setRegion (s : State) (r : Nat) (x : Region) : (s.setRegion r x).store = s.store := by cases s; rfl
@[simp] theorem life_setRegion (s : State) (r : Nat) (x : Region) : (s.setRegion r x).life = s.life := by cases s; rfl
@[simp] theorem jtag_setRegion (s : State) (r : Nat) (x : Region) : (s.setRegion r x).jtag = s.jtag := by cases s; rfl
@[simp] theorem protos_setRegion (s : State) (r : Nat) (x : Region) : (s.setRegion r x).protos = s.protos := by cases s; rfl
@[simp] theorem lanes_setRegion (s : State) (r : Nat) (x : Region) : (s.setRegion r x).lanes = s.lanes := by cases s; rfl

@[simp] theorem now_setDq (s : State) (q : Nat) (x : DQueue) : (s.setDq q x).now = s.now := by cases s; rfl
@[simp] theorem pending_setDq (s : State) (q : Nat) (x : DQueue) : (s.setDq q x).pending = s.pending := by cases s; rfl
@[simp] theorem out_setDq (s : State) (q : Nat) (x : DQueue) : (s.setDq q x).out = s.out := by cases s; rfl
@[simp] theorem rdata_setDq (s : State) (q : Nat) (x : DQueue) : (s.setDq q x).rdata = s.rdata := by cases s; rfl
@[simp] theorem resp_setDq (s : State) (q : Nat) (x : DQueue) : (s.setDq q x).resp = s.resp := by cases s; rfl
@[simp] theorem free_setDq (s : State) (q : Nat) (x : DQueue) : (s.setDq q x).free = s.free := by cases s; rfl
@[simp] theorem regs_setDq (s : State) (q : Nat) (x : DQueue) : (s.setDq q x).regs = s.regs := by cases s; rfl
@[simp] theorem checks_setDq (s : State) (q : Nat) (x : DQueue) : (s.setDq q x).checks = s.checks := by cases s; rfl
@[simp] theorem offs_setDq (s : State) (q : Nat) (x : DQueue) : (s.setDq q x).offs = s.offs := by cases s; rfl
@[simp] theorem lagged_setDq (s : State) (q : Nat) (x : DQueue) : (s.setDq q x).lagged = s.lagged := by cases s; rfl
@[simp] theorem taken_setDq (s : State) (q : Nat) (x : DQueue) : (s.setDq q x).taken = s.taken := by cases s; rfl
@[simp] theorem mem_setDq (s : State) (q : Nat) (x : DQueue) : (s.setDq q x).mem = s.mem := by cases s; rfl
@[simp] theorem doms_setDq (s : State) (q : Nat) (x : DQueue) : (s.setDq q x).doms = s.doms := by cases s; rfl
@[simp] theorem ctr_setDq (s : State) (q : Nat) (x : DQueue) : (s.setDq q x).ctr = s.ctr := by cases s; rfl
@[simp] theorem lat_setDq (s : State) (q : Nat) (x : DQueue) : (s.setDq q x).lat = s.lat := by cases s; rfl
@[simp] theorem ep_setDq (s : State) (q : Nat) (x : DQueue) : (s.setDq q x).ep = s.ep := by cases s; rfl
@[simp] theorem pins_setDq (s : State) (q : Nat) (x : DQueue) : (s.setDq q x).pins = s.pins := by cases s; rfl
@[simp] theorem groups_setDq (s : State) (q : Nat) (x : DQueue) : (s.setDq q x).groups = s.groups := by cases s; rfl
@[simp] theorem anas_setDq (s : State) (q : Nat) (x : DQueue) : (s.setDq q x).anas = s.anas := by cases s; rfl
@[simp] theorem tsets_setDq (s : State) (q : Nat) (x : DQueue) : (s.setDq q x).tsets = s.tsets := by cases s; rfl
@[simp] theorem trims_setDq (s : State) (q : Nat) (x : DQueue) : (s.setDq q x).trims = s.trims := by cases s; rfl
@[simp] theorem seqs_setDq (s : State) (q : Nat) (x : DQueue) : (s.setDq q x).seqs = s.seqs := by cases s; rfl
@[simp] theorem xips_setDq (s : State) (q : Nat) (x : DQueue) : (s.setDq q x).xips = s.xips := by cases s; rfl
@[simp] theorem pwr_setDq (s : State) (q : Nat) (x : DQueue) : (s.setDq q x).pwr = s.pwr := by cases s; rfl
@[simp] theorem resetEnd_setDq (s : State) (q : Nat) (x : DQueue) : (s.setDq q x).resetEnd = s.resetEnd := by cases s; rfl
@[simp] theorem regions_setDq (s : State) (q : Nat) (x : DQueue) : (s.setDq q x).regions = s.regions := by cases s; rfl
@[simp] theorem undef_setDq (s : State) (q : Nat) (x : DQueue) : (s.setDq q x).undef = s.undef := by cases s; rfl
@[simp] theorem deepLast_setDq (s : State) (q : Nat) (x : DQueue) : (s.setDq q x).deepLast = s.deepLast := by cases s; rfl
@[simp] theorem blocks_setDq (s : State) (q : Nat) (x : DQueue) : (s.setDq q x).blocks = s.blocks := by cases s; rfl
@[simp] theorem ledger_setDq (s : State) (q : Nat) (x : DQueue) : (s.setDq q x).ledger = s.ledger := by cases s; rfl
@[simp] theorem bist_setDq (s : State) (q : Nat) (x : DQueue) : (s.setDq q x).bist = s.bist := by cases s; rfl
@[simp] theorem life_setDq (s : State) (q : Nat) (x : DQueue) : (s.setDq q x).life = s.life := by cases s; rfl
@[simp] theorem jtag_setDq (s : State) (q : Nat) (x : DQueue) : (s.setDq q x).jtag = s.jtag := by cases s; rfl
@[simp] theorem protos_setDq (s : State) (q : Nat) (x : DQueue) : (s.setDq q x).protos = s.protos := by cases s; rfl
@[simp] theorem lanes_setDq (s : State) (q : Nat) (x : DQueue) : (s.setDq q x).lanes = s.lanes := by cases s; rfl

@[simp] theorem now_setProto (s : State) (p : Nat) (x : Proto) : (s.setProto p x).now = s.now := by cases s; rfl
@[simp] theorem pending_setProto (s : State) (p : Nat) (x : Proto) : (s.setProto p x).pending = s.pending := by cases s; rfl
@[simp] theorem out_setProto (s : State) (p : Nat) (x : Proto) : (s.setProto p x).out = s.out := by cases s; rfl
@[simp] theorem rdata_setProto (s : State) (p : Nat) (x : Proto) : (s.setProto p x).rdata = s.rdata := by cases s; rfl
@[simp] theorem resp_setProto (s : State) (p : Nat) (x : Proto) : (s.setProto p x).resp = s.resp := by cases s; rfl
@[simp] theorem free_setProto (s : State) (p : Nat) (x : Proto) : (s.setProto p x).free = s.free := by cases s; rfl
@[simp] theorem regs_setProto (s : State) (p : Nat) (x : Proto) : (s.setProto p x).regs = s.regs := by cases s; rfl
@[simp] theorem checks_setProto (s : State) (p : Nat) (x : Proto) : (s.setProto p x).checks = s.checks := by cases s; rfl
@[simp] theorem offs_setProto (s : State) (p : Nat) (x : Proto) : (s.setProto p x).offs = s.offs := by cases s; rfl
@[simp] theorem lagged_setProto (s : State) (p : Nat) (x : Proto) : (s.setProto p x).lagged = s.lagged := by cases s; rfl
@[simp] theorem taken_setProto (s : State) (p : Nat) (x : Proto) : (s.setProto p x).taken = s.taken := by cases s; rfl
@[simp] theorem mem_setProto (s : State) (p : Nat) (x : Proto) : (s.setProto p x).mem = s.mem := by cases s; rfl
@[simp] theorem doms_setProto (s : State) (p : Nat) (x : Proto) : (s.setProto p x).doms = s.doms := by cases s; rfl
@[simp] theorem ctr_setProto (s : State) (p : Nat) (x : Proto) : (s.setProto p x).ctr = s.ctr := by cases s; rfl
@[simp] theorem lat_setProto (s : State) (p : Nat) (x : Proto) : (s.setProto p x).lat = s.lat := by cases s; rfl
@[simp] theorem ep_setProto (s : State) (p : Nat) (x : Proto) : (s.setProto p x).ep = s.ep := by cases s; rfl
@[simp] theorem pins_setProto (s : State) (p : Nat) (x : Proto) : (s.setProto p x).pins = s.pins := by cases s; rfl
@[simp] theorem groups_setProto (s : State) (p : Nat) (x : Proto) : (s.setProto p x).groups = s.groups := by cases s; rfl
@[simp] theorem anas_setProto (s : State) (p : Nat) (x : Proto) : (s.setProto p x).anas = s.anas := by cases s; rfl
@[simp] theorem tsets_setProto (s : State) (p : Nat) (x : Proto) : (s.setProto p x).tsets = s.tsets := by cases s; rfl
@[simp] theorem trims_setProto (s : State) (p : Nat) (x : Proto) : (s.setProto p x).trims = s.trims := by cases s; rfl
@[simp] theorem seqs_setProto (s : State) (p : Nat) (x : Proto) : (s.setProto p x).seqs = s.seqs := by cases s; rfl
@[simp] theorem xips_setProto (s : State) (p : Nat) (x : Proto) : (s.setProto p x).xips = s.xips := by cases s; rfl
@[simp] theorem pwr_setProto (s : State) (p : Nat) (x : Proto) : (s.setProto p x).pwr = s.pwr := by cases s; rfl
@[simp] theorem resetEnd_setProto (s : State) (p : Nat) (x : Proto) : (s.setProto p x).resetEnd = s.resetEnd := by cases s; rfl
@[simp] theorem regions_setProto (s : State) (p : Nat) (x : Proto) : (s.setProto p x).regions = s.regions := by cases s; rfl
@[simp] theorem undef_setProto (s : State) (p : Nat) (x : Proto) : (s.setProto p x).undef = s.undef := by cases s; rfl
@[simp] theorem deepLast_setProto (s : State) (p : Nat) (x : Proto) : (s.setProto p x).deepLast = s.deepLast := by cases s; rfl
@[simp] theorem blocks_setProto (s : State) (p : Nat) (x : Proto) : (s.setProto p x).blocks = s.blocks := by cases s; rfl
@[simp] theorem ledger_setProto (s : State) (p : Nat) (x : Proto) : (s.setProto p x).ledger = s.ledger := by cases s; rfl
@[simp] theorem bist_setProto (s : State) (p : Nat) (x : Proto) : (s.setProto p x).bist = s.bist := by cases s; rfl
@[simp] theorem store_setProto (s : State) (p : Nat) (x : Proto) : (s.setProto p x).store = s.store := by cases s; rfl
@[simp] theorem life_setProto (s : State) (p : Nat) (x : Proto) : (s.setProto p x).life = s.life := by cases s; rfl
@[simp] theorem jtag_setProto (s : State) (p : Nat) (x : Proto) : (s.setProto p x).jtag = s.jtag := by cases s; rfl
@[simp] theorem lanes_setProto (s : State) (p : Nat) (x : Proto) : (s.setProto p x).lanes = s.lanes := by cases s; rfl

@[simp] theorem now_setLane (s : State) (k : Nat) (x : Lane) : (s.setLane k x).now = s.now := by cases s; rfl
@[simp] theorem pending_setLane (s : State) (k : Nat) (x : Lane) : (s.setLane k x).pending = s.pending := by cases s; rfl
@[simp] theorem out_setLane (s : State) (k : Nat) (x : Lane) : (s.setLane k x).out = s.out := by cases s; rfl
@[simp] theorem rdata_setLane (s : State) (k : Nat) (x : Lane) : (s.setLane k x).rdata = s.rdata := by cases s; rfl
@[simp] theorem resp_setLane (s : State) (k : Nat) (x : Lane) : (s.setLane k x).resp = s.resp := by cases s; rfl
@[simp] theorem free_setLane (s : State) (k : Nat) (x : Lane) : (s.setLane k x).free = s.free := by cases s; rfl
@[simp] theorem regs_setLane (s : State) (k : Nat) (x : Lane) : (s.setLane k x).regs = s.regs := by cases s; rfl
@[simp] theorem checks_setLane (s : State) (k : Nat) (x : Lane) : (s.setLane k x).checks = s.checks := by cases s; rfl
@[simp] theorem offs_setLane (s : State) (k : Nat) (x : Lane) : (s.setLane k x).offs = s.offs := by cases s; rfl
@[simp] theorem lagged_setLane (s : State) (k : Nat) (x : Lane) : (s.setLane k x).lagged = s.lagged := by cases s; rfl
@[simp] theorem taken_setLane (s : State) (k : Nat) (x : Lane) : (s.setLane k x).taken = s.taken := by cases s; rfl
@[simp] theorem mem_setLane (s : State) (k : Nat) (x : Lane) : (s.setLane k x).mem = s.mem := by cases s; rfl
@[simp] theorem doms_setLane (s : State) (k : Nat) (x : Lane) : (s.setLane k x).doms = s.doms := by cases s; rfl
@[simp] theorem ctr_setLane (s : State) (k : Nat) (x : Lane) : (s.setLane k x).ctr = s.ctr := by cases s; rfl
@[simp] theorem lat_setLane (s : State) (k : Nat) (x : Lane) : (s.setLane k x).lat = s.lat := by cases s; rfl
@[simp] theorem ep_setLane (s : State) (k : Nat) (x : Lane) : (s.setLane k x).ep = s.ep := by cases s; rfl
@[simp] theorem pins_setLane (s : State) (k : Nat) (x : Lane) : (s.setLane k x).pins = s.pins := by cases s; rfl
@[simp] theorem groups_setLane (s : State) (k : Nat) (x : Lane) : (s.setLane k x).groups = s.groups := by cases s; rfl
@[simp] theorem anas_setLane (s : State) (k : Nat) (x : Lane) : (s.setLane k x).anas = s.anas := by cases s; rfl
@[simp] theorem tsets_setLane (s : State) (k : Nat) (x : Lane) : (s.setLane k x).tsets = s.tsets := by cases s; rfl
@[simp] theorem trims_setLane (s : State) (k : Nat) (x : Lane) : (s.setLane k x).trims = s.trims := by cases s; rfl
@[simp] theorem seqs_setLane (s : State) (k : Nat) (x : Lane) : (s.setLane k x).seqs = s.seqs := by cases s; rfl
@[simp] theorem xips_setLane (s : State) (k : Nat) (x : Lane) : (s.setLane k x).xips = s.xips := by cases s; rfl
@[simp] theorem pwr_setLane (s : State) (k : Nat) (x : Lane) : (s.setLane k x).pwr = s.pwr := by cases s; rfl
@[simp] theorem resetEnd_setLane (s : State) (k : Nat) (x : Lane) : (s.setLane k x).resetEnd = s.resetEnd := by cases s; rfl
@[simp] theorem regions_setLane (s : State) (k : Nat) (x : Lane) : (s.setLane k x).regions = s.regions := by cases s; rfl
@[simp] theorem undef_setLane (s : State) (k : Nat) (x : Lane) : (s.setLane k x).undef = s.undef := by cases s; rfl
@[simp] theorem deepLast_setLane (s : State) (k : Nat) (x : Lane) : (s.setLane k x).deepLast = s.deepLast := by cases s; rfl
@[simp] theorem blocks_setLane (s : State) (k : Nat) (x : Lane) : (s.setLane k x).blocks = s.blocks := by cases s; rfl
@[simp] theorem ledger_setLane (s : State) (k : Nat) (x : Lane) : (s.setLane k x).ledger = s.ledger := by cases s; rfl
@[simp] theorem bist_setLane (s : State) (k : Nat) (x : Lane) : (s.setLane k x).bist = s.bist := by cases s; rfl
@[simp] theorem store_setLane (s : State) (k : Nat) (x : Lane) : (s.setLane k x).store = s.store := by cases s; rfl
@[simp] theorem life_setLane (s : State) (k : Nat) (x : Lane) : (s.setLane k x).life = s.life := by cases s; rfl
@[simp] theorem jtag_setLane (s : State) (k : Nat) (x : Lane) : (s.setLane k x).jtag = s.jtag := by cases s; rfl
@[simp] theorem protos_setLane (s : State) (k : Nat) (x : Lane) : (s.setLane k x).protos = s.protos := by cases s; rfl


@[simp] theorem now_take (s : State) (key per rank : Nat) : (s.take key per rank).now = s.now := rfl
@[simp] theorem pending_take (s : State) (key per rank : Nat) : (s.take key per rank).pending = s.pending := rfl
@[simp] theorem out_take (s : State) (key per rank : Nat) : (s.take key per rank).out = s.out := rfl
@[simp] theorem rdata_take (s : State) (key per rank : Nat) : (s.take key per rank).rdata = s.rdata := rfl
@[simp] theorem resp_take (s : State) (key per rank : Nat) : (s.take key per rank).resp = s.resp := rfl
@[simp] theorem free_take (s : State) (key per rank : Nat) : (s.take key per rank).free = s.free := rfl
@[simp] theorem checks_take (s : State) (key per rank : Nat) : (s.take key per rank).checks = s.checks := rfl
@[simp] theorem offs_take (s : State) (key per rank : Nat) : (s.take key per rank).offs = s.offs := rfl
@[simp] theorem lagged_take (s : State) (key per rank : Nat) : (s.take key per rank).lagged = s.lagged := rfl
@[simp] theorem mem_take (s : State) (key per rank : Nat) : (s.take key per rank).mem = s.mem := rfl
@[simp] theorem doms_take (s : State) (key per rank : Nat) : (s.take key per rank).doms = s.doms := rfl
@[simp] theorem ctr_take (s : State) (key per rank : Nat) : (s.take key per rank).ctr = s.ctr := rfl
@[simp] theorem lat_take (s : State) (key per rank : Nat) : (s.take key per rank).lat = s.lat := rfl
@[simp] theorem ep_take (s : State) (key per rank : Nat) : (s.take key per rank).ep = s.ep := rfl
@[simp] theorem pins_take (s : State) (key per rank : Nat) : (s.take key per rank).pins = s.pins := rfl
@[simp] theorem groups_take (s : State) (key per rank : Nat) : (s.take key per rank).groups = s.groups := rfl
@[simp] theorem anas_take (s : State) (key per rank : Nat) : (s.take key per rank).anas = s.anas := rfl
@[simp] theorem tsets_take (s : State) (key per rank : Nat) : (s.take key per rank).tsets = s.tsets := rfl
@[simp] theorem trims_take (s : State) (key per rank : Nat) : (s.take key per rank).trims = s.trims := rfl
@[simp] theorem seqs_take (s : State) (key per rank : Nat) : (s.take key per rank).seqs = s.seqs := rfl
@[simp] theorem xips_take (s : State) (key per rank : Nat) : (s.take key per rank).xips = s.xips := rfl
@[simp] theorem pwr_take (s : State) (key per rank : Nat) : (s.take key per rank).pwr = s.pwr := rfl
@[simp] theorem resetEnd_take (s : State) (key per rank : Nat) : (s.take key per rank).resetEnd = s.resetEnd := rfl
@[simp] theorem regions_take (s : State) (key per rank : Nat) : (s.take key per rank).regions = s.regions := rfl
@[simp] theorem undef_take (s : State) (key per rank : Nat) : (s.take key per rank).undef = s.undef := rfl
@[simp] theorem deepLast_take (s : State) (key per rank : Nat) : (s.take key per rank).deepLast = s.deepLast := rfl
@[simp] theorem blocks_take (s : State) (key per rank : Nat) : (s.take key per rank).blocks = s.blocks := rfl
@[simp] theorem ledger_take (s : State) (key per rank : Nat) : (s.take key per rank).ledger = s.ledger := rfl
@[simp] theorem bist_take (s : State) (key per rank : Nat) : (s.take key per rank).bist = s.bist := rfl
@[simp] theorem store_take (s : State) (key per rank : Nat) : (s.take key per rank).store = s.store := rfl
@[simp] theorem life_take (s : State) (key per rank : Nat) : (s.take key per rank).life = s.life := rfl
@[simp] theorem jtag_take (s : State) (key per rank : Nat) : (s.take key per rank).jtag = s.jtag := rfl
@[simp] theorem protos_take (s : State) (key per rank : Nat) : (s.take key per rank).protos = s.protos := rfl
@[simp] theorem lanes_take (s : State) (key per rank : Nat) : (s.take key per rank).lanes = s.lanes := rfl
@[simp] theorem regs_take (s : State) (key per rank : Nat) : (s.take key per rank).regs = s.regs := rfl

end Sys2Proof.Machine.State
end

