-- ==== Sys2Proof/Laws/Ops.lean ====
section
/-! SUPPORT. Laws/Ops.lean: the laws of the shared operations: keyed tables, bit fields, registers, memory in its
canonical form, and `run`, the shape of every command. -/
namespace Sys2Proof.Machine

/-! ### Tables -/

section Tables
variable {α : Type}

theorem tabGet_tabPut (d : α) (m : List (Nat × α)) (a b : Nat) (v : α) :
    tabGet d (tabPut m a v) b = if b = a then v else tabGet d m b := by
  induction m with
  | nil => simp [tabPut, tabGet]
  | cons e r ih =>
    obtain ⟨k, w⟩ := e
    unfold tabPut
    by_cases h1 : a < k
    · simp [h1, tabGet]
    · by_cases h2 : a = k
      · subst h2; by_cases h3 : b = a <;> simp [tabGet, h3]
      · simp only [h1, h2, if_false, tabGet, ih]
        by_cases h3 : b = k
        · subst h3; simp [Ne.symm h2]
        · simp [h3]

theorem tabGet_tabDel (d : α) (m : List (Nat × α)) (a b : Nat) :
    tabGet d (tabDel m a) b = if b = a then d else tabGet d m b := by
  induction m with
  | nil => simp [tabDel, tabGet]
  | cons e r ih =>
    obtain ⟨k, w⟩ := e
    unfold tabDel at *
    by_cases h : k = a
    · subst h; by_cases h2 : b = k <;> simp_all [tabGet]
    · simp only [List.filter_cons, bne_iff_ne, ne_eq, h, not_false_eq_true, if_true, tabGet, ih]
      by_cases h2 : b = k
      · subst h2; simp [h]
      · simp [h2]

/-- A table read after a canonical write: the value written at its key, every other key as before. -/
theorem tabGet_tabSet [DecidableEq α] (d : α) (m : List (Nat × α)) (a b : Nat) (v : α) :
    tabGet d (tabSet d m a v) b = if b = a then v else tabGet d m b := by
  unfold tabSet
  by_cases h : v = d
  · subst h; simp [tabGet_tabDel]
  · simp [h, tabGet_tabPut]

theorem tabSet_get [DecidableEq α] (d : α) (m : List (Nat × α)) (a : Nat) (v : α) :
    tabGet d (tabSet d m a v) a = v := by simp [tabGet_tabSet]

/-! ### Canonical form -/

theorem keysRise_tail {a : Nat × α} {r : List (Nat × α)} (h : keysRise (a :: r) = true) : keysRise r = true := by
  cases r with
  | nil => rfl
  | cons b r => simp [keysRise] at h; exact h.2

/-- Every key of a rising table behind its first is above the first. -/
theorem keysRise_lt {k : Nat} {v : α} {r : List (Nat × α)} (h : keysRise ((k, v) :: r) = true) :
    ∀ e ∈ r, k < e.1 := by
  induction r generalizing k v with
  | nil => simp
  | cons b r ih =>
    obtain ⟨kb, vb⟩ := b
    simp [keysRise] at h
    intro e he
    rcases List.mem_cons.mp he with rfl | he
    · exact h.1
    · exact Nat.lt_trans h.1 (ih h.2 e he)

theorem keysRise_cons {k : Nat} {v : α} {r : List (Nat × α)} (h1 : ∀ e ∈ r, k < e.1) (h2 : keysRise r = true) :
    keysRise ((k, v) :: r) = true := by
  cases r with
  | nil => rfl
  | cons b r => simp [keysRise, h2, h1 b (by simp)]

theorem mem_tabPut {m : List (Nat × α)} {a : Nat} {v : α} {e : Nat × α} (h : e ∈ tabPut m a v) :
    e = (a, v) ∨ e ∈ m := by
  induction m with
  | nil => simpa [tabPut] using h
  | cons b r ih =>
    obtain ⟨k, w⟩ := b
    unfold tabPut at h
    split at h
    · simpa using h
    · split at h
      · rcases List.mem_cons.mp h with h | h
        · exact .inl h
        · exact .inr (List.mem_cons_of_mem _ h)
      · rcases List.mem_cons.mp h with h | h
        · exact .inr (by simp [h])
        · rcases ih h with h | h
          · exact .inl h
          · exact .inr (List.mem_cons_of_mem _ h)

theorem keysRise_tabPut {m : List (Nat × α)} (h : keysRise m = true) (a : Nat) (v : α) :
    keysRise (tabPut m a v) = true := by
  induction m with
  | nil => rfl
  | cons b r ih =>
    obtain ⟨k, w⟩ := b
    unfold tabPut
    split
    · rename_i hk; simp [keysRise, h, hk]
    · split
      · rename_i h2; subst h2
        exact keysRise_cons (keysRise_lt h) (keysRise_tail h)
      · rename_i h1 h2
        refine keysRise_cons ?_ (ih (keysRise_tail h))
        intro e he
        rcases mem_tabPut he with rfl | he
        · simp; omega
        · exact keysRise_lt h e he

theorem keysRise_filter {m : List (Nat × α)} (h : keysRise m = true) (p : Nat × α → Bool) :
    keysRise (m.filter p) = true := by
  induction m with
  | nil => rfl
  | cons b r ih =>
    obtain ⟨k, w⟩ := b
    by_cases hp : p (k, w) = true
    · rw [List.filter_cons_of_pos hp]
      exact keysRise_cons (fun e he => keysRise_lt h e (List.mem_filter.mp he).1) (ih (keysRise_tail h))
    · rw [List.filter_cons_of_neg hp]; exact ih (keysRise_tail h)

end Tables

/-! ### Memory -/

theorem Memory.wf_nil : Memory.wf [] = true := rfl

theorem Memory.wf_filter {m : List Host.Cell} (h : Memory.wf m = true) (p : Host.Cell → Bool) :
    Memory.wf (m.filter p) = true := by
  simp only [Memory.wf, Bool.and_eq_true, List.all_eq_true] at *
  exact ⟨keysRise_filter h.1 p, fun c hc => h.2 c (List.mem_filter.mp hc).1⟩

/-- Writing one byte keeps the canonical form. -/
theorem Memory.wf_memPut {m : List Host.Cell} (h : Memory.wf m = true) (a : Nat) (b : Byte) :
    Memory.wf (memPut m a b) = true := by
  unfold memPut tabSet
  split
  · exact Memory.wf_filter h _
  · rename_i hb
    simp only [Memory.wf, Bool.and_eq_true, List.all_eq_true] at *
    refine ⟨keysRise_tabPut h.1 a b, fun c hc => ?_⟩
    rcases mem_tabPut hc with rfl | hc
    · simpa using hb
    · exact h.2 c hc

/-- Writing consecutive bytes keeps the canonical form. -/
theorem Memory.wf_memPuts {m : List Host.Cell} (h : Memory.wf m = true) (a : Nat) (bs : List Byte) :
    Memory.wf (memPuts m a bs) = true := by
  induction bs generalizing m a with
  | nil => exact h
  | cons b r ih => exact ih (Memory.wf_memPut h a b) (a + 1)

/-- Wiping a range keeps the canonical form. -/
theorem Memory.wf_memWipe {m : List Host.Cell} (h : Memory.wf m = true) (a n : Nat) :
    Memory.wf (memWipe m a n) = true := Memory.wf_filter h _

theorem memByte_memPut (m : List Host.Cell) (a b : Nat) (v : Byte) :
    memByte (memPut m a v) b = if b = a then v else memByte m b := tabGet_tabSet _ _ _ _ _

/-- Bytes outside the range written read as before. -/
theorem memByte_memPuts_out (m : List Host.Cell) (a : Nat) (bs : List Byte) (b : Nat)
    (h : b < a ∨ a + bs.length ≤ b) : memByte (memPuts m a bs) b = memByte m b := by
  induction bs generalizing m a with
  | nil => rfl
  | cons x r ih =>
    simp only [List.length_cons] at h
    rw [memPuts, ih _ _ (by omega), memByte_memPut, if_neg (by omega)]

/-- Bytes inside the range read what was written. -/
theorem memByte_memPuts_in (m : List Host.Cell) (a : Nat) (bs : List Byte) (i : Nat) (h : i < bs.length) :
    memByte (memPuts m a bs) (a + i) = bs.getD i 0 := by
  induction bs generalizing m a i with
  | nil => simp at h
  | cons x r ih =>
    cases i with
    | zero =>
      rw [memPuts, memByte_memPuts_out _ _ _ _ (by omega), memByte_memPut]; simp
    | succ j =>
      have : a + (j + 1) = (a + 1) + j := by omega
      rw [memPuts, this, ih _ _ _ (by simpa using h)]; simp

/-! ### Bit fields -/

theorem bits_lt (x hi lo : Nat) : bits x hi lo < 2 ^ (hi + 1 - lo) := Nat.mod_lt _ (Nat.two_pow_pos _)

theorem testBit_bits (x hi lo i : Nat) :
    (bits x hi lo).testBit i = (decide (i < hi + 1 - lo) && x.testBit (lo + i)) := by
  unfold bits
  rw [Nat.testBit_mod_two_pow, Nat.testBit_div_two_pow, Nat.add_comm i lo]

theorem putBits_eq (x hi lo v : Nat) :
    putBits x hi lo v = x / 2 ^ (hi + 1 - lo + lo) * 2 ^ (hi + 1 - lo + lo) + (v % 2 ^ (hi + 1 - lo)) * 2 ^ lo + x % 2 ^ lo := by
  unfold putBits bits
  generalize hi + 1 - lo = n
  have e1 : x = x / 2 ^ lo * 2 ^ lo + x % 2 ^ lo := by rw [Nat.mul_comm]; exact (Nat.div_add_mod x (2 ^ lo)).symm
  have e2 : x / 2 ^ lo = x / 2 ^ lo / 2 ^ n * 2 ^ n + x / 2 ^ lo % 2 ^ n := by
    rw [Nat.mul_comm]; exact (Nat.div_add_mod _ _).symm
  have e3 : x / 2 ^ lo / 2 ^ n = x / 2 ^ (n + lo) := by rw [Nat.div_div_eq_div_mul, ← Nat.pow_add, Nat.add_comm]
  have e4 : x / 2 ^ lo * 2 ^ lo = x / 2 ^ (n + lo) * 2 ^ (n + lo) + x / 2 ^ lo % 2 ^ n * 2 ^ lo := by
    have e5 := congrArg (· * 2 ^ lo) e2
    simp only [e3, Nat.add_mul, Nat.mul_assoc, ← Nat.pow_add] at e5
    simpa [Nat.mul_assoc] using e5
  omega

/-- A field written reads the value written, modulo its width. -/
theorem fld_setFld (w : Word) (hi lo v : Nat) (h : hi < 32) (h2 : lo ≤ hi) :
    fld (setFld w hi lo v) hi lo = v % 2 ^ (hi + 1 - lo) := by
  unfold fld setFld
  rw [BitVec.toNat_ofNat, putBits_eq]
  unfold bits
  have hn : hi + 1 - lo + lo = hi + 1 := by omega
  rw [hn]
  generalize hm : w.toNat = x
  have hx : x < 2 ^ 32 := by rw [← hm]; exact w.isLt
  apply Nat.eq_of_testBit_eq
  intro i
  rw [Nat.testBit_mod_two_pow, Nat.testBit_div_two_pow, Nat.testBit_mod_two_pow, Nat.testBit_mod_two_pow]
  by_cases hi' : i < hi + 1 - lo
  · have h32 : i + lo < 32 := by omega
    have hlt : v % 2 ^ (hi + 1 - lo) * 2 ^ lo + x % 2 ^ lo < 2 ^ (hi + 1) := by
      have a1 : v % 2 ^ (hi + 1 - lo) < 2 ^ (hi + 1 - lo) := Nat.mod_lt _ (Nat.two_pow_pos _)
      have a2 : x % 2 ^ lo < 2 ^ lo := Nat.mod_lt _ (Nat.two_pow_pos _)
      have a3 : 2 ^ (hi + 1) = 2 ^ (hi + 1 - lo) * 2 ^ lo := by rw [← Nat.pow_add, hn]
      calc _ < v % 2 ^ (hi + 1 - lo) * 2 ^ lo + 2 ^ lo := by omega
        _ = (v % 2 ^ (hi + 1 - lo) + 1) * 2 ^ lo := by rw [Nat.add_mul, Nat.one_mul]
        _ ≤ 2 ^ (hi + 1 - lo) * 2 ^ lo := Nat.mul_le_mul_right _ a1
        _ = _ := a3.symm
    simp only [h32, hi', decide_true, Bool.true_and]
    rw [Nat.add_assoc, Nat.mul_comm (x / _), Nat.testBit_two_pow_mul_add _ hlt, if_pos (by omega),
      Nat.mul_comm (v % _), Nat.testBit_two_pow_mul_add _ (Nat.mod_lt _ (Nat.two_pow_pos _)), if_neg (by omega),
      Nat.testBit_mod_two_pow]
    simp [hi']
  · simp [hi']

theorem b2n_if (b : Bool) : (if b then 1 else 0) = b2n b := rfl

/-- A bit written reads the value written. -/
@[simp] theorem bit_setBit (w : Word) (n : Nat) (b : Bool) (h : n < 32) : bit (setBit w n b) n = b := by
  have e := fld_setFld w n n (if b then 1 else 0) h (Nat.le_refl n)
  have hn : n + 1 - n = 1 := by omega
  rw [hn] at e
  unfold fld bits at e
  rw [hn] at e
  unfold bit setBit
  rw [BitVec.getLsbD, Nat.testBit_eq_decide_div_mod_eq]
  simp only [Nat.pow_one] at e
  rw [e]
  cases b <;> rfl

/-- Every bit of a word after a field of it was written. -/
theorem getLsbD_setFld (w : Word) (hi lo v i : Nat) (h : lo ≤ hi) (h2 : hi < 32) : (setFld w hi lo v).getLsbD i =
    if i < lo then w.getLsbD i else if i ≤ hi then v.testBit (i - lo) else w.getLsbD i := by
  unfold setFld
  rw [BitVec.getLsbD_ofNat, putBits_eq]
  have hn : hi + 1 - lo + lo = hi + 1 := by omega
  have hlt : v % 2 ^ (hi + 1 - lo) * 2 ^ lo + w.toNat % 2 ^ lo < 2 ^ (hi + 1) := by
    have a1 : v % 2 ^ (hi + 1 - lo) < 2 ^ (hi + 1 - lo) := Nat.mod_lt _ (Nat.two_pow_pos _)
    have a2 : w.toNat % 2 ^ lo < 2 ^ lo := Nat.mod_lt _ (Nat.two_pow_pos _)
    have a3 : 2 ^ (hi + 1) = 2 ^ (hi + 1 - lo) * 2 ^ lo := by rw [← Nat.pow_add, hn]
    calc _ < v % 2 ^ (hi + 1 - lo) * 2 ^ lo + 2 ^ lo := by omega
      _ = (v % 2 ^ (hi + 1 - lo) + 1) * 2 ^ lo := by rw [Nat.add_mul, Nat.one_mul]
      _ ≤ 2 ^ (hi + 1 - lo) * 2 ^ lo := Nat.mul_le_mul_right _ a1
      _ = _ := a3.symm
  rw [hn, Nat.add_assoc, Nat.mul_comm (_ / _), Nat.testBit_two_pow_mul_add _ hlt, Nat.mul_comm (v % _),
    Nat.testBit_two_pow_mul_add _ (Nat.mod_lt _ (Nat.two_pow_pos _)), Nat.testBit_mod_two_pow, Nat.testBit_mod_two_pow,
    Nat.testBit_div_two_pow]
  by_cases c1 : i < lo
  · simp [c1, show i < hi + 1 by omega, show i < 32 by omega, BitVec.testBit_toNat]
  · by_cases c2 : i ≤ hi
    · simp [c1, c2, show i < hi + 1 by omega, show i < 32 by omega, show i - lo < hi + 1 - lo by omega]
    · rw [if_neg c1, if_neg c2, if_neg (by omega)]
      rw [show i - (hi + 1) + (hi + 1) = i by omega, BitVec.testBit_toNat]
      by_cases c3 : i < 32
      · simp [c3]
      · simp [c3, BitVec.getLsbD_of_ge w i (by omega)]

/-- A field does not see another that lies apart. -/
@[simp] theorem fld_setFld_ne (w : Word) (hi lo v hi2 lo2 : Nat) (h : lo ≤ hi) (h2 : hi < 32) (h3 : hi < lo2 ∨ hi2 < lo) :
    fld (setFld w hi lo v) hi2 lo2 = fld w hi2 lo2 := by
  apply Nat.eq_of_testBit_eq
  intro i
  unfold fld
  rw [testBit_bits, testBit_bits]
  by_cases c : i < hi2 + 1 - lo2
  · rw [BitVec.testBit_toNat, BitVec.testBit_toNat, getLsbD_setFld _ _ _ _ _ h h2]
    rcases h3 with h3 | h3
    · rw [if_neg (by omega), if_neg (by omega)]
    · rw [if_pos (by omega)]
  · simp [c]

/-- A bit does not see a field that it lies outside of. -/
@[simp] theorem bit_setFld_ne (w : Word) (hi lo v n : Nat) (h : lo ≤ hi) (h2 : hi < 32) (h3 : n < lo ∨ hi < n) :
    bit (setFld w hi lo v) n = bit w n := by
  unfold bit
  rw [getLsbD_setFld _ _ _ _ _ h h2]
  rcases h3 with h3 | h3
  · rw [if_pos h3]
  · rw [if_neg (by omega), if_neg (by omega)]

@[simp] theorem fld_setBit_ne (w : Word) (n hi lo : Nat) (b : Bool) (h : n < 32) (h2 : hi < n ∨ n < lo) :
    fld (setBit w n b) hi lo = fld w hi lo :=
  fld_setFld_ne _ _ _ _ _ _ (Nat.le_refl n) h h2.symm

@[simp] theorem bit_setBit_ne (w : Word) (n m : Nat) (b : Bool) (h : n < 32) (h2 : m ≠ n) :
    bit (setBit w n b) m = bit w m :=
  bit_setFld_ne _ _ _ _ _ (Nat.le_refl n) h (by omega)

/-! ### Registers -/

namespace State

/-- A register read after a write. -/
theorem rd_wr (s : State) (k j : Nat) (v : Word) : (s.wr k v).rd j = if j = k then v else s.rd j := by
  unfold rd wr
  by_cases h : j = k
  · subst h; simp [tabSet_get]
  · simp only [h, if_false]
    unfold tabSet
    split
    · simp [tabGet_tabDel, h]
    · simp [tabGet_tabPut, h]

@[simp] theorem rd_wr_same (s : State) (k : Nat) (v : Word) : (s.wr k v).rd k = v := by simp [rd_wr]

theorem rd_wr_ne (s : State) (k j : Nat) (v : Word) (h : j ≠ k) : (s.wr k v).rd j = s.rd j := by simp [rd_wr, h]

theorem rd_wf_ne (s : State) (k j hi lo v : Nat) (h : j ≠ k) : (s.wf k hi lo v).rd j = s.rd j := rd_wr_ne _ _ _ _ h

theorem rd_wb_ne (s : State) (k j n : Nat) (b : Bool) (h : j ≠ k) : (s.wb k n b).rd j = s.rd j := rd_wr_ne _ _ _ _ h

theorem rf_wf_same (s : State) (k hi lo v : Nat) (h : hi < 32) (h2 : lo ≤ hi) :
    (s.wf k hi lo v).rf k hi lo = v % 2 ^ (hi + 1 - lo) := by
  simp [rf, wf, fld_setFld _ _ _ _ h h2]

theorem rb_wb_same (s : State) (k n : Nat) (b : Bool) (h : n < 32) : (s.wb k n b).rb k n = b := by
  simp [rb, wb, bit_setBit _ _ _ h]

/-- What a register reads depends on the register table only. -/
theorem rd_congr {s t : State} (h : s.regs = t.regs) (k : Nat) : s.rd k = t.rd k := by unfold rd; rw [h]

theorem byte_congr {s t : State} (h : s.mem = t.mem) (a : Nat) : s.byte a = t.byte a := by unfold byte; rw [h]

end State

/-! ### The shape of a command -/

/-- Every command answers a next state: its effect at its instant. -/
theorem run_eq (t : Nat) (f : State → State) (s : State) :
    run t f s = .next ((s.upTo t).settle (f (s.upTo t))) := rfl

end Sys2Proof.Machine
end

