-- ==== Sys2Proof/Laws/Flags.lean ====
section
/-! SUPPORT. Laws/Flags.lean: everything that raising an event can do, and what a gate lets through. -/
namespace Sys2Proof.Machine
namespace State

theorem msixDue_cases (s : State) (v : Nat) : ∃ e o, s.msixDue v = { s with ep := e, out := o } := by
  unfold msixDue emit
  split <;> exact ⟨_, _, rfl⟩

/-- Everything that judging an interrupt condition can do: the endpoint's record of it, and a message. -/
theorem judge_cases (s : State) (v : Nat) (wrote : Bool) :
    ∃ e o, s.judge v wrote = { s with ep := e, out := o } := by
  unfold judge
  dsimp only
  split
  · obtain ⟨e, o, h⟩ := msixDue_cases
      ({ s with ep := { s.ep with conds := tabSet false s.ep.conds v (s.cond v) } }) v
    exact ⟨e, o, h⟩
  · exact ⟨_, _, rfl⟩

/-- Everything that raising an event can do: nothing under self-test; else its EVENT bit, its way to its counter, and
the interrupt. -/
theorem raise_cases (s : State) (p b : Nat) :
    (s.inSelftest p = true ∧ s.raise p b = s) ∨
    (s.inSelftest p = false ∧ ∃ c e o, s.raise p b = { s.wb (reg p oEvent) b true with ctr := c, ep := e, out := o }) := by
  unfold raise
  by_cases h : s.inSelftest p = true
  · exact .inl ⟨h, by simp [h]⟩
  · refine .inr ⟨by simpa using h, ?_⟩
    simp only [h]
    obtain ⟨e, o, he⟩ := judge_cases
      ({ s.wb (reg p oEvent) b true with ctr := { s.ctr with raisings := s.ctr.raisings ++ [(s.now, 16 * p + b)] } })
      (vmap { s.wb (reg p oEvent) b true with ctr := { s.ctr with raisings := s.ctr.raisings ++ [(s.now, 16 * p + b)] } } p)
      false
    exact ⟨_, e, o, he⟩

@[simp] theorem now_raise (s : State) (p b : Nat) : (s.raise p b).now = s.now := by
  rcases raise_cases s p b with ⟨_, h⟩ | ⟨_, _, _, _, h⟩ <;> rw [h] <;> rfl
@[simp] theorem now_raiseIf (s : State) (c : Bool) (p b : Nat) : (s.raiseIf c p b).now = s.now := by
  unfold raiseIf; split <;> simp
@[simp] theorem pending_raise (s : State) (p b : Nat) : (s.raise p b).pending = s.pending := by
  rcases raise_cases s p b with ⟨_, h⟩ | ⟨_, _, _, _, h⟩ <;> rw [h] <;> rfl
@[simp] theorem pending_raiseIf (s : State) (c : Bool) (p b : Nat) : (s.raiseIf c p b).pending = s.pending := by
  unfold raiseIf; split <;> simp
@[simp] theorem rdata_raise (s : State) (p b : Nat) : (s.raise p b).rdata = s.rdata := by
  rcases raise_cases s p b with ⟨_, h⟩ | ⟨_, _, _, _, h⟩ <;> rw [h] <;> rfl
@[simp] theorem rdata_raiseIf (s : State) (c : Bool) (p b : Nat) : (s.raiseIf c p b).rdata = s.rdata := by
  unfold raiseIf; split <;> simp
@[simp] theorem resp_raise (s : State) (p b : Nat) : (s.raise p b).resp = s.resp := by
  rcases raise_cases s p b with ⟨_, h⟩ | ⟨_, _, _, _, h⟩ <;> rw [h] <;> rfl
@[simp] theorem resp_raiseIf (s : State) (c : Bool) (p b : Nat) : (s.raiseIf c p b).resp = s.resp := by
  unfold raiseIf; split <;> simp
@[simp] theorem free_raise (s : State) (p b : Nat) : (s.raise p b).free = s.free := by
  rcases raise_cases s p b with ⟨_, h⟩ | ⟨_, _, _, _, h⟩ <;> rw [h] <;> rfl
@[simp] theorem free_raiseIf (s : State) (c : Bool) (p b : Nat) : (s.raiseIf c p b).free = s.free := by
  unfold raiseIf; split <;> simp
@[simp] theorem checks_raise (s : State) (p b : Nat) : (s.raise p b).checks = s.checks := by
  rcases raise_cases s p b with ⟨_, h⟩ | ⟨_, _, _, _, h⟩ <;> rw [h] <;> rfl
@[simp] theorem checks_raiseIf (s : State) (c : Bool) (p b : Nat) : (s.raiseIf c p b).checks = s.checks := by
  unfold raiseIf; split <;> simp
@[simp] theorem mem_raise (s : State) (p b : Nat) : (s.raise p b).mem = s.mem := by
  rcases raise_cases s p b with ⟨_, h⟩ | ⟨_, _, _, _, h⟩ <;> rw [h] <;> rfl
@[simp] theorem mem_raiseIf (s : State) (c : Bool) (p b : Nat) : (s.raiseIf c p b).mem = s.mem := by
  unfold raiseIf; split <;> simp
@[simp] theorem doms_raise (s : State) (p b : Nat) : (s.raise p b).doms = s.doms := by
  rcases raise_cases s p b with ⟨_, h⟩ | ⟨_, _, _, _, h⟩ <;> rw [h] <;> rfl
@[simp] theorem doms_raiseIf (s : State) (c : Bool) (p b : Nat) : (s.raiseIf c p b).doms = s.doms := by
  unfold raiseIf; split <;> simp
@[simp] theorem lat_raise (s : State) (p b : Nat) : (s.raise p b).lat = s.lat := by
  rcases raise_cases s p b with ⟨_, h⟩ | ⟨_, _, _, _, h⟩ <;> rw [h] <;> rfl
@[simp] theorem lat_raiseIf (s : State) (c : Bool) (p b : Nat) : (s.raiseIf c p b).lat = s.lat := by
  unfold raiseIf; split <;> simp
@[simp] theorem pins_raise (s : State) (p b : Nat) : (s.raise p b).pins = s.pins := by
  rcases raise_cases s p b with ⟨_, h⟩ | ⟨_, _, _, _, h⟩ <;> rw [h] <;> rfl
@[simp] theorem pins_raiseIf (s : State) (c : Bool) (p b : Nat) : (s.raiseIf c p b).pins = s.pins := by
  unfold raiseIf; split <;> simp
@[simp] theorem groups_raise (s : State) (p b : Nat) : (s.raise p b).groups = s.groups := by
  rcases raise_cases s p b with ⟨_, h⟩ | ⟨_, _, _, _, h⟩ <;> rw [h] <;> rfl
@[simp] theorem groups_raiseIf (s : State) (c : Bool) (p b : Nat) : (s.raiseIf c p b).groups = s.groups := by
  unfold raiseIf; split <;> simp
@[simp] theorem anas_raise (s : State) (p b : Nat) : (s.raise p b).anas = s.anas := by
  rcases raise_cases s p b with ⟨_, h⟩ | ⟨_, _, _, _, h⟩ <;> rw [h] <;> rfl
@[simp] theorem anas_raiseIf (s : State) (c : Bool) (p b : Nat) : (s.raiseIf c p b).anas = s.anas := by
  unfold raiseIf; split <;> simp
@[simp] theorem tsets_raise (s : State) (p b : Nat) : (s.raise p b).tsets = s.tsets := by
  rcases raise_cases s p b with ⟨_, h⟩ | ⟨_, _, _, _, h⟩ <;> rw [h] <;> rfl
@[simp] theorem tsets_raiseIf (s : State) (c : Bool) (p b : Nat) : (s.raiseIf c p b).tsets = s.tsets := by
  unfold raiseIf; split <;> simp
@[simp] theorem trims_raise (s : State) (p b : Nat) : (s.raise p b).trims = s.trims := by
  rcases raise_cases s p b with ⟨_, h⟩ | ⟨_, _, _, _, h⟩ <;> rw [h] <;> rfl
@[simp] theorem trims_raiseIf (s : State) (c : Bool) (p b : Nat) : (s.raiseIf c p b).trims = s.trims := by
  unfold raiseIf; split <;> simp
@[simp] theorem seqs_raise (s : State) (p b : Nat) : (s.raise p b).seqs = s.seqs := by
  rcases raise_cases s p b with ⟨_, h⟩ | ⟨_, _, _, _, h⟩ <;> rw [h] <;> rfl
@[simp] theorem seqs_raiseIf (s : State) (c : Bool) (p b : Nat) : (s.raiseIf c p b).seqs = s.seqs := by
  unfold raiseIf; split <;> simp
@[simp] theorem xips_raise (s : State) (p b : Nat) : (s.raise p b).xips = s.xips := by
  rcases raise_cases s p b with ⟨_, h⟩ | ⟨_, _, _, _, h⟩ <;> rw [h] <;> rfl
@[simp] theorem xips_raiseIf (s : State) (c : Bool) (p b : Nat) : (s.raiseIf c p b).xips = s.xips := by
  unfold raiseIf; split <;> simp
@[simp] theorem pwr_raise (s : State) (p b : Nat) : (s.raise p b).pwr = s.pwr := by
  rcases raise_cases s p b with ⟨_, h⟩ | ⟨_, _, _, _, h⟩ <;> rw [h] <;> rfl
@[simp] theorem pwr_raiseIf (s : State) (c : Bool) (p b : Nat) : (s.raiseIf c p b).pwr = s.pwr := by
  unfold raiseIf; split <;> simp
@[simp] theorem resetEnd_raise (s : State) (p b : Nat) : (s.raise p b).resetEnd = s.resetEnd := by
  rcases raise_cases s p b with ⟨_, h⟩ | ⟨_, _, _, _, h⟩ <;> rw [h] <;> rfl
@[simp] theorem resetEnd_raiseIf (s : State) (c : Bool) (p b : Nat) : (s.raiseIf c p b).resetEnd = s.resetEnd := by
  unfold raiseIf; split <;> simp
@[simp] theorem regions_raise (s : State) (p b : Nat) : (s.raise p b).regions = s.regions := by
  rcases raise_cases s p b with ⟨_, h⟩ | ⟨_, _, _, _, h⟩ <;> rw [h] <;> rfl
@[simp] theorem regions_raiseIf (s : State) (c : Bool) (p b : Nat) : (s.raiseIf c p b).regions = s.regions := by
  unfold raiseIf; split <;> simp
@[simp] theorem undef_raise (s : State) (p b : Nat) : (s.raise p b).undef = s.undef := by
  rcases raise_cases s p b with ⟨_, h⟩ | ⟨_, _, _, _, h⟩ <;> rw [h] <;> rfl
@[simp] theorem undef_raiseIf (s : State) (c : Bool) (p b : Nat) : (s.raiseIf c p b).undef = s.undef := by
  unfold raiseIf; split <;> simp
@[simp] theorem blocks_raise (s : State) (p b : Nat) : (s.raise p b).blocks = s.blocks := by
  rcases raise_cases s p b with ⟨_, h⟩ | ⟨_, _, _, _, h⟩ <;> rw [h] <;> rfl
@[simp] theorem blocks_raiseIf (s : State) (c : Bool) (p b : Nat) : (s.raiseIf c p b).blocks = s.blocks := by
  unfold raiseIf; split <;> simp
@[simp] theorem ledger_raise (s : State) (p b : Nat) : (s.raise p b).ledger = s.ledger := by
  rcases raise_cases s p b with ⟨_, h⟩ | ⟨_, _, _, _, h⟩ <;> rw [h] <;> rfl
@[simp] theorem ledger_raiseIf (s : State) (c : Bool) (p b : Nat) : (s.raiseIf c p b).ledger = s.ledger := by
  unfold raiseIf; split <;> simp
@[simp] theorem bist_raise (s : State) (p b : Nat) : (s.raise p b).bist = s.bist := by
  rcases raise_cases s p b with ⟨_, h⟩ | ⟨_, _, _, _, h⟩ <;> rw [h] <;> rfl
@[simp] theorem bist_raiseIf (s : State) (c : Bool) (p b : Nat) : (s.raiseIf c p b).bist = s.bist := by
  unfold raiseIf; split <;> simp
@[simp] theorem store_raise (s : State) (p b : Nat) : (s.raise p b).store = s.store := by
  rcases raise_cases s p b with ⟨_, h⟩ | ⟨_, _, _, _, h⟩ <;> rw [h] <;> rfl
@[simp] theorem store_raiseIf (s : State) (c : Bool) (p b : Nat) : (s.raiseIf c p b).store = s.store := by
  unfold raiseIf; split <;> simp
@[simp] theorem life_raise (s : State) (p b : Nat) : (s.raise p b).life = s.life := by
  rcases raise_cases s p b with ⟨_, h⟩ | ⟨_, _, _, _, h⟩ <;> rw [h] <;> rfl
@[simp] theorem life_raiseIf (s : State) (c : Bool) (p b : Nat) : (s.raiseIf c p b).life = s.life := by
  unfold raiseIf; split <;> simp
@[simp] theorem jtag_raise (s : State) (p b : Nat) : (s.raise p b).jtag = s.jtag := by
  rcases raise_cases s p b with ⟨_, h⟩ | ⟨_, _, _, _, h⟩ <;> rw [h] <;> rfl
@[simp] theorem jtag_raiseIf (s : State) (c : Bool) (p b : Nat) : (s.raiseIf c p b).jtag = s.jtag := by
  unfold raiseIf; split <;> simp
@[simp] theorem protos_raise (s : State) (p b : Nat) : (s.raise p b).protos = s.protos := by
  rcases raise_cases s p b with ⟨_, h⟩ | ⟨_, _, _, _, h⟩ <;> rw [h] <;> rfl
@[simp] theorem protos_raiseIf (s : State) (c : Bool) (p b : Nat) : (s.raiseIf c p b).protos = s.protos := by
  unfold raiseIf; split <;> simp
@[simp] theorem lanes_raise (s : State) (p b : Nat) : (s.raise p b).lanes = s.lanes := by
  rcases raise_cases s p b with ⟨_, h⟩ | ⟨_, _, _, _, h⟩ <;> rw [h] <;> rfl
@[simp] theorem lanes_raiseIf (s : State) (c : Bool) (p b : Nat) : (s.raiseIf c p b).lanes = s.lanes := by
  unfold raiseIf; split <;> simp

/-- Raising an event leaves every register but the page's EVENT as it is. -/
theorem rd_raise_ne (s : State) (p b k : Nat) (h : k ≠ reg p oEvent) : (s.raise p b).rd k = s.rd k := by
  rcases raise_cases s p b with ⟨_, h'⟩ | ⟨_, c, e, o, h'⟩
  · rw [h']
  · rw [h']; exact rd_wb_ne _ _ _ _ _ h

/-- An event raised stands in EVENT unless the page is under self-test. -/
theorem rb_raise_same (s : State) (p b : Nat) (h : s.inSelftest p = false) (hb : b < 32) :
    (s.raise p b).rb (reg p oEvent) b = true := by
  rcases raise_cases s p b with ⟨h', _⟩ | ⟨_, c, e, o, h'⟩
  · simp [h] at h'
  · rw [h']; exact rb_wb_same _ _ _ _ hb

theorem rd_raiseIf_ne (s : State) (c : Bool) (p b k : Nat) (h : k ≠ reg p oEvent) :
    (s.raiseIf c p b).rd k = s.rd k := by
  unfold raiseIf; split
  · exact rd_raise_ne _ _ _ _ h
  · rfl

end State

/-- The path of an agent's write to the basic area of a page is open: the device serves it, the page is neither closed nor
under self-test, the agent's path reaches it and OWNER lets it. -/
theorem gateW_open {a : Agent} {p : Nat} {s : State} (h : granted a p s = true) (f : State → State) :
    gateW a p f s = f (s.answer .ok) := by
  simp only [granted, Bool.and_eq_true, Bool.not_eq_true'] at h
  simp [gateW, h]

theorem gateP_open {a : Agent} {p : Nat} {s : State} (hp : privileged a = true) (h : granted a p s = true)
    (f : State → State) : gateP a p f s = f (s.answer .ok) := by
  simp [gateP, hp, gateW_open h]

end Sys2Proof.Machine
end

