-- ==== Sys2Proof/Laws/Frame.lean ====
section
/-! SUPPORT. Laws/Frame.lean: `Only` is kept by every update it allows, one lemma for each, and what a register reads
after an update of another part. -/
namespace Sys2Proof
open Machine
variable {ks : List Nat} {ps : List Part} {s u : State}

theorem Only.refl : Only ks ps s s := ⟨fun _ _ => rfl, fun p _ => by cases p <;> rfl⟩

theorem Only.trans {v : State} (h : Only ks ps s u) (h2 : Only ks ps u v) : Only ks ps s v :=
  ⟨fun k hk => (h2.1 k hk).trans (h.1 k hk), fun p hp => by
    have a := h.2 p hp; have b := h2.2 p hp; cases p <;> exact b.trans a⟩

theorem Only.mono {ks2 : List Nat} {ps2 : List Part} (h : Only ks ps s u) (hk : ∀ k, k ∈ ks → k ∈ ks2)
    (hp : ∀ p, p ∈ ps → p ∈ ps2) : Only ks2 ps2 s u :=
  ⟨fun k n => h.1 k fun m => n (hk k m), fun p n => h.2 p fun m => n (hp p m)⟩

/-- The clock does not matter to `Only`. -/
theorem Only.ofUpTo {t : Nat} (h : Only ks ps (s.upTo t) u) : Only ks ps s u :=
  ⟨h.1, fun p hp => by have a := h.2 p hp; cases p <;> exact a⟩

theorem Only.upTo {t : Nat} (h : Only ks ps s u) : Only ks ps s (u.upTo t) :=
  ⟨h.1, fun p hp => by have a := h.2 p hp; cases p <;> exact a⟩

theorem Only.settle {z : State} (h : Only ks ps s u) : Only ks ps s (z.settle u) :=
  ⟨h.1, fun p hp => by have a := h.2 p hp; cases p <;> exact a⟩

theorem Only.ite {c : Prop} [Decidable c] {v : State} (h : c → Only ks ps s u) (h2 : ¬c → Only ks ps s v) :
    Only ks ps s (if c then u else v) := by split <;> simp_all

theorem Only.wr {k : Nat} {v : Word} (h : Only ks ps s u) (hk : k ∈ ks) : Only ks ps s (u.wr k v) :=
  ⟨fun j hj => by rw [State.rd_wr_ne _ _ _ _ fun e => hj (by rw [e]; exact hk)]; exact h.1 j hj,
    fun p hp => by have a := h.2 p hp; cases p <;> simpa [Part.kept] using a⟩

theorem Only.wf {k hi lo v : Nat} (h : Only ks ps s u) (hk : k ∈ ks) : Only ks ps s (u.wf k hi lo v) :=
  ⟨fun j hj => by rw [State.rd_wf_ne _ _ _ _ _ _ fun e => hj (by rw [e]; exact hk)]; exact h.1 j hj,
    fun p hp => by have a := h.2 p hp; cases p <;> simpa [Part.kept] using a⟩

theorem Only.wb {k n : Nat} {b : Bool} (h : Only ks ps s u) (hk : k ∈ ks) : Only ks ps s (u.wb k n b) :=
  ⟨fun j hj => by rw [State.rd_wb_ne _ _ _ _ _ fun e => hj (by rw [e]; exact hk)]; exact h.1 j hj,
    fun p hp => by have a := h.2 p hp; cases p <;> simpa [Part.kept] using a⟩

theorem Only.emit {o : Output} (h : Only ks ps s u) (hp : Part.out ∈ ps) : Only ks ps s (u.emit o) :=
  ⟨h.1, fun p n => by have a := h.2 p n; cases p <;> first | exact absurd hp n | exact a⟩

theorem Only.ret {n : Nat} (h : Only ks ps s u) (hp : Part.rdata ∈ ps) : Only ks ps s (u.ret n) :=
  ⟨h.1, fun p n => by have a := h.2 p n; cases p <;> first | exact absurd hp n | exact a⟩

theorem Only.answer {r : Resp} (h : Only ks ps s u) (hp : Part.resp ∈ ps) : Only ks ps s (u.answer r) :=
  ⟨h.1, fun p n => by have a := h.2 p n; cases p <;> first | exact absurd hp n | exact a⟩

theorem Only.drew  (h : Only ks ps s u) (hp : Part.free ∈ ps) : Only ks ps s (u.drew) :=
  ⟨h.1, fun p n => by have a := h.2 p n; cases p <;> first | exact absurd hp n | exact a⟩

theorem Only.drewN {n : Nat} (h : Only ks ps s u) (hp : Part.free ∈ ps) : Only ks ps s (u.drewN n) :=
  ⟨h.1, fun p n => by have a := h.2 p n; cases p <;> first | exact absurd hp n | exact a⟩

theorem Only.setDom {d : Nat} {x : Dom} (h : Only ks ps s u) (hp : Part.doms ∈ ps) : Only ks ps s (u.setDom d x) :=
  ⟨h.1, fun p n => by have a := h.2 p n; cases p <;> first | exact absurd hp n | exact a⟩

theorem Only.setPort {n : Nat} {x : Port} (h : Only ks ps s u) (hp : Part.lat ∈ ps) : Only ks ps s (u.setPort n x) :=
  ⟨h.1, fun p n => by have a := h.2 p n; cases p <;> first | exact absurd hp n | exact a⟩

theorem Only.setPin {i : Nat} {x : Pin} (h : Only ks ps s u) (hp : Part.pins ∈ ps) : Only ks ps s (u.setPin i x) :=
  ⟨h.1, fun p n => by have a := h.2 p n; cases p <;> first | exact absurd hp n | exact a⟩

theorem Only.setGrp {i : Nat} {x : Group} (h : Only ks ps s u) (hp : Part.groups ∈ ps) : Only ks ps s (u.setGrp i x) :=
  ⟨h.1, fun p n => by have a := h.2 p n; cases p <;> first | exact absurd hp n | exact a⟩

theorem Only.setAna {i : Nat} {x : Ana} (h : Only ks ps s u) (hp : Part.anas ∈ ps) : Only ks ps s (u.setAna i x) :=
  ⟨h.1, fun p n => by have a := h.2 p n; cases p <;> first | exact absurd hp n | exact a⟩

theorem Only.setSq {i : Nat} {x : Seq} (h : Only ks ps s u) (hp : Part.seqs ∈ ps) : Only ks ps s (u.setSq i x) :=
  ⟨h.1, fun p n => by have a := h.2 p n; cases p <;> first | exact absurd hp n | exact a⟩

theorem Only.setXip {i : Nat} {x : Xip} (h : Only ks ps s u) (hp : Part.xips ∈ ps) : Only ks ps s (u.setXip i x) :=
  ⟨h.1, fun p n => by have a := h.2 p n; cases p <;> first | exact absurd hp n | exact a⟩

theorem Only.putBytes {a : Nat} {bs : List Byte} (h : Only ks ps s u) (hp : Part.mem ∈ ps) : Only ks ps s (u.putBytes a bs) :=
  ⟨h.1, fun p n => by have a := h.2 p n; cases p <;> first | exact absurd hp n | exact a⟩

theorem Only.setRegion {r : Nat} {x : Region} (h : Only ks ps s u) (hp : Part.regions ∈ ps) : Only ks ps s (u.setRegion r x) :=
  ⟨h.1, fun p n => by have a := h.2 p n; cases p <;> first | exact absurd hp n | exact a⟩

theorem Only.setDq {q : Nat} {x : DQueue} (h : Only ks ps s u) (hp : Part.store ∈ ps) : Only ks ps s (u.setDq q x) :=
  ⟨h.1, fun p n => by have a := h.2 p n; cases p <;> first | exact absurd hp n | exact a⟩

theorem Only.setProto {p : Nat} {x : Proto} (h : Only ks ps s u) (hp : Part.protos ∈ ps) : Only ks ps s (u.setProto p x) :=
  ⟨h.1, fun p n => by have a := h.2 p n; cases p <;> first | exact absurd hp n | exact a⟩

theorem Only.setLane {k : Nat} {x : Lane} (h : Only ks ps s u) (hp : Part.lanes ∈ ps) : Only ks ps s (u.setLane k x) :=
  ⟨h.1, fun p n => by have a := h.2 p n; cases p <;> first | exact absurd hp n | exact a⟩

theorem Only.with_out {x} (h : Only ks ps s u) (hp : Part.out ∈ ps) : Only ks ps s { u with out := x } :=
  ⟨h.1, fun p n => by have a := h.2 p n; cases p <;> first | exact absurd hp n | exact a⟩

theorem Only.with_rdata {x} (h : Only ks ps s u) (hp : Part.rdata ∈ ps) : Only ks ps s { u with rdata := x } :=
  ⟨h.1, fun p n => by have a := h.2 p n; cases p <;> first | exact absurd hp n | exact a⟩

theorem Only.with_resp {x} (h : Only ks ps s u) (hp : Part.resp ∈ ps) : Only ks ps s { u with resp := x } :=
  ⟨h.1, fun p n => by have a := h.2 p n; cases p <;> first | exact absurd hp n | exact a⟩

theorem Only.with_free {x} (h : Only ks ps s u) (hp : Part.free ∈ ps) : Only ks ps s { u with free := x } :=
  ⟨h.1, fun p n => by have a := h.2 p n; cases p <;> first | exact absurd hp n | exact a⟩

theorem Only.with_checks {x} (h : Only ks ps s u) (hp : Part.checks ∈ ps) : Only ks ps s { u with checks := x } :=
  ⟨h.1, fun p n => by have a := h.2 p n; cases p <;> first | exact absurd hp n | exact a⟩

theorem Only.with_mem {x} (h : Only ks ps s u) (hp : Part.mem ∈ ps) : Only ks ps s { u with mem := x } :=
  ⟨h.1, fun p n => by have a := h.2 p n; cases p <;> first | exact absurd hp n | exact a⟩

theorem Only.with_doms {x} (h : Only ks ps s u) (hp : Part.doms ∈ ps) : Only ks ps s { u with doms := x } :=
  ⟨h.1, fun p n => by have a := h.2 p n; cases p <;> first | exact absurd hp n | exact a⟩

theorem Only.with_ctr {x} (h : Only ks ps s u) (hp : Part.ctr ∈ ps) : Only ks ps s { u with ctr := x } :=
  ⟨h.1, fun p n => by have a := h.2 p n; cases p <;> first | exact absurd hp n | exact a⟩

theorem Only.with_lat {x} (h : Only ks ps s u) (hp : Part.lat ∈ ps) : Only ks ps s { u with lat := x } :=
  ⟨h.1, fun p n => by have a := h.2 p n; cases p <;> first | exact absurd hp n | exact a⟩

theorem Only.with_ep {x} (h : Only ks ps s u) (hp : Part.ep ∈ ps) : Only ks ps s { u with ep := x } :=
  ⟨h.1, fun p n => by have a := h.2 p n; cases p <;> first | exact absurd hp n | exact a⟩

theorem Only.with_pins {x} (h : Only ks ps s u) (hp : Part.pins ∈ ps) : Only ks ps s { u with pins := x } :=
  ⟨h.1, fun p n => by have a := h.2 p n; cases p <;> first | exact absurd hp n | exact a⟩

theorem Only.with_groups {x} (h : Only ks ps s u) (hp : Part.groups ∈ ps) : Only ks ps s { u with groups := x } :=
  ⟨h.1, fun p n => by have a := h.2 p n; cases p <;> first | exact absurd hp n | exact a⟩

theorem Only.with_anas {x} (h : Only ks ps s u) (hp : Part.anas ∈ ps) : Only ks ps s { u with anas := x } :=
  ⟨h.1, fun p n => by have a := h.2 p n; cases p <;> first | exact absurd hp n | exact a⟩

theorem Only.with_tsets {x} (h : Only ks ps s u) (hp : Part.tsets ∈ ps) : Only ks ps s { u with tsets := x } :=
  ⟨h.1, fun p n => by have a := h.2 p n; cases p <;> first | exact absurd hp n | exact a⟩

theorem Only.with_trims {x} (h : Only ks ps s u) (hp : Part.trims ∈ ps) : Only ks ps s { u with trims := x } :=
  ⟨h.1, fun p n => by have a := h.2 p n; cases p <;> first | exact absurd hp n | exact a⟩

theorem Only.with_seqs {x} (h : Only ks ps s u) (hp : Part.seqs ∈ ps) : Only ks ps s { u with seqs := x } :=
  ⟨h.1, fun p n => by have a := h.2 p n; cases p <;> first | exact absurd hp n | exact a⟩

theorem Only.with_xips {x} (h : Only ks ps s u) (hp : Part.xips ∈ ps) : Only ks ps s { u with xips := x } :=
  ⟨h.1, fun p n => by have a := h.2 p n; cases p <;> first | exact absurd hp n | exact a⟩

theorem Only.with_pwr {x} (h : Only ks ps s u) (hp : Part.pwr ∈ ps) : Only ks ps s { u with pwr := x } :=
  ⟨h.1, fun p n => by have a := h.2 p n; cases p <;> first | exact absurd hp n | exact a⟩

theorem Only.with_resetEnd {x} (h : Only ks ps s u) (hp : Part.resetEnd ∈ ps) : Only ks ps s { u with resetEnd := x } :=
  ⟨h.1, fun p n => by have a := h.2 p n; cases p <;> first | exact absurd hp n | exact a⟩

theorem Only.with_regions {x} (h : Only ks ps s u) (hp : Part.regions ∈ ps) : Only ks ps s { u with regions := x } :=
  ⟨h.1, fun p n => by have a := h.2 p n; cases p <;> first | exact absurd hp n | exact a⟩

theorem Only.with_undef {x} (h : Only ks ps s u) (hp : Part.undef ∈ ps) : Only ks ps s { u with undef := x } :=
  ⟨h.1, fun p n => by have a := h.2 p n; cases p <;> first | exact absurd hp n | exact a⟩

theorem Only.with_blocks {x} (h : Only ks ps s u) (hp : Part.blocks ∈ ps) : Only ks ps s { u with blocks := x } :=
  ⟨h.1, fun p n => by have a := h.2 p n; cases p <;> first | exact absurd hp n | exact a⟩

theorem Only.with_ledger {x} (h : Only ks ps s u) (hp : Part.ledger ∈ ps) : Only ks ps s { u with ledger := x } :=
  ⟨h.1, fun p n => by have a := h.2 p n; cases p <;> first | exact absurd hp n | exact a⟩

theorem Only.with_bist {x} (h : Only ks ps s u) (hp : Part.bist ∈ ps) : Only ks ps s { u with bist := x } :=
  ⟨h.1, fun p n => by have a := h.2 p n; cases p <;> first | exact absurd hp n | exact a⟩

theorem Only.with_store {x} (h : Only ks ps s u) (hp : Part.store ∈ ps) : Only ks ps s { u with store := x } :=
  ⟨h.1, fun p n => by have a := h.2 p n; cases p <;> first | exact absurd hp n | exact a⟩

theorem Only.with_life {x} (h : Only ks ps s u) (hp : Part.life ∈ ps) : Only ks ps s { u with life := x } :=
  ⟨h.1, fun p n => by have a := h.2 p n; cases p <;> first | exact absurd hp n | exact a⟩

theorem Only.with_jtag {x} (h : Only ks ps s u) (hp : Part.jtag ∈ ps) : Only ks ps s { u with jtag := x } :=
  ⟨h.1, fun p n => by have a := h.2 p n; cases p <;> first | exact absurd hp n | exact a⟩

theorem Only.with_protos {x} (h : Only ks ps s u) (hp : Part.protos ∈ ps) : Only ks ps s { u with protos := x } :=
  ⟨h.1, fun p n => by have a := h.2 p n; cases p <;> first | exact absurd hp n | exact a⟩

theorem Only.with_lanes {x} (h : Only ks ps s u) (hp : Part.lanes ∈ ps) : Only ks ps s { u with lanes := x } :=
  ⟨h.1, fun p n => by have a := h.2 p n; cases p <;> first | exact absurd hp n | exact a⟩

/-! ### Register offsets -/

@[simp] theorem Machine.reg_eq (p a b : Nat) : (reg p a = reg p b) ↔ a = b := by unfold reg; omega

theorem Machine.reg_eq_page {p q a b : Nat} (ha : a < 4096) (hb : b < 4096) : (reg p a = reg q b) ↔ p = q ∧ a = b := by
  unfold reg; omega

theorem Machine.reg_div {p a : Nat} (ha : a < 4096) : reg p a / 4096 = p := by unfold reg; omega

/-! ### Events, refusals and states -/

theorem Only.msixDue {v : Nat} (h : Only ks ps s u) (he : Part.ep ∈ ps) (ho : Part.out ∈ ps) :
    Only ks ps s (u.msixDue v) := by
  obtain ⟨e, o, h2⟩ := State.msixDue_cases u v
  rw [h2]; exact Only.with_ep (x := e) (Only.with_out (x := o) h ho) he

theorem Only.judge {v : Nat} {w : Bool} (h : Only ks ps s u) (he : Part.ep ∈ ps) (ho : Part.out ∈ ps) :
    Only ks ps s (u.judge v w) := by
  obtain ⟨e, o, h2⟩ := State.judge_cases u v w
  rw [h2]; exact Only.with_ep (x := e) (Only.with_out (x := o) h ho) he

theorem Only.raise {p b : Nat} (h : Only ks ps s u) (hk : reg p oEvent ∈ ks) (hp : ∀ q, q ∈ eventParts → q ∈ ps) :
    Only ks ps s (u.raise p b) := by
  rcases State.raise_cases u p b with ⟨_, h2⟩ | ⟨_, c, e, o, h2⟩
  · rw [h2]; exact h
  · rw [h2]
    exact Only.with_ctr (x := c) (Only.with_ep (x := e) (Only.with_out (x := o) (h.wb (n := b) (b := true) hk)
      (hp _ (by decide))) (hp _ (by decide))) (hp _ (by decide))

theorem Only.raiseIf {c : Bool} {p b : Nat} (h : Only ks ps s u) (hk : reg p oEvent ∈ ks)
    (hp : ∀ q, q ∈ eventParts → q ∈ ps) : Only ks ps s (u.raiseIf c p b) := by
  unfold State.raiseIf; split
  · exact h.raise hk hp
  · exact h

theorem Only.refuse {p : Nat} {r : Reason} (h : Only ks ps s u) (hk : reg p oStatus ∈ ks) :
    Only ks ps s (u.refuse p r) := h.wf hk

theorem Only.setUnitState {p v : Nat} (h : Only ks ps s u) (hk : reg p oStatus ∈ ks) :
    Only ks ps s (u.setUnitState p v) := h.wf hk

theorem Only.refuseAns {p : Nat} {r : Reason} (h : Only ks ps s u) (hk : reg p oStatus ∈ ks) (hp : Part.resp ∈ ps) :
    Only ks ps s (u.refuseAns p r) := (h.refuse hk).answer hp

theorem Only.putWord {a : Nat} {w : Word} (h : Only ks ps s u) (hp : Part.mem ∈ ps) : Only ks ps s (u.putWord a w) :=
  h.putBytes hp

/-! ### What a register reads after an update of another part -/

namespace Machine.State

@[simp] theorem rd_upTo (s : State) (t k : Nat) : (s.upTo t).rd k = s.rd k := rfl
@[simp] theorem rd_settle (s u : State) (k : Nat) : (s.settle u).rd k = u.rd k := rfl
@[simp] theorem rf_upTo (s : State) (t k hi lo : Nat) : (s.upTo t).rf k hi lo = s.rf k hi lo := rfl
@[simp] theorem rf_settle (s u : State) (k hi lo : Nat) : (s.settle u).rf k hi lo = u.rf k hi lo := rfl
@[simp] theorem rb_upTo (s : State) (t k n : Nat) : (s.upTo t).rb k n = s.rb k n := rfl
@[simp] theorem rb_settle (s u : State) (k n : Nat) : (s.settle u).rb k n = u.rb k n := rfl
@[simp] theorem granted_upTo (s : State) (t : Nat) (a : Agent) (p : Nat) : granted a p (s.upTo t) = granted a p s := rfl
@[simp] theorem unitState_upTo (s : State) (t p : Nat) : (s.upTo t).unitState p = s.unitState p := rfl
@[simp] theorem isOn_upTo (s : State) (t p : Nat) : (s.upTo t).isOn p = s.isOn p := rfl
@[simp] theorem inSelftest_upTo (s : State) (t p : Nat) : (s.upTo t).inSelftest p = s.inSelftest p := rfl
@[simp] theorem unitState_settle (s u : State) (p : Nat) : (s.settle u).unitState p = u.unitState p := rfl
@[simp] theorem isOn_settle (s u : State) (p : Nat) : (s.settle u).isOn p = u.isOn p := rfl
@[simp] theorem locked_settle (s u : State) (p : Nat) : (s.settle u).locked p = u.locked p := rfl
@[simp] theorem enZero_settle (s u : State) (p : Nat) : (s.settle u).enZero p = u.enZero p := rfl
@[simp] theorem resp_answer (s : State) (r : Resp) : (s.answer r).resp = r := rfl
@[simp] theorem rdata_ret (s : State) (n : Nat) : (s.ret n).rdata = n := rfl
@[simp] theorem out_emit (s : State) (o : Output) : (s.emit o).out = o :: s.out := rfl
@[simp] theorem free_drew (s : State) : s.drew.free = s.free + 1 := rfl
@[simp] theorem resp_refuseAns (s : State) (p : Nat) (r : Reason) : (s.refuseAns p r).resp = .refused := rfl
@[simp] theorem now_upTo (s : State) (t : Nat) : (s.upTo t).now = max s.now t := rfl
@[simp] theorem now_settle (s u : State) : (s.settle u).now = s.now := rfl
@[simp] theorem pending_settle (s u : State) : (s.settle u).pending = s.pending := rfl
@[simp] theorem dom_setDom (s : State) (i j : Nat) (x : Dom) : (s.setDom i x).dom j = if j = i then x else s.dom j := by
  simp [dom, setDom, tabGet_tabPut]
@[simp] theorem pin_setPin (s : State) (i j : Nat) (x : Pin) : (s.setPin i x).pin j = if j = i then x else s.pin j := by
  simp [pin, setPin, tabGet_tabPut]
@[simp] theorem grp_setGrp (s : State) (i j : Nat) (x : Group) : (s.setGrp i x).grp j = if j = i then x else s.grp j := by
  simp [grp, setGrp, tabGet_tabPut]
@[simp] theorem ana_setAna (s : State) (i j : Nat) (x : Ana) : (s.setAna i x).ana j = if j = i then x else s.ana j := by
  simp [ana, setAna, tabGet_tabPut]
@[simp] theorem sq_setSq (s : State) (i j : Nat) (x : Seq) : (s.setSq i x).sq j = if j = i then x else s.sq j := by
  simp [sq, setSq, tabGet_tabPut]
@[simp] theorem xip_setXip (s : State) (i j : Nat) (x : Xip) : (s.setXip i x).xip j = if j = i then x else s.xip j := by
  simp [xip, setXip, tabGet_tabPut]
@[simp] theorem region_setRegion (s : State) (i j : Nat) (x : Region) : (s.setRegion i x).region j = if j = i then x else s.region j := by
  simp [region, setRegion, tabGet_tabPut]
@[simp] theorem dq_setDq (s : State) (i j : Nat) (x : DQueue) : (s.setDq i x).dq j = if j = i then x else s.dq j := by
  simp [dq, setDq, tabGet_tabPut]
@[simp] theorem proto_setProto (s : State) (i j : Nat) (x : Proto) : (s.setProto i x).proto j = if j = i then x else s.proto j := by
  simp [proto, setProto, tabGet_tabPut]
@[simp] theorem lane_setLane (s : State) (i j : Nat) (x : Lane) : (s.setLane i x).lane j = if j = i then x else s.lane j := by
  simp [lane, setLane, tabGet_tabPut]
@[simp] theorem port_setPort (s : State) (i j : Nat) (x : Port) : (s.setPort i x).port j = if j = i then x else s.port j := by
  simp [port, setPort, tabGet_tabPut]
@[simp] theorem dom_wr (s : State) (k : Nat) (v : Word) (i_ : Nat) : (s.wr k v).dom i_ = s.dom i_ := rfl
@[simp] theorem dom_wf (s : State) (k hi lo v : Nat) (i_ : Nat) : (s.wf k hi lo v).dom i_ = s.dom i_ := rfl
@[simp] theorem dom_wb (s : State) (k n : Nat) (b : Bool) (i_ : Nat) : (s.wb k n b).dom i_ = s.dom i_ := rfl
@[simp] theorem dom_emit (s : State) (o : Output) (i_ : Nat) : (s.emit o).dom i_ = s.dom i_ := rfl
@[simp] theorem dom_ret (s : State) (n : Nat) (i_ : Nat) : (s.ret n).dom i_ = s.dom i_ := rfl
@[simp] theorem dom_answer (s : State) (r : Resp) (i_ : Nat) : (s.answer r).dom i_ = s.dom i_ := rfl
@[simp] theorem dom_drew (s : State)  (i_ : Nat) : (s.drew).dom i_ = s.dom i_ := rfl
@[simp] theorem dom_drewN (s : State) (n : Nat) (i_ : Nat) : (s.drewN n).dom i_ = s.dom i_ := rfl
@[simp] theorem dom_setPort (s : State) (n : Nat) (x : Port) (i_ : Nat) : (s.setPort n x).dom i_ = s.dom i_ := rfl
@[simp] theorem dom_setPin (s : State) (i : Nat) (x : Pin) (i_ : Nat) : (s.setPin i x).dom i_ = s.dom i_ := rfl
@[simp] theorem dom_setGrp (s : State) (i : Nat) (x : Group) (i_ : Nat) : (s.setGrp i x).dom i_ = s.dom i_ := rfl
@[simp] theorem dom_setAna (s : State) (i : Nat) (x : Ana) (i_ : Nat) : (s.setAna i x).dom i_ = s.dom i_ := rfl
@[simp] theorem dom_setSq (s : State) (i : Nat) (x : Seq) (i_ : Nat) : (s.setSq i x).dom i_ = s.dom i_ := rfl
@[simp] theorem dom_setXip (s : State) (i : Nat) (x : Xip) (i_ : Nat) : (s.setXip i x).dom i_ = s.dom i_ := rfl
@[simp] theorem dom_putBytes (s : State) (a : Nat) (bs : List Byte) (i_ : Nat) : (s.putBytes a bs).dom i_ = s.dom i_ := rfl
@[simp] theorem dom_setRegion (s : State) (r : Nat) (x : Region) (i_ : Nat) : (s.setRegion r x).dom i_ = s.dom i_ := rfl
@[simp] theorem dom_setDq (s : State) (q : Nat) (x : DQueue) (i_ : Nat) : (s.setDq q x).dom i_ = s.dom i_ := rfl
@[simp] theorem dom_setProto (s : State) (p : Nat) (x : Proto) (i_ : Nat) : (s.setProto p x).dom i_ = s.dom i_ := rfl
@[simp] theorem dom_setLane (s : State) (k : Nat) (x : Lane) (i_ : Nat) : (s.setLane k x).dom i_ = s.dom i_ := rfl
@[simp] theorem dom_upTo (s : State) (t i : Nat) : (s.upTo t).dom i = s.dom i := rfl
@[simp] theorem dom_settle (s u : State) (i : Nat) : (s.settle u).dom i = u.dom i := rfl
@[simp] theorem dom_raise (s : State) (p b i : Nat) : (s.raise p b).dom i = s.dom i := by
  simp [dom]
@[simp] theorem dom_raiseIf (s : State) (c : Bool) (p b i : Nat) : (s.raiseIf c p b).dom i = s.dom i := by
  simp [dom]
@[simp] theorem dom_refuse (s : State) (p : Nat) (r : Reason) (i : Nat) : (s.refuse p r).dom i = s.dom i := rfl
@[simp] theorem pin_wr (s : State) (k : Nat) (v : Word) (i_ : Nat) : (s.wr k v).pin i_ = s.pin i_ := rfl
@[simp] theorem pin_wf (s : State) (k hi lo v : Nat) (i_ : Nat) : (s.wf k hi lo v).pin i_ = s.pin i_ := rfl
@[simp] theorem pin_wb (s : State) (k n : Nat) (b : Bool) (i_ : Nat) : (s.wb k n b).pin i_ = s.pin i_ := rfl
@[simp] theorem pin_emit (s : State) (o : Output) (i_ : Nat) : (s.emit o).pin i_ = s.pin i_ := rfl
@[simp] theorem pin_ret (s : State) (n : Nat) (i_ : Nat) : (s.ret n).pin i_ = s.pin i_ := rfl
@[simp] theorem pin_answer (s : State) (r : Resp) (i_ : Nat) : (s.answer r).pin i_ = s.pin i_ := rfl
@[simp] theorem pin_drew (s : State)  (i_ : Nat) : (s.drew).pin i_ = s.pin i_ := rfl
@[simp] theorem pin_drewN (s : State) (n : Nat) (i_ : Nat) : (s.drewN n).pin i_ = s.pin i_ := rfl
@[simp] theorem pin_setDom (s : State) (d : Nat) (x : Dom) (i_ : Nat) : (s.setDom d x).pin i_ = s.pin i_ := rfl
@[simp] theorem pin_setPort (s : State) (n : Nat) (x : Port) (i_ : Nat) : (s.setPort n x).pin i_ = s.pin i_ := rfl
@[simp] theorem pin_setGrp (s : State) (i : Nat) (x : Group) (i_ : Nat) : (s.setGrp i x).pin i_ = s.pin i_ := rfl
@[simp] theorem pin_setAna (s : State) (i : Nat) (x : Ana) (i_ : Nat) : (s.setAna i x).pin i_ = s.pin i_ := rfl
@[simp] theorem pin_setSq (s : State) (i : Nat) (x : Seq) (i_ : Nat) : (s.setSq i x).pin i_ = s.pin i_ := rfl
@[simp] theorem pin_setXip (s : State) (i : Nat) (x : Xip) (i_ : Nat) : (s.setXip i x).pin i_ = s.pin i_ := rfl
@[simp] theorem pin_putBytes (s : State) (a : Nat) (bs : List Byte) (i_ : Nat) : (s.putBytes a bs).pin i_ = s.pin i_ := rfl
@[simp] theorem pin_setRegion (s : State) (r : Nat) (x : Region) (i_ : Nat) : (s.setRegion r x).pin i_ = s.pin i_ := rfl
@[simp] theorem pin_setDq (s : State) (q : Nat) (x : DQueue) (i_ : Nat) : (s.setDq q x).pin i_ = s.pin i_ := rfl
@[simp] theorem pin_setProto (s : State) (p : Nat) (x : Proto) (i_ : Nat) : (s.setProto p x).pin i_ = s.pin i_ := rfl
@[simp] theorem pin_setLane (s : State) (k : Nat) (x : Lane) (i_ : Nat) : (s.setLane k x).pin i_ = s.pin i_ := rfl
@[simp] theorem pin_upTo (s : State) (t i : Nat) : (s.upTo t).pin i = s.pin i := rfl
@[simp] theorem pin_settle (s u : State) (i : Nat) : (s.settle u).pin i = u.pin i := rfl
@[simp] theorem pin_raise (s : State) (p b i : Nat) : (s.raise p b).pin i = s.pin i := by
  simp [pin]
@[simp] theorem pin_raiseIf (s : State) (c : Bool) (p b i : Nat) : (s.raiseIf c p b).pin i = s.pin i := by
  simp [pin]
@[simp] theorem pin_refuse (s : State) (p : Nat) (r : Reason) (i : Nat) : (s.refuse p r).pin i = s.pin i := rfl
@[simp] theorem grp_wr (s : State) (k : Nat) (v : Word) (i_ : Nat) : (s.wr k v).grp i_ = s.grp i_ := rfl
@[simp] theorem grp_wf (s : State) (k hi lo v : Nat) (i_ : Nat) : (s.wf k hi lo v).grp i_ = s.grp i_ := rfl
@[simp] theorem grp_wb (s : State) (k n : Nat) (b : Bool) (i_ : Nat) : (s.wb k n b).grp i_ = s.grp i_ := rfl
@[simp] theorem grp_emit (s : State) (o : Output) (i_ : Nat) : (s.emit o).grp i_ = s.grp i_ := rfl
@[simp] theorem grp_ret (s : State) (n : Nat) (i_ : Nat) : (s.ret n).grp i_ = s.grp i_ := rfl
@[simp] theorem grp_answer (s : State) (r : Resp) (i_ : Nat) : (s.answer r).grp i_ = s.grp i_ := rfl
@[simp] theorem grp_drew (s : State)  (i_ : Nat) : (s.drew).grp i_ = s.grp i_ := rfl
@[simp] theorem grp_drewN (s : State) (n : Nat) (i_ : Nat) : (s.drewN n).grp i_ = s.grp i_ := rfl
@[simp] theorem grp_setDom (s : State) (d : Nat) (x : Dom) (i_ : Nat) : (s.setDom d x).grp i_ = s.grp i_ := rfl
@[simp] theorem grp_setPort (s : State) (n : Nat) (x : Port) (i_ : Nat) : (s.setPort n x).grp i_ = s.grp i_ := rfl
@[simp] theorem grp_setPin (s : State) (i : Nat) (x : Pin) (i_ : Nat) : (s.setPin i x).grp i_ = s.grp i_ := rfl
@[simp] theorem grp_setAna (s : State) (i : Nat) (x : Ana) (i_ : Nat) : (s.setAna i x).grp i_ = s.grp i_ := rfl
@[simp] theorem grp_setSq (s : State) (i : Nat) (x : Seq) (i_ : Nat) : (s.setSq i x).grp i_ = s.grp i_ := rfl
@[simp] theorem grp_setXip (s : State) (i : Nat) (x : Xip) (i_ : Nat) : (s.setXip i x).grp i_ = s.grp i_ := rfl
@[simp] theorem grp_putBytes (s : State) (a : Nat) (bs : List Byte) (i_ : Nat) : (s.putBytes a bs).grp i_ = s.grp i_ := rfl
@[simp] theorem grp_setRegion (s : State) (r : Nat) (x : Region) (i_ : Nat) : (s.setRegion r x).grp i_ = s.grp i_ := rfl
@[simp] theorem grp_setDq (s : State) (q : Nat) (x : DQueue) (i_ : Nat) : (s.setDq q x).grp i_ = s.grp i_ := rfl
@[simp] theorem grp_setProto (s : State) (p : Nat) (x : Proto) (i_ : Nat) : (s.setProto p x).grp i_ = s.grp i_ := rfl
@[simp] theorem grp_setLane (s : State) (k : Nat) (x : Lane) (i_ : Nat) : (s.setLane k x).grp i_ = s.grp i_ := rfl
@[simp] theorem grp_upTo (s : State) (t i : Nat) : (s.upTo t).grp i = s.grp i := rfl
@[simp] theorem grp_settle (s u : State) (i : Nat) : (s.settle u).grp i = u.grp i := rfl
@[simp] theorem grp_raise (s : State) (p b i : Nat) : (s.raise p b).grp i = s.grp i := by
  simp [grp]
@[simp] theorem grp_raiseIf (s : State) (c : Bool) (p b i : Nat) : (s.raiseIf c p b).grp i = s.grp i := by
  simp [grp]
@[simp] theorem grp_refuse (s : State) (p : Nat) (r : Reason) (i : Nat) : (s.refuse p r).grp i = s.grp i := rfl
@[simp] theorem ana_wr (s : State) (k : Nat) (v : Word) (i_ : Nat) : (s.wr k v).ana i_ = s.ana i_ := rfl
@[simp] theorem ana_wf (s : State) (k hi lo v : Nat) (i_ : Nat) : (s.wf k hi lo v).ana i_ = s.ana i_ := rfl
@[simp] theorem ana_wb (s : State) (k n : Nat) (b : Bool) (i_ : Nat) : (s.wb k n b).ana i_ = s.ana i_ := rfl
@[simp] theorem ana_emit (s : State) (o : Output) (i_ : Nat) : (s.emit o).ana i_ = s.ana i_ := rfl
@[simp] theorem ana_ret (s : State) (n : Nat) (i_ : Nat) : (s.ret n).ana i_ = s.ana i_ := rfl
@[simp] theorem ana_answer (s : State) (r : Resp) (i_ : Nat) : (s.answer r).ana i_ = s.ana i_ := rfl
@[simp] theorem ana_drew (s : State)  (i_ : Nat) : (s.drew).ana i_ = s.ana i_ := rfl
@[simp] theorem ana_drewN (s : State) (n : Nat) (i_ : Nat) : (s.drewN n).ana i_ = s.ana i_ := rfl
@[simp] theorem ana_setDom (s : State) (d : Nat) (x : Dom) (i_ : Nat) : (s.setDom d x).ana i_ = s.ana i_ := rfl
@[simp] theorem ana_setPort (s : State) (n : Nat) (x : Port) (i_ : Nat) : (s.setPort n x).ana i_ = s.ana i_ := rfl
@[simp] theorem ana_setPin (s : State) (i : Nat) (x : Pin) (i_ : Nat) : (s.setPin i x).ana i_ = s.ana i_ := rfl
@[simp] theorem ana_setGrp (s : State) (i : Nat) (x : Group) (i_ : Nat) : (s.setGrp i x).ana i_ = s.ana i_ := rfl
@[simp] theorem ana_setSq (s : State) (i : Nat) (x : Seq) (i_ : Nat) : (s.setSq i x).ana i_ = s.ana i_ := rfl
@[simp] theorem ana_setXip (s : State) (i : Nat) (x : Xip) (i_ : Nat) : (s.setXip i x).ana i_ = s.ana i_ := rfl
@[simp] theorem ana_putBytes (s : State) (a : Nat) (bs : List Byte) (i_ : Nat) : (s.putBytes a bs).ana i_ = s.ana i_ := rfl
@[simp] theorem ana_setRegion (s : State) (r : Nat) (x : Region) (i_ : Nat) : (s.setRegion r x).ana i_ = s.ana i_ := rfl
@[simp] theorem ana_setDq (s : State) (q : Nat) (x : DQueue) (i_ : Nat) : (s.setDq q x).ana i_ = s.ana i_ := rfl
@[simp] theorem ana_setProto (s : State) (p : Nat) (x : Proto) (i_ : Nat) : (s.setProto p x).ana i_ = s.ana i_ := rfl
@[simp] theorem ana_setLane (s : State) (k : Nat) (x : Lane) (i_ : Nat) : (s.setLane k x).ana i_ = s.ana i_ := rfl
@[simp] theorem ana_upTo (s : State) (t i : Nat) : (s.upTo t).ana i = s.ana i := rfl
@[simp] theorem ana_settle (s u : State) (i : Nat) : (s.settle u).ana i = u.ana i := rfl
@[simp] theorem ana_raise (s : State) (p b i : Nat) : (s.raise p b).ana i = s.ana i := by
  simp [ana]
@[simp] theorem ana_raiseIf (s : State) (c : Bool) (p b i : Nat) : (s.raiseIf c p b).ana i = s.ana i := by
  simp [ana]
@[simp] theorem ana_refuse (s : State) (p : Nat) (r : Reason) (i : Nat) : (s.refuse p r).ana i = s.ana i := rfl
@[simp] theorem sq_wr (s : State) (k : Nat) (v : Word) (i_ : Nat) : (s.wr k v).sq i_ = s.sq i_ := rfl
@[simp] theorem sq_wf (s : State) (k hi lo v : Nat) (i_ : Nat) : (s.wf k hi lo v).sq i_ = s.sq i_ := rfl
@[simp] theorem sq_wb (s : State) (k n : Nat) (b : Bool) (i_ : Nat) : (s.wb k n b).sq i_ = s.sq i_ := rfl
@[simp] theorem sq_emit (s : State) (o : Output) (i_ : Nat) : (s.emit o).sq i_ = s.sq i_ := rfl
@[simp] theorem sq_ret (s : State) (n : Nat) (i_ : Nat) : (s.ret n).sq i_ = s.sq i_ := rfl
@[simp] theorem sq_answer (s : State) (r : Resp) (i_ : Nat) : (s.answer r).sq i_ = s.sq i_ := rfl
@[simp] theorem sq_drew (s : State)  (i_ : Nat) : (s.drew).sq i_ = s.sq i_ := rfl
@[simp] theorem sq_drewN (s : State) (n : Nat) (i_ : Nat) : (s.drewN n).sq i_ = s.sq i_ := rfl
@[simp] theorem sq_setDom (s : State) (d : Nat) (x : Dom) (i_ : Nat) : (s.setDom d x).sq i_ = s.sq i_ := rfl
@[simp] theorem sq_setPort (s : State) (n : Nat) (x : Port) (i_ : Nat) : (s.setPort n x).sq i_ = s.sq i_ := rfl
@[simp] theorem sq_setPin (s : State) (i : Nat) (x : Pin) (i_ : Nat) : (s.setPin i x).sq i_ = s.sq i_ := rfl
@[simp] theorem sq_setGrp (s : State) (i : Nat) (x : Group) (i_ : Nat) : (s.setGrp i x).sq i_ = s.sq i_ := rfl
@[simp] theorem sq_setAna (s : State) (i : Nat) (x : Ana) (i_ : Nat) : (s.setAna i x).sq i_ = s.sq i_ := rfl
@[simp] theorem sq_setXip (s : State) (i : Nat) (x : Xip) (i_ : Nat) : (s.setXip i x).sq i_ = s.sq i_ := rfl
@[simp] theorem sq_putBytes (s : State) (a : Nat) (bs : List Byte) (i_ : Nat) : (s.putBytes a bs).sq i_ = s.sq i_ := rfl
@[simp] theorem sq_setRegion (s : State) (r : Nat) (x : Region) (i_ : Nat) : (s.setRegion r x).sq i_ = s.sq i_ := rfl
@[simp] theorem sq_setDq (s : State) (q : Nat) (x : DQueue) (i_ : Nat) : (s.setDq q x).sq i_ = s.sq i_ := rfl
@[simp] theorem sq_setProto (s : State) (p : Nat) (x : Proto) (i_ : Nat) : (s.setProto p x).sq i_ = s.sq i_ := rfl
@[simp] theorem sq_setLane (s : State) (k : Nat) (x : Lane) (i_ : Nat) : (s.setLane k x).sq i_ = s.sq i_ := rfl
@[simp] theorem sq_upTo (s : State) (t i : Nat) : (s.upTo t).sq i = s.sq i := rfl
@[simp] theorem sq_settle (s u : State) (i : Nat) : (s.settle u).sq i = u.sq i := rfl
@[simp] theorem sq_raise (s : State) (p b i : Nat) : (s.raise p b).sq i = s.sq i := by
  simp [sq]
@[simp] theorem sq_raiseIf (s : State) (c : Bool) (p b i : Nat) : (s.raiseIf c p b).sq i = s.sq i := by
  simp [sq]
@[simp] theorem sq_refuse (s : State) (p : Nat) (r : Reason) (i : Nat) : (s.refuse p r).sq i = s.sq i := rfl
@[simp] theorem xip_wr (s : State) (k : Nat) (v : Word) (i_ : Nat) : (s.wr k v).xip i_ = s.xip i_ := rfl
@[simp] theorem xip_wf (s : State) (k hi lo v : Nat) (i_ : Nat) : (s.wf k hi lo v).xip i_ = s.xip i_ := rfl
@[simp] theorem xip_wb (s : State) (k n : Nat) (b : Bool) (i_ : Nat) : (s.wb k n b).xip i_ = s.xip i_ := rfl
@[simp] theorem xip_emit (s : State) (o : Output) (i_ : Nat) : (s.emit o).xip i_ = s.xip i_ := rfl
@[simp] theorem xip_ret (s : State) (n : Nat) (i_ : Nat) : (s.ret n).xip i_ = s.xip i_ := rfl
@[simp] theorem xip_answer (s : State) (r : Resp) (i_ : Nat) : (s.answer r).xip i_ = s.xip i_ := rfl
@[simp] theorem xip_drew (s : State)  (i_ : Nat) : (s.drew).xip i_ = s.xip i_ := rfl
@[simp] theorem xip_drewN (s : State) (n : Nat) (i_ : Nat) : (s.drewN n).xip i_ = s.xip i_ := rfl
@[simp] theorem xip_setDom (s : State) (d : Nat) (x : Dom) (i_ : Nat) : (s.setDom d x).xip i_ = s.xip i_ := rfl
@[simp] theorem xip_setPort (s : State) (n : Nat) (x : Port) (i_ : Nat) : (s.setPort n x).xip i_ = s.xip i_ := rfl
@[simp] theorem xip_setPin (s : State) (i : Nat) (x : Pin) (i_ : Nat) : (s.setPin i x).xip i_ = s.xip i_ := rfl
@[simp] theorem xip_setGrp (s : State) (i : Nat) (x : Group) (i_ : Nat) : (s.setGrp i x).xip i_ = s.xip i_ := rfl
@[simp] theorem xip_setAna (s : State) (i : Nat) (x : Ana) (i_ : Nat) : (s.setAna i x).xip i_ = s.xip i_ := rfl
@[simp] theorem xip_setSq (s : State) (i : Nat) (x : Seq) (i_ : Nat) : (s.setSq i x).xip i_ = s.xip i_ := rfl
@[simp] theorem xip_putBytes (s : State) (a : Nat) (bs : List Byte) (i_ : Nat) : (s.putBytes a bs).xip i_ = s.xip i_ := rfl
@[simp] theorem xip_setRegion (s : State) (r : Nat) (x : Region) (i_ : Nat) : (s.setRegion r x).xip i_ = s.xip i_ := rfl
@[simp] theorem xip_setDq (s : State) (q : Nat) (x : DQueue) (i_ : Nat) : (s.setDq q x).xip i_ = s.xip i_ := rfl
@[simp] theorem xip_setProto (s : State) (p : Nat) (x : Proto) (i_ : Nat) : (s.setProto p x).xip i_ = s.xip i_ := rfl
@[simp] theorem xip_setLane (s : State) (k : Nat) (x : Lane) (i_ : Nat) : (s.setLane k x).xip i_ = s.xip i_ := rfl
@[simp] theorem xip_upTo (s : State) (t i : Nat) : (s.upTo t).xip i = s.xip i := rfl
@[simp] theorem xip_settle (s u : State) (i : Nat) : (s.settle u).xip i = u.xip i := rfl
@[simp] theorem xip_raise (s : State) (p b i : Nat) : (s.raise p b).xip i = s.xip i := by
  simp [xip]
@[simp] theorem xip_raiseIf (s : State) (c : Bool) (p b i : Nat) : (s.raiseIf c p b).xip i = s.xip i := by
  simp [xip]
@[simp] theorem xip_refuse (s : State) (p : Nat) (r : Reason) (i : Nat) : (s.refuse p r).xip i = s.xip i := rfl
@[simp] theorem region_wr (s : State) (k : Nat) (v : Word) (i_ : Nat) : (s.wr k v).region i_ = s.region i_ := rfl
@[simp] theorem region_wf (s : State) (k hi lo v : Nat) (i_ : Nat) : (s.wf k hi lo v).region i_ = s.region i_ := rfl
@[simp] theorem region_wb (s : State) (k n : Nat) (b : Bool) (i_ : Nat) : (s.wb k n b).region i_ = s.region i_ := rfl
@[simp] theorem region_emit (s : State) (o : Output) (i_ : Nat) : (s.emit o).region i_ = s.region i_ := rfl
@[simp] theorem region_ret (s : State) (n : Nat) (i_ : Nat) : (s.ret n).region i_ = s.region i_ := rfl
@[simp] theorem region_answer (s : State) (r : Resp) (i_ : Nat) : (s.answer r).region i_ = s.region i_ := rfl
@[simp] theorem region_drew (s : State)  (i_ : Nat) : (s.drew).region i_ = s.region i_ := rfl
@[simp] theorem region_drewN (s : State) (n : Nat) (i_ : Nat) : (s.drewN n).region i_ = s.region i_ := rfl
@[simp] theorem region_setDom (s : State) (d : Nat) (x : Dom) (i_ : Nat) : (s.setDom d x).region i_ = s.region i_ := rfl
@[simp] theorem region_setPort (s : State) (n : Nat) (x : Port) (i_ : Nat) : (s.setPort n x).region i_ = s.region i_ := rfl
@[simp] theorem region_setPin (s : State) (i : Nat) (x : Pin) (i_ : Nat) : (s.setPin i x).region i_ = s.region i_ := rfl
@[simp] theorem region_setGrp (s : State) (i : Nat) (x : Group) (i_ : Nat) : (s.setGrp i x).region i_ = s.region i_ := rfl
@[simp] theorem region_setAna (s : State) (i : Nat) (x : Ana) (i_ : Nat) : (s.setAna i x).region i_ = s.region i_ := rfl
@[simp] theorem region_setSq (s : State) (i : Nat) (x : Seq) (i_ : Nat) : (s.setSq i x).region i_ = s.region i_ := rfl
@[simp] theorem region_setXip (s : State) (i : Nat) (x : Xip) (i_ : Nat) : (s.setXip i x).region i_ = s.region i_ := rfl
@[simp] theorem region_putBytes (s : State) (a : Nat) (bs : List Byte) (i_ : Nat) : (s.putBytes a bs).region i_ = s.region i_ := rfl
@[simp] theorem region_setDq (s : State) (q : Nat) (x : DQueue) (i_ : Nat) : (s.setDq q x).region i_ = s.region i_ := rfl
@[simp] theorem region_setProto (s : State) (p : Nat) (x : Proto) (i_ : Nat) : (s.setProto p x).region i_ = s.region i_ := rfl
@[simp] theorem region_setLane (s : State) (k : Nat) (x : Lane) (i_ : Nat) : (s.setLane k x).region i_ = s.region i_ := rfl
@[simp] theorem region_upTo (s : State) (t i : Nat) : (s.upTo t).region i = s.region i := rfl
@[simp] theorem region_settle (s u : State) (i : Nat) : (s.settle u).region i = u.region i := rfl
@[simp] theorem region_raise (s : State) (p b i : Nat) : (s.raise p b).region i = s.region i := by
  simp [region]
@[simp] theorem region_raiseIf (s : State) (c : Bool) (p b i : Nat) : (s.raiseIf c p b).region i = s.region i := by
  simp [region]
@[simp] theorem region_refuse (s : State) (p : Nat) (r : Reason) (i : Nat) : (s.refuse p r).region i = s.region i := rfl
@[simp] theorem dq_wr (s : State) (k : Nat) (v : Word) (i_ : Nat) : (s.wr k v).dq i_ = s.dq i_ := rfl
@[simp] theorem dq_wf (s : State) (k hi lo v : Nat) (i_ : Nat) : (s.wf k hi lo v).dq i_ = s.dq i_ := rfl
@[simp] theorem dq_wb (s : State) (k n : Nat) (b : Bool) (i_ : Nat) : (s.wb k n b).dq i_ = s.dq i_ := rfl
@[simp] theorem dq_emit (s : State) (o : Output) (i_ : Nat) : (s.emit o).dq i_ = s.dq i_ := rfl
@[simp] theorem dq_ret (s : State) (n : Nat) (i_ : Nat) : (s.ret n).dq i_ = s.dq i_ := rfl
@[simp] theorem dq_answer (s : State) (r : Resp) (i_ : Nat) : (s.answer r).dq i_ = s.dq i_ := rfl
@[simp] theorem dq_drew (s : State)  (i_ : Nat) : (s.drew).dq i_ = s.dq i_ := rfl
@[simp] theorem dq_drewN (s : State) (n : Nat) (i_ : Nat) : (s.drewN n).dq i_ = s.dq i_ := rfl
@[simp] theorem dq_setDom (s : State) (d : Nat) (x : Dom) (i_ : Nat) : (s.setDom d x).dq i_ = s.dq i_ := rfl
@[simp] theorem dq_setPort (s : State) (n : Nat) (x : Port) (i_ : Nat) : (s.setPort n x).dq i_ = s.dq i_ := rfl
@[simp] theorem dq_setPin (s : State) (i : Nat) (x : Pin) (i_ : Nat) : (s.setPin i x).dq i_ = s.dq i_ := rfl
@[simp] theorem dq_setGrp (s : State) (i : Nat) (x : Group) (i_ : Nat) : (s.setGrp i x).dq i_ = s.dq i_ := rfl
@[simp] theorem dq_setAna (s : State) (i : Nat) (x : Ana) (i_ : Nat) : (s.setAna i x).dq i_ = s.dq i_ := rfl
@[simp] theorem dq_setSq (s : State) (i : Nat) (x : Seq) (i_ : Nat) : (s.setSq i x).dq i_ = s.dq i_ := rfl
@[simp] theorem dq_setXip (s : State) (i : Nat) (x : Xip) (i_ : Nat) : (s.setXip i x).dq i_ = s.dq i_ := rfl
@[simp] theorem dq_putBytes (s : State) (a : Nat) (bs : List Byte) (i_ : Nat) : (s.putBytes a bs).dq i_ = s.dq i_ := rfl
@[simp] theorem dq_setRegion (s : State) (r : Nat) (x : Region) (i_ : Nat) : (s.setRegion r x).dq i_ = s.dq i_ := rfl
@[simp] theorem dq_setProto (s : State) (p : Nat) (x : Proto) (i_ : Nat) : (s.setProto p x).dq i_ = s.dq i_ := rfl
@[simp] theorem dq_setLane (s : State) (k : Nat) (x : Lane) (i_ : Nat) : (s.setLane k x).dq i_ = s.dq i_ := rfl
@[simp] theorem dq_upTo (s : State) (t i : Nat) : (s.upTo t).dq i = s.dq i := rfl
@[simp] theorem dq_settle (s u : State) (i : Nat) : (s.settle u).dq i = u.dq i := rfl
@[simp] theorem dq_raise (s : State) (p b i : Nat) : (s.raise p b).dq i = s.dq i := by
  simp [dq]
@[simp] theorem dq_raiseIf (s : State) (c : Bool) (p b i : Nat) : (s.raiseIf c p b).dq i = s.dq i := by
  simp [dq]
@[simp] theorem dq_refuse (s : State) (p : Nat) (r : Reason) (i : Nat) : (s.refuse p r).dq i = s.dq i := rfl
@[simp] theorem proto_wr (s : State) (k : Nat) (v : Word) (i_ : Nat) : (s.wr k v).proto i_ = s.proto i_ := rfl
@[simp] theorem proto_wf (s : State) (k hi lo v : Nat) (i_ : Nat) : (s.wf k hi lo v).proto i_ = s.proto i_ := rfl
@[simp] theorem proto_wb (s : State) (k n : Nat) (b : Bool) (i_ : Nat) : (s.wb k n b).proto i_ = s.proto i_ := rfl
@[simp] theorem proto_emit (s : State) (o : Output) (i_ : Nat) : (s.emit o).proto i_ = s.proto i_ := rfl
@[simp] theorem proto_ret (s : State) (n : Nat) (i_ : Nat) : (s.ret n).proto i_ = s.proto i_ := rfl
@[simp] theorem proto_answer (s : State) (r : Resp) (i_ : Nat) : (s.answer r).proto i_ = s.proto i_ := rfl
@[simp] theorem proto_drew (s : State)  (i_ : Nat) : (s.drew).proto i_ = s.proto i_ := rfl
@[simp] theorem proto_drewN (s : State) (n : Nat) (i_ : Nat) : (s.drewN n).proto i_ = s.proto i_ := rfl
@[simp] theorem proto_setDom (s : State) (d : Nat) (x : Dom) (i_ : Nat) : (s.setDom d x).proto i_ = s.proto i_ := rfl
@[simp] theorem proto_setPort (s : State) (n : Nat) (x : Port) (i_ : Nat) : (s.setPort n x).proto i_ = s.proto i_ := rfl
@[simp] theorem proto_setPin (s : State) (i : Nat) (x : Pin) (i_ : Nat) : (s.setPin i x).proto i_ = s.proto i_ := rfl
@[simp] theorem proto_setGrp (s : State) (i : Nat) (x : Group) (i_ : Nat) : (s.setGrp i x).proto i_ = s.proto i_ := rfl
@[simp] theorem proto_setAna (s : State) (i : Nat) (x : Ana) (i_ : Nat) : (s.setAna i x).proto i_ = s.proto i_ := rfl
@[simp] theorem proto_setSq (s : State) (i : Nat) (x : Seq) (i_ : Nat) : (s.setSq i x).proto i_ = s.proto i_ := rfl
@[simp] theorem proto_setXip (s : State) (i : Nat) (x : Xip) (i_ : Nat) : (s.setXip i x).proto i_ = s.proto i_ := rfl
@[simp] theorem proto_putBytes (s : State) (a : Nat) (bs : List Byte) (i_ : Nat) : (s.putBytes a bs).proto i_ = s.proto i_ := rfl
@[simp] theorem proto_setRegion (s : State) (r : Nat) (x : Region) (i_ : Nat) : (s.setRegion r x).proto i_ = s.proto i_ := rfl
@[simp] theorem proto_setDq (s : State) (q : Nat) (x : DQueue) (i_ : Nat) : (s.setDq q x).proto i_ = s.proto i_ := rfl
@[simp] theorem proto_setLane (s : State) (k : Nat) (x : Lane) (i_ : Nat) : (s.setLane k x).proto i_ = s.proto i_ := rfl
@[simp] theorem proto_upTo (s : State) (t i : Nat) : (s.upTo t).proto i = s.proto i := rfl
@[simp] theorem proto_settle (s u : State) (i : Nat) : (s.settle u).proto i = u.proto i := rfl
@[simp] theorem proto_raise (s : State) (p b i : Nat) : (s.raise p b).proto i = s.proto i := by
  simp [proto]
@[simp] theorem proto_raiseIf (s : State) (c : Bool) (p b i : Nat) : (s.raiseIf c p b).proto i = s.proto i := by
  simp [proto]
@[simp] theorem proto_refuse (s : State) (p : Nat) (r : Reason) (i : Nat) : (s.refuse p r).proto i = s.proto i := rfl
@[simp] theorem lane_wr (s : State) (k : Nat) (v : Word) (i_ : Nat) : (s.wr k v).lane i_ = s.lane i_ := rfl
@[simp] theorem lane_wf (s : State) (k hi lo v : Nat) (i_ : Nat) : (s.wf k hi lo v).lane i_ = s.lane i_ := rfl
@[simp] theorem lane_wb (s : State) (k n : Nat) (b : Bool) (i_ : Nat) : (s.wb k n b).lane i_ = s.lane i_ := rfl
@[simp] theorem lane_emit (s : State) (o : Output) (i_ : Nat) : (s.emit o).lane i_ = s.lane i_ := rfl
@[simp] theorem lane_ret (s : State) (n : Nat) (i_ : Nat) : (s.ret n).lane i_ = s.lane i_ := rfl
@[simp] theorem lane_answer (s : State) (r : Resp) (i_ : Nat) : (s.answer r).lane i_ = s.lane i_ := rfl
@[simp] theorem lane_drew (s : State)  (i_ : Nat) : (s.drew).lane i_ = s.lane i_ := rfl
@[simp] theorem lane_drewN (s : State) (n : Nat) (i_ : Nat) : (s.drewN n).lane i_ = s.lane i_ := rfl
@[simp] theorem lane_setDom (s : State) (d : Nat) (x : Dom) (i_ : Nat) : (s.setDom d x).lane i_ = s.lane i_ := rfl
@[simp] theorem lane_setPort (s : State) (n : Nat) (x : Port) (i_ : Nat) : (s.setPort n x).lane i_ = s.lane i_ := rfl
@[simp] theorem lane_setPin (s : State) (i : Nat) (x : Pin) (i_ : Nat) : (s.setPin i x).lane i_ = s.lane i_ := rfl
@[simp] theorem lane_setGrp (s : State) (i : Nat) (x : Group) (i_ : Nat) : (s.setGrp i x).lane i_ = s.lane i_ := rfl
@[simp] theorem lane_setAna (s : State) (i : Nat) (x : Ana) (i_ : Nat) : (s.setAna i x).lane i_ = s.lane i_ := rfl
@[simp] theorem lane_setSq (s : State) (i : Nat) (x : Seq) (i_ : Nat) : (s.setSq i x).lane i_ = s.lane i_ := rfl
@[simp] theorem lane_setXip (s : State) (i : Nat) (x : Xip) (i_ : Nat) : (s.setXip i x).lane i_ = s.lane i_ := rfl
@[simp] theorem lane_putBytes (s : State) (a : Nat) (bs : List Byte) (i_ : Nat) : (s.putBytes a bs).lane i_ = s.lane i_ := rfl
@[simp] theorem lane_setRegion (s : State) (r : Nat) (x : Region) (i_ : Nat) : (s.setRegion r x).lane i_ = s.lane i_ := rfl
@[simp] theorem lane_setDq (s : State) (q : Nat) (x : DQueue) (i_ : Nat) : (s.setDq q x).lane i_ = s.lane i_ := rfl
@[simp] theorem lane_setProto (s : State) (p : Nat) (x : Proto) (i_ : Nat) : (s.setProto p x).lane i_ = s.lane i_ := rfl
@[simp] theorem lane_upTo (s : State) (t i : Nat) : (s.upTo t).lane i = s.lane i := rfl
@[simp] theorem lane_settle (s u : State) (i : Nat) : (s.settle u).lane i = u.lane i := rfl
@[simp] theorem lane_raise (s : State) (p b i : Nat) : (s.raise p b).lane i = s.lane i := by
  simp [lane]
@[simp] theorem lane_raiseIf (s : State) (c : Bool) (p b i : Nat) : (s.raiseIf c p b).lane i = s.lane i := by
  simp [lane]
@[simp] theorem lane_refuse (s : State) (p : Nat) (r : Reason) (i : Nat) : (s.refuse p r).lane i = s.lane i := rfl
@[simp] theorem port_wr (s : State) (k : Nat) (v : Word) (i_ : Nat) : (s.wr k v).port i_ = s.port i_ := rfl
@[simp] theorem port_wf (s : State) (k hi lo v : Nat) (i_ : Nat) : (s.wf k hi lo v).port i_ = s.port i_ := rfl
@[simp] theorem port_wb (s : State) (k n : Nat) (b : Bool) (i_ : Nat) : (s.wb k n b).port i_ = s.port i_ := rfl
@[simp] theorem port_emit (s : State) (o : Output) (i_ : Nat) : (s.emit o).port i_ = s.port i_ := rfl
@[simp] theorem port_ret (s : State) (n : Nat) (i_ : Nat) : (s.ret n).port i_ = s.port i_ := rfl
@[simp] theorem port_answer (s : State) (r : Resp) (i_ : Nat) : (s.answer r).port i_ = s.port i_ := rfl
@[simp] theorem port_drew (s : State)  (i_ : Nat) : (s.drew).port i_ = s.port i_ := rfl
@[simp] theorem port_drewN (s : State) (n : Nat) (i_ : Nat) : (s.drewN n).port i_ = s.port i_ := rfl
@[simp] theorem port_setDom (s : State) (d : Nat) (x : Dom) (i_ : Nat) : (s.setDom d x).port i_ = s.port i_ := rfl
@[simp] theorem port_setPin (s : State) (i : Nat) (x : Pin) (i_ : Nat) : (s.setPin i x).port i_ = s.port i_ := rfl
@[simp] theorem port_setGrp (s : State) (i : Nat) (x : Group) (i_ : Nat) : (s.setGrp i x).port i_ = s.port i_ := rfl
@[simp] theorem port_setAna (s : State) (i : Nat) (x : Ana) (i_ : Nat) : (s.setAna i x).port i_ = s.port i_ := rfl
@[simp] theorem port_setSq (s : State) (i : Nat) (x : Seq) (i_ : Nat) : (s.setSq i x).port i_ = s.port i_ := rfl
@[simp] theorem port_setXip (s : State) (i : Nat) (x : Xip) (i_ : Nat) : (s.setXip i x).port i_ = s.port i_ := rfl
@[simp] theorem port_putBytes (s : State) (a : Nat) (bs : List Byte) (i_ : Nat) : (s.putBytes a bs).port i_ = s.port i_ := rfl
@[simp] theorem port_setRegion (s : State) (r : Nat) (x : Region) (i_ : Nat) : (s.setRegion r x).port i_ = s.port i_ := rfl
@[simp] theorem port_setDq (s : State) (q : Nat) (x : DQueue) (i_ : Nat) : (s.setDq q x).port i_ = s.port i_ := rfl
@[simp] theorem port_setProto (s : State) (p : Nat) (x : Proto) (i_ : Nat) : (s.setProto p x).port i_ = s.port i_ := rfl
@[simp] theorem port_setLane (s : State) (k : Nat) (x : Lane) (i_ : Nat) : (s.setLane k x).port i_ = s.port i_ := rfl
@[simp] theorem port_upTo (s : State) (t i : Nat) : (s.upTo t).port i = s.port i := rfl
@[simp] theorem port_settle (s u : State) (i : Nat) : (s.settle u).port i = u.port i := rfl
@[simp] theorem port_raise (s : State) (p b i : Nat) : (s.raise p b).port i = s.port i := by
  simp [port]
@[simp] theorem port_raiseIf (s : State) (c : Bool) (p b i : Nat) : (s.raiseIf c p b).port i = s.port i := by
  simp [port]
@[simp] theorem port_refuse (s : State) (p : Nat) (r : Reason) (i : Nat) : (s.refuse p r).port i = s.port i := rfl
@[simp] theorem rd_emit (s : State) (o : Output) (k_ : Nat) : (s.emit o).rd k_ = s.rd k_ := rfl
@[simp] theorem rf_emit (s : State) (o : Output) (k_ hi lo : Nat) : (s.emit o).rf k_ hi lo = s.rf k_ hi lo := rfl
@[simp] theorem unitState_emit (s : State) (o : Output) (p_ : Nat) : (s.emit o).unitState p_ = s.unitState p_ := rfl
@[simp] theorem inSelftest_emit (s : State) (o : Output) (p_ : Nat) : (s.emit o).inSelftest p_ = s.inSelftest p_ := rfl
@[simp] theorem isOn_emit (s : State) (o : Output) (p_ : Nat) : (s.emit o).isOn p_ = s.isOn p_ := rfl
@[simp] theorem rb_emit (s : State) (o : Output) (k_ n_ : Nat) : (s.emit o).rb k_ n_ = s.rb k_ n_ := rfl
@[simp] theorem rd_ret (s : State) (n : Nat) (k_ : Nat) : (s.ret n).rd k_ = s.rd k_ := rfl
@[simp] theorem rf_ret (s : State) (n : Nat) (k_ hi lo : Nat) : (s.ret n).rf k_ hi lo = s.rf k_ hi lo := rfl
@[simp] theorem unitState_ret (s : State) (n : Nat) (p_ : Nat) : (s.ret n).unitState p_ = s.unitState p_ := rfl
@[simp] theorem inSelftest_ret (s : State) (n : Nat) (p_ : Nat) : (s.ret n).inSelftest p_ = s.inSelftest p_ := rfl
@[simp] theorem isOn_ret (s : State) (n : Nat) (p_ : Nat) : (s.ret n).isOn p_ = s.isOn p_ := rfl
@[simp] theorem rb_ret (s : State) (n : Nat) (k_ n_ : Nat) : (s.ret n).rb k_ n_ = s.rb k_ n_ := rfl
@[simp] theorem rd_answer (s : State) (r : Resp) (k_ : Nat) : (s.answer r).rd k_ = s.rd k_ := rfl
@[simp] theorem rf_answer (s : State) (r : Resp) (k_ hi lo : Nat) : (s.answer r).rf k_ hi lo = s.rf k_ hi lo := rfl
@[simp] theorem unitState_answer (s : State) (r : Resp) (p_ : Nat) : (s.answer r).unitState p_ = s.unitState p_ := rfl
@[simp] theorem inSelftest_answer (s : State) (r : Resp) (p_ : Nat) : (s.answer r).inSelftest p_ = s.inSelftest p_ := rfl
@[simp] theorem isOn_answer (s : State) (r : Resp) (p_ : Nat) : (s.answer r).isOn p_ = s.isOn p_ := rfl
@[simp] theorem rb_answer (s : State) (r : Resp) (k_ n_ : Nat) : (s.answer r).rb k_ n_ = s.rb k_ n_ := rfl
@[simp] theorem rd_drew (s : State)  (k_ : Nat) : (s.drew).rd k_ = s.rd k_ := rfl
@[simp] theorem rf_drew (s : State)  (k_ hi lo : Nat) : (s.drew).rf k_ hi lo = s.rf k_ hi lo := rfl
@[simp] theorem unitState_drew (s : State)  (p_ : Nat) : (s.drew).unitState p_ = s.unitState p_ := rfl
@[simp] theorem inSelftest_drew (s : State)  (p_ : Nat) : (s.drew).inSelftest p_ = s.inSelftest p_ := rfl
@[simp] theorem isOn_drew (s : State)  (p_ : Nat) : (s.drew).isOn p_ = s.isOn p_ := rfl
@[simp] theorem rb_drew (s : State)  (k_ n_ : Nat) : (s.drew).rb k_ n_ = s.rb k_ n_ := rfl
@[simp] theorem rd_drewN (s : State) (n : Nat) (k_ : Nat) : (s.drewN n).rd k_ = s.rd k_ := rfl
@[simp] theorem rf_drewN (s : State) (n : Nat) (k_ hi lo : Nat) : (s.drewN n).rf k_ hi lo = s.rf k_ hi lo := rfl
@[simp] theorem unitState_drewN (s : State) (n : Nat) (p_ : Nat) : (s.drewN n).unitState p_ = s.unitState p_ := rfl
@[simp] theorem inSelftest_drewN (s : State) (n : Nat) (p_ : Nat) : (s.drewN n).inSelftest p_ = s.inSelftest p_ := rfl
@[simp] theorem isOn_drewN (s : State) (n : Nat) (p_ : Nat) : (s.drewN n).isOn p_ = s.isOn p_ := rfl
@[simp] theorem rb_drewN (s : State) (n : Nat) (k_ n_ : Nat) : (s.drewN n).rb k_ n_ = s.rb k_ n_ := rfl
@[simp] theorem rd_setDom (s : State) (d : Nat) (x : Dom) (k_ : Nat) : (s.setDom d x).rd k_ = s.rd k_ := rfl
@[simp] theorem rf_setDom (s : State) (d : Nat) (x : Dom) (k_ hi lo : Nat) : (s.setDom d x).rf k_ hi lo = s.rf k_ hi lo := rfl
@[simp] theorem unitState_setDom (s : State) (d : Nat) (x : Dom) (p_ : Nat) : (s.setDom d x).unitState p_ = s.unitState p_ := rfl
@[simp] theorem inSelftest_setDom (s : State) (d : Nat) (x : Dom) (p_ : Nat) : (s.setDom d x).inSelftest p_ = s.inSelftest p_ := rfl
@[simp] theorem isOn_setDom (s : State) (d : Nat) (x : Dom) (p_ : Nat) : (s.setDom d x).isOn p_ = s.isOn p_ := rfl
@[simp] theorem rb_setDom (s : State) (d : Nat) (x : Dom) (k_ n_ : Nat) : (s.setDom d x).rb k_ n_ = s.rb k_ n_ := rfl
@[simp] theorem rd_setPort (s : State) (n : Nat) (x : Port) (k_ : Nat) : (s.setPort n x).rd k_ = s.rd k_ := rfl
@[simp] theorem rf_setPort (s : State) (n : Nat) (x : Port) (k_ hi lo : Nat) : (s.setPort n x).rf k_ hi lo = s.rf k_ hi lo := rfl
@[simp] theorem unitState_setPort (s : State) (n : Nat) (x : Port) (p_ : Nat) : (s.setPort n x).unitState p_ = s.unitState p_ := rfl
@[simp] theorem inSelftest_setPort (s : State) (n : Nat) (x : Port) (p_ : Nat) : (s.setPort n x).inSelftest p_ = s.inSelftest p_ := rfl
@[simp] theorem isOn_setPort (s : State) (n : Nat) (x : Port) (p_ : Nat) : (s.setPort n x).isOn p_ = s.isOn p_ := rfl
@[simp] theorem rb_setPort (s : State) (n : Nat) (x : Port) (k_ n_ : Nat) : (s.setPort n x).rb k_ n_ = s.rb k_ n_ := rfl
@[simp] theorem rd_setPin (s : State) (i : Nat) (x : Pin) (k_ : Nat) : (s.setPin i x).rd k_ = s.rd k_ := rfl
@[simp] theorem rf_setPin (s : State) (i : Nat) (x : Pin) (k_ hi lo : Nat) : (s.setPin i x).rf k_ hi lo = s.rf k_ hi lo := rfl
@[simp] theorem unitState_setPin (s : State) (i : Nat) (x : Pin) (p_ : Nat) : (s.setPin i x).unitState p_ = s.unitState p_ := rfl
@[simp] theorem inSelftest_setPin (s : State) (i : Nat) (x : Pin) (p_ : Nat) : (s.setPin i x).inSelftest p_ = s.inSelftest p_ := rfl
@[simp] theorem isOn_setPin (s : State) (i : Nat) (x : Pin) (p_ : Nat) : (s.setPin i x).isOn p_ = s.isOn p_ := rfl
@[simp] theorem rb_setPin (s : State) (i : Nat) (x : Pin) (k_ n_ : Nat) : (s.setPin i x).rb k_ n_ = s.rb k_ n_ := rfl
@[simp] theorem rd_setGrp (s : State) (i : Nat) (x : Group) (k_ : Nat) : (s.setGrp i x).rd k_ = s.rd k_ := rfl
@[simp] theorem rf_setGrp (s : State) (i : Nat) (x : Group) (k_ hi lo : Nat) : (s.setGrp i x).rf k_ hi lo = s.rf k_ hi lo := rfl
@[simp] theorem unitState_setGrp (s : State) (i : Nat) (x : Group) (p_ : Nat) : (s.setGrp i x).unitState p_ = s.unitState p_ := rfl
@[simp] theorem inSelftest_setGrp (s : State) (i : Nat) (x : Group) (p_ : Nat) : (s.setGrp i x).inSelftest p_ = s.inSelftest p_ := rfl
@[simp] theorem isOn_setGrp (s : State) (i : Nat) (x : Group) (p_ : Nat) : (s.setGrp i x).isOn p_ = s.isOn p_ := rfl
@[simp] theorem rb_setGrp (s : State) (i : Nat) (x : Group) (k_ n_ : Nat) : (s.setGrp i x).rb k_ n_ = s.rb k_ n_ := rfl
@[simp] theorem rd_setAna (s : State) (i : Nat) (x : Ana) (k_ : Nat) : (s.setAna i x).rd k_ = s.rd k_ := rfl
@[simp] theorem rf_setAna (s : State) (i : Nat) (x : Ana) (k_ hi lo : Nat) : (s.setAna i x).rf k_ hi lo = s.rf k_ hi lo := rfl
@[simp] theorem unitState_setAna (s : State) (i : Nat) (x : Ana) (p_ : Nat) : (s.setAna i x).unitState p_ = s.unitState p_ := rfl
@[simp] theorem inSelftest_setAna (s : State) (i : Nat) (x : Ana) (p_ : Nat) : (s.setAna i x).inSelftest p_ = s.inSelftest p_ := rfl
@[simp] theorem isOn_setAna (s : State) (i : Nat) (x : Ana) (p_ : Nat) : (s.setAna i x).isOn p_ = s.isOn p_ := rfl
@[simp] theorem rb_setAna (s : State) (i : Nat) (x : Ana) (k_ n_ : Nat) : (s.setAna i x).rb k_ n_ = s.rb k_ n_ := rfl
@[simp] theorem rd_setSq (s : State) (i : Nat) (x : Seq) (k_ : Nat) : (s.setSq i x).rd k_ = s.rd k_ := rfl
@[simp] theorem rf_setSq (s : State) (i : Nat) (x : Seq) (k_ hi lo : Nat) : (s.setSq i x).rf k_ hi lo = s.rf k_ hi lo := rfl
@[simp] theorem unitState_setSq (s : State) (i : Nat) (x : Seq) (p_ : Nat) : (s.setSq i x).unitState p_ = s.unitState p_ := rfl
@[simp] theorem inSelftest_setSq (s : State) (i : Nat) (x : Seq) (p_ : Nat) : (s.setSq i x).inSelftest p_ = s.inSelftest p_ := rfl
@[simp] theorem isOn_setSq (s : State) (i : Nat) (x : Seq) (p_ : Nat) : (s.setSq i x).isOn p_ = s.isOn p_ := rfl
@[simp] theorem rb_setSq (s : State) (i : Nat) (x : Seq) (k_ n_ : Nat) : (s.setSq i x).rb k_ n_ = s.rb k_ n_ := rfl
@[simp] theorem rd_setXip (s : State) (i : Nat) (x : Xip) (k_ : Nat) : (s.setXip i x).rd k_ = s.rd k_ := rfl
@[simp] theorem rf_setXip (s : State) (i : Nat) (x : Xip) (k_ hi lo : Nat) : (s.setXip i x).rf k_ hi lo = s.rf k_ hi lo := rfl
@[simp] theorem unitState_setXip (s : State) (i : Nat) (x : Xip) (p_ : Nat) : (s.setXip i x).unitState p_ = s.unitState p_ := rfl
@[simp] theorem inSelftest_setXip (s : State) (i : Nat) (x : Xip) (p_ : Nat) : (s.setXip i x).inSelftest p_ = s.inSelftest p_ := rfl
@[simp] theorem isOn_setXip (s : State) (i : Nat) (x : Xip) (p_ : Nat) : (s.setXip i x).isOn p_ = s.isOn p_ := rfl
@[simp] theorem rb_setXip (s : State) (i : Nat) (x : Xip) (k_ n_ : Nat) : (s.setXip i x).rb k_ n_ = s.rb k_ n_ := rfl
@[simp] theorem rd_putBytes (s : State) (a : Nat) (bs : List Byte) (k_ : Nat) : (s.putBytes a bs).rd k_ = s.rd k_ := rfl
@[simp] theorem rf_putBytes (s : State) (a : Nat) (bs : List Byte) (k_ hi lo : Nat) : (s.putBytes a bs).rf k_ hi lo = s.rf k_ hi lo := rfl
@[simp] theorem unitState_putBytes (s : State) (a : Nat) (bs : List Byte) (p_ : Nat) : (s.putBytes a bs).unitState p_ = s.unitState p_ := rfl
@[simp] theorem inSelftest_putBytes (s : State) (a : Nat) (bs : List Byte) (p_ : Nat) : (s.putBytes a bs).inSelftest p_ = s.inSelftest p_ := rfl
@[simp] theorem isOn_putBytes (s : State) (a : Nat) (bs : List Byte) (p_ : Nat) : (s.putBytes a bs).isOn p_ = s.isOn p_ := rfl
@[simp] theorem rb_putBytes (s : State) (a : Nat) (bs : List Byte) (k_ n_ : Nat) : (s.putBytes a bs).rb k_ n_ = s.rb k_ n_ := rfl
@[simp] theorem rd_setRegion (s : State) (r : Nat) (x : Region) (k_ : Nat) : (s.setRegion r x).rd k_ = s.rd k_ := rfl
@[simp] theorem rf_setRegion (s : State) (r : Nat) (x : Region) (k_ hi lo : Nat) : (s.setRegion r x).rf k_ hi lo = s.rf k_ hi lo := rfl
@[simp] theorem unitState_setRegion (s : State) (r : Nat) (x : Region) (p_ : Nat) : (s.setRegion r x).unitState p_ = s.unitState p_ := rfl
@[simp] theorem inSelftest_setRegion (s : State) (r : Nat) (x : Region) (p_ : Nat) : (s.setRegion r x).inSelftest p_ = s.inSelftest p_ := rfl
@[simp] theorem isOn_setRegion (s : State) (r : Nat) (x : Region) (p_ : Nat) : (s.setRegion r x).isOn p_ = s.isOn p_ := rfl
@[simp] theorem rb_setRegion (s : State) (r : Nat) (x : Region) (k_ n_ : Nat) : (s.setRegion r x).rb k_ n_ = s.rb k_ n_ := rfl
@[simp] theorem rd_setDq (s : State) (q : Nat) (x : DQueue) (k_ : Nat) : (s.setDq q x).rd k_ = s.rd k_ := rfl
@[simp] theorem rf_setDq (s : State) (q : Nat) (x : DQueue) (k_ hi lo : Nat) : (s.setDq q x).rf k_ hi lo = s.rf k_ hi lo := rfl
@[simp] theorem unitState_setDq (s : State) (q : Nat) (x : DQueue) (p_ : Nat) : (s.setDq q x).unitState p_ = s.unitState p_ := rfl
@[simp] theorem inSelftest_setDq (s : State) (q : Nat) (x : DQueue) (p_ : Nat) : (s.setDq q x).inSelftest p_ = s.inSelftest p_ := rfl
@[simp] theorem isOn_setDq (s : State) (q : Nat) (x : DQueue) (p_ : Nat) : (s.setDq q x).isOn p_ = s.isOn p_ := rfl
@[simp] theorem rb_setDq (s : State) (q : Nat) (x : DQueue) (k_ n_ : Nat) : (s.setDq q x).rb k_ n_ = s.rb k_ n_ := rfl
@[simp] theorem rd_setProto (s : State) (p : Nat) (x : Proto) (k_ : Nat) : (s.setProto p x).rd k_ = s.rd k_ := rfl
@[simp] theorem rf_setProto (s : State) (p : Nat) (x : Proto) (k_ hi lo : Nat) : (s.setProto p x).rf k_ hi lo = s.rf k_ hi lo := rfl
@[simp] theorem unitState_setProto (s : State) (p : Nat) (x : Proto) (p_ : Nat) : (s.setProto p x).unitState p_ = s.unitState p_ := rfl
@[simp] theorem inSelftest_setProto (s : State) (p : Nat) (x : Proto) (p_ : Nat) : (s.setProto p x).inSelftest p_ = s.inSelftest p_ := rfl
@[simp] theorem isOn_setProto (s : State) (p : Nat) (x : Proto) (p_ : Nat) : (s.setProto p x).isOn p_ = s.isOn p_ := rfl
@[simp] theorem rb_setProto (s : State) (p : Nat) (x : Proto) (k_ n_ : Nat) : (s.setProto p x).rb k_ n_ = s.rb k_ n_ := rfl
@[simp] theorem rd_setLane (s : State) (k : Nat) (x : Lane) (k_ : Nat) : (s.setLane k x).rd k_ = s.rd k_ := rfl
@[simp] theorem rf_setLane (s : State) (k : Nat) (x : Lane) (k_ hi lo : Nat) : (s.setLane k x).rf k_ hi lo = s.rf k_ hi lo := rfl
@[simp] theorem unitState_setLane (s : State) (k : Nat) (x : Lane) (p_ : Nat) : (s.setLane k x).unitState p_ = s.unitState p_ := rfl
@[simp] theorem inSelftest_setLane (s : State) (k : Nat) (x : Lane) (p_ : Nat) : (s.setLane k x).inSelftest p_ = s.inSelftest p_ := rfl
@[simp] theorem isOn_setLane (s : State) (k : Nat) (x : Lane) (p_ : Nat) : (s.setLane k x).isOn p_ = s.isOn p_ := rfl
@[simp] theorem rb_setLane (s : State) (k : Nat) (x : Lane) (k_ n_ : Nat) : (s.setLane k x).rb k_ n_ = s.rb k_ n_ := rfl
@[simp] theorem now_judge (s : State) (v : Nat) (w : Bool) : (s.judge v w).now = s.now := by
  obtain ⟨e, o, h⟩ := judge_cases s v w; rw [h]
@[simp] theorem pending_judge (s : State) (v : Nat) (w : Bool) : (s.judge v w).pending = s.pending := by
  obtain ⟨e, o, h⟩ := judge_cases s v w; rw [h]
@[simp] theorem rdata_judge (s : State) (v : Nat) (w : Bool) : (s.judge v w).rdata = s.rdata := by
  obtain ⟨e, o, h⟩ := judge_cases s v w; rw [h]
@[simp] theorem resp_judge (s : State) (v : Nat) (w : Bool) : (s.judge v w).resp = s.resp := by
  obtain ⟨e, o, h⟩ := judge_cases s v w; rw [h]
@[simp] theorem free_judge (s : State) (v : Nat) (w : Bool) : (s.judge v w).free = s.free := by
  obtain ⟨e, o, h⟩ := judge_cases s v w; rw [h]
@[simp] theorem regs_judge (s : State) (v : Nat) (w : Bool) : (s.judge v w).regs = s.regs := by
  obtain ⟨e, o, h⟩ := judge_cases s v w; rw [h]
@[simp] theorem checks_judge (s : State) (v : Nat) (w : Bool) : (s.judge v w).checks = s.checks := by
  obtain ⟨e, o, h⟩ := judge_cases s v w; rw [h]
@[simp] theorem mem_judge (s : State) (v : Nat) (w : Bool) : (s.judge v w).mem = s.mem := by
  obtain ⟨e, o, h⟩ := judge_cases s v w; rw [h]
@[simp] theorem doms_judge (s : State) (v : Nat) (w : Bool) : (s.judge v w).doms = s.doms := by
  obtain ⟨e, o, h⟩ := judge_cases s v w; rw [h]
@[simp] theorem ctr_judge (s : State) (v : Nat) (w : Bool) : (s.judge v w).ctr = s.ctr := by
  obtain ⟨e, o, h⟩ := judge_cases s v w; rw [h]
@[simp] theorem lat_judge (s : State) (v : Nat) (w : Bool) : (s.judge v w).lat = s.lat := by
  obtain ⟨e, o, h⟩ := judge_cases s v w; rw [h]
@[simp] theorem pins_judge (s : State) (v : Nat) (w : Bool) : (s.judge v w).pins = s.pins := by
  obtain ⟨e, o, h⟩ := judge_cases s v w; rw [h]
@[simp] theorem groups_judge (s : State) (v : Nat) (w : Bool) : (s.judge v w).groups = s.groups := by
  obtain ⟨e, o, h⟩ := judge_cases s v w; rw [h]
@[simp] theorem anas_judge (s : State) (v : Nat) (w : Bool) : (s.judge v w).anas = s.anas := by
  obtain ⟨e, o, h⟩ := judge_cases s v w; rw [h]
@[simp] theorem tsets_judge (s : State) (v : Nat) (w : Bool) : (s.judge v w).tsets = s.tsets := by
  obtain ⟨e, o, h⟩ := judge_cases s v w; rw [h]
@[simp] theorem trims_judge (s : State) (v : Nat) (w : Bool) : (s.judge v w).trims = s.trims := by
  obtain ⟨e, o, h⟩ := judge_cases s v w; rw [h]
@[simp] theorem seqs_judge (s : State) (v : Nat) (w : Bool) : (s.judge v w).seqs = s.seqs := by
  obtain ⟨e, o, h⟩ := judge_cases s v w; rw [h]
@[simp] theorem xips_judge (s : State) (v : Nat) (w : Bool) : (s.judge v w).xips = s.xips := by
  obtain ⟨e, o, h⟩ := judge_cases s v w; rw [h]
@[simp] theorem pwr_judge (s : State) (v : Nat) (w : Bool) : (s.judge v w).pwr = s.pwr := by
  obtain ⟨e, o, h⟩ := judge_cases s v w; rw [h]
@[simp] theorem resetEnd_judge (s : State) (v : Nat) (w : Bool) : (s.judge v w).resetEnd = s.resetEnd := by
  obtain ⟨e, o, h⟩ := judge_cases s v w; rw [h]
@[simp] theorem regions_judge (s : State) (v : Nat) (w : Bool) : (s.judge v w).regions = s.regions := by
  obtain ⟨e, o, h⟩ := judge_cases s v w; rw [h]
@[simp] theorem undef_judge (s : State) (v : Nat) (w : Bool) : (s.judge v w).undef = s.undef := by
  obtain ⟨e, o, h⟩ := judge_cases s v w; rw [h]
@[simp] theorem blocks_judge (s : State) (v : Nat) (w : Bool) : (s.judge v w).blocks = s.blocks := by
  obtain ⟨e, o, h⟩ := judge_cases s v w; rw [h]
@[simp] theorem ledger_judge (s : State) (v : Nat) (w : Bool) : (s.judge v w).ledger = s.ledger := by
  obtain ⟨e, o, h⟩ := judge_cases s v w; rw [h]
@[simp] theorem bist_judge (s : State) (v : Nat) (w : Bool) : (s.judge v w).bist = s.bist := by
  obtain ⟨e, o, h⟩ := judge_cases s v w; rw [h]
@[simp] theorem store_judge (s : State) (v : Nat) (w : Bool) : (s.judge v w).store = s.store := by
  obtain ⟨e, o, h⟩ := judge_cases s v w; rw [h]
@[simp] theorem life_judge (s : State) (v : Nat) (w : Bool) : (s.judge v w).life = s.life := by
  obtain ⟨e, o, h⟩ := judge_cases s v w; rw [h]
@[simp] theorem jtag_judge (s : State) (v : Nat) (w : Bool) : (s.judge v w).jtag = s.jtag := by
  obtain ⟨e, o, h⟩ := judge_cases s v w; rw [h]
@[simp] theorem protos_judge (s : State) (v : Nat) (w : Bool) : (s.judge v w).protos = s.protos := by
  obtain ⟨e, o, h⟩ := judge_cases s v w; rw [h]
@[simp] theorem lanes_judge (s : State) (v : Nat) (w : Bool) : (s.judge v w).lanes = s.lanes := by
  obtain ⟨e, o, h⟩ := judge_cases s v w; rw [h]
@[simp] theorem now_refuse (s : State) (p : Nat) (r : Reason) : (s.refuse p r).now = s.now := by cases s; rfl
@[simp] theorem pending_refuse (s : State) (p : Nat) (r : Reason) : (s.refuse p r).pending = s.pending := by cases s; rfl
@[simp] theorem out_refuse (s : State) (p : Nat) (r : Reason) : (s.refuse p r).out = s.out := by cases s; rfl
@[simp] theorem rdata_refuse (s : State) (p : Nat) (r : Reason) : (s.refuse p r).rdata = s.rdata := by cases s; rfl
@[simp] theorem resp_refuse (s : State) (p : Nat) (r : Reason) : (s.refuse p r).resp = s.resp := by cases s; rfl
@[simp] theorem free_refuse (s : State) (p : Nat) (r : Reason) : (s.refuse p r).free = s.free := by cases s; rfl
@[simp] theorem checks_refuse (s : State) (p : Nat) (r : Reason) : (s.refuse p r).checks = s.checks := by cases s; rfl
@[simp] theorem mem_refuse (s : State) (p : Nat) (r : Reason) : (s.refuse p r).mem = s.mem := by cases s; rfl
@[simp] theorem doms_refuse (s : State) (p : Nat) (r : Reason) : (s.refuse p r).doms = s.doms := by cases s; rfl
@[simp] theorem ctr_refuse (s : State) (p : Nat) (r : Reason) : (s.refuse p r).ctr = s.ctr := by cases s; rfl
@[simp] theorem lat_refuse (s : State) (p : Nat) (r : Reason) : (s.refuse p r).lat = s.lat := by cases s; rfl
@[simp] theorem ep_refuse (s : State) (p : Nat) (r : Reason) : (s.refuse p r).ep = s.ep := by cases s; rfl
@[simp] theorem pins_refuse (s : State) (p : Nat) (r : Reason) : (s.refuse p r).pins = s.pins := by cases s; rfl
@[simp] theorem groups_refuse (s : State) (p : Nat) (r : Reason) : (s.refuse p r).groups = s.groups := by cases s; rfl
@[simp] theorem anas_refuse (s : State) (p : Nat) (r : Reason) : (s.refuse p r).anas = s.anas := by cases s; rfl
@[simp] theorem tsets_refuse (s : State) (p : Nat) (r : Reason) : (s.refuse p r).tsets = s.tsets := by cases s; rfl
@[simp] theorem trims_refuse (s : State) (p : Nat) (r : Reason) : (s.refuse p r).trims = s.trims := by cases s; rfl
@[simp] theorem seqs_refuse (s : State) (p : Nat) (r : Reason) : (s.refuse p r).seqs = s.seqs := by cases s; rfl
@[simp] theorem xips_refuse (s : State) (p : Nat) (r : Reason) : (s.refuse p r).xips = s.xips := by cases s; rfl
@[simp] theorem pwr_refuse (s : State) (p : Nat) (r : Reason) : (s.refuse p r).pwr = s.pwr := by cases s; rfl
@[simp] theorem resetEnd_refuse (s : State) (p : Nat) (r : Reason) : (s.refuse p r).resetEnd = s.resetEnd := by cases s; rfl
@[simp] theorem regions_refuse (s : State) (p : Nat) (r : Reason) : (s.refuse p r).regions = s.regions := by cases s; rfl
@[simp] theorem undef_refuse (s : State) (p : Nat) (r : Reason) : (s.refuse p r).undef = s.undef := by cases s; rfl
@[simp] theorem blocks_refuse (s : State) (p : Nat) (r : Reason) : (s.refuse p r).blocks = s.blocks := by cases s; rfl
@[simp] theorem ledger_refuse (s : State) (p : Nat) (r : Reason) : (s.refuse p r).ledger = s.ledger := by cases s; rfl
@[simp] theorem bist_refuse (s : State) (p : Nat) (r : Reason) : (s.refuse p r).bist = s.bist := by cases s; rfl
@[simp] theorem store_refuse (s : State) (p : Nat) (r : Reason) : (s.refuse p r).store = s.store := by cases s; rfl
@[simp] theorem life_refuse (s : State) (p : Nat) (r : Reason) : (s.refuse p r).life = s.life := by cases s; rfl
@[simp] theorem jtag_refuse (s : State) (p : Nat) (r : Reason) : (s.refuse p r).jtag = s.jtag := by cases s; rfl
@[simp] theorem protos_refuse (s : State) (p : Nat) (r : Reason) : (s.refuse p r).protos = s.protos := by cases s; rfl
@[simp] theorem lanes_refuse (s : State) (p : Nat) (r : Reason) : (s.refuse p r).lanes = s.lanes := by cases s; rfl
@[simp] theorem now_setUnitState (s : State) (p v : Nat) : (s.setUnitState p v).now = s.now := by cases s; rfl
@[simp] theorem pending_setUnitState (s : State) (p v : Nat) : (s.setUnitState p v).pending = s.pending := by cases s; rfl
@[simp] theorem out_setUnitState (s : State) (p v : Nat) : (s.setUnitState p v).out = s.out := by cases s; rfl
@[simp] theorem rdata_setUnitState (s : State) (p v : Nat) : (s.setUnitState p v).rdata = s.rdata := by cases s; rfl
@[simp] theorem resp_setUnitState (s : State) (p v : Nat) : (s.setUnitState p v).resp = s.resp := by cases s; rfl
@[simp] theorem free_setUnitState (s : State) (p v : Nat) : (s.setUnitState p v).free = s.free := by cases s; rfl
@[simp] theorem checks_setUnitState (s : State) (p v : Nat) : (s.setUnitState p v).checks = s.checks := by cases s; rfl
@[simp] theorem mem_setUnitState (s : State) (p v : Nat) : (s.setUnitState p v).mem = s.mem := by cases s; rfl
@[simp] theorem doms_setUnitState (s : State) (p v : Nat) : (s.setUnitState p v).doms = s.doms := by cases s; rfl
@[simp] theorem ctr_setUnitState (s : State) (p v : Nat) : (s.setUnitState p v).ctr = s.ctr := by cases s; rfl
@[simp] theorem lat_setUnitState (s : State) (p v : Nat) : (s.setUnitState p v).lat = s.lat := by cases s; rfl
@[simp] theorem ep_setUnitState (s : State) (p v : Nat) : (s.setUnitState p v).ep = s.ep := by cases s; rfl
@[simp] theorem pins_setUnitState (s : State) (p v : Nat) : (s.setUnitState p v).pins = s.pins := by cases s; rfl
@[simp] theorem groups_setUnitState (s : State) (p v : Nat) : (s.setUnitState p v).groups = s.groups := by cases s; rfl
@[simp] theorem anas_setUnitState (s : State) (p v : Nat) : (s.setUnitState p v).anas = s.anas := by cases s; rfl
@[simp] theorem tsets_setUnitState (s : State) (p v : Nat) : (s.setUnitState p v).tsets = s.tsets := by cases s; rfl
@[simp] theorem trims_setUnitState (s : State) (p v : Nat) : (s.setUnitState p v).trims = s.trims := by cases s; rfl
@[simp] theorem seqs_setUnitState (s : State) (p v : Nat) : (s.setUnitState p v).seqs = s.seqs := by cases s; rfl
@[simp] theorem xips_setUnitState (s : State) (p v : Nat) : (s.setUnitState p v).xips = s.xips := by cases s; rfl
@[simp] theorem pwr_setUnitState (s : State) (p v : Nat) : (s.setUnitState p v).pwr = s.pwr := by cases s; rfl
@[simp] theorem resetEnd_setUnitState (s : State) (p v : Nat) : (s.setUnitState p v).resetEnd = s.resetEnd := by cases s; rfl
@[simp] theorem regions_setUnitState (s : State) (p v : Nat) : (s.setUnitState p v).regions = s.regions := by cases s; rfl
@[simp] theorem undef_setUnitState (s : State) (p v : Nat) : (s.setUnitState p v).undef = s.undef := by cases s; rfl
@[simp] theorem blocks_setUnitState (s : State) (p v : Nat) : (s.setUnitState p v).blocks = s.blocks := by cases s; rfl
@[simp] theorem ledger_setUnitState (s : State) (p v : Nat) : (s.setUnitState p v).ledger = s.ledger := by cases s; rfl
@[simp] theorem bist_setUnitState (s : State) (p v : Nat) : (s.setUnitState p v).bist = s.bist := by cases s; rfl
@[simp] theorem store_setUnitState (s : State) (p v : Nat) : (s.setUnitState p v).store = s.store := by cases s; rfl
@[simp] theorem life_setUnitState (s : State) (p v : Nat) : (s.setUnitState p v).life = s.life := by cases s; rfl
@[simp] theorem jtag_setUnitState (s : State) (p v : Nat) : (s.setUnitState p v).jtag = s.jtag := by cases s; rfl
@[simp] theorem protos_setUnitState (s : State) (p v : Nat) : (s.setUnitState p v).protos = s.protos := by cases s; rfl
@[simp] theorem lanes_setUnitState (s : State) (p v : Nat) : (s.setUnitState p v).lanes = s.lanes := by cases s; rfl
@[simp] theorem pending_upTo (s : State) (t : Nat) : (s.upTo t).pending = s.pending := rfl
@[simp] theorem out_upTo (s : State) (t : Nat) : (s.upTo t).out = s.out := rfl
@[simp] theorem rdata_upTo (s : State) (t : Nat) : (s.upTo t).rdata = s.rdata := rfl
@[simp] theorem resp_upTo (s : State) (t : Nat) : (s.upTo t).resp = s.resp := rfl
@[simp] theorem free_upTo (s : State) (t : Nat) : (s.upTo t).free = s.free := rfl
@[simp] theorem regs_upTo (s : State) (t : Nat) : (s.upTo t).regs = s.regs := rfl
@[simp] theorem checks_upTo (s : State) (t : Nat) : (s.upTo t).checks = s.checks := rfl
@[simp] theorem mem_upTo (s : State) (t : Nat) : (s.upTo t).mem = s.mem := rfl
@[simp] theorem doms_upTo (s : State) (t : Nat) : (s.upTo t).doms = s.doms := rfl
@[simp] theorem ctr_upTo (s : State) (t : Nat) : (s.upTo t).ctr = s.ctr := rfl
@[simp] theorem lat_upTo (s : State) (t : Nat) : (s.upTo t).lat = s.lat := rfl
@[simp] theorem ep_upTo (s : State) (t : Nat) : (s.upTo t).ep = s.ep := rfl
@[simp] theorem pins_upTo (s : State) (t : Nat) : (s.upTo t).pins = s.pins := rfl
@[simp] theorem groups_upTo (s : State) (t : Nat) : (s.upTo t).groups = s.groups := rfl
@[simp] theorem anas_upTo (s : State) (t : Nat) : (s.upTo t).anas = s.anas := rfl
@[simp] theorem tsets_upTo (s : State) (t : Nat) : (s.upTo t).tsets = s.tsets := rfl
@[simp] theorem trims_upTo (s : State) (t : Nat) : (s.upTo t).trims = s.trims := rfl
@[simp] theorem seqs_upTo (s : State) (t : Nat) : (s.upTo t).seqs = s.seqs := rfl
@[simp] theorem xips_upTo (s : State) (t : Nat) : (s.upTo t).xips = s.xips := rfl
@[simp] theorem pwr_upTo (s : State) (t : Nat) : (s.upTo t).pwr = s.pwr := rfl
@[simp] theorem resetEnd_upTo (s : State) (t : Nat) : (s.upTo t).resetEnd = s.resetEnd := rfl
@[simp] theorem regions_upTo (s : State) (t : Nat) : (s.upTo t).regions = s.regions := rfl
@[simp] theorem undef_upTo (s : State) (t : Nat) : (s.upTo t).undef = s.undef := rfl
@[simp] theorem blocks_upTo (s : State) (t : Nat) : (s.upTo t).blocks = s.blocks := rfl
@[simp] theorem ledger_upTo (s : State) (t : Nat) : (s.upTo t).ledger = s.ledger := rfl
@[simp] theorem bist_upTo (s : State) (t : Nat) : (s.upTo t).bist = s.bist := rfl
@[simp] theorem store_upTo (s : State) (t : Nat) : (s.upTo t).store = s.store := rfl
@[simp] theorem life_upTo (s : State) (t : Nat) : (s.upTo t).life = s.life := rfl
@[simp] theorem jtag_upTo (s : State) (t : Nat) : (s.upTo t).jtag = s.jtag := rfl
@[simp] theorem protos_upTo (s : State) (t : Nat) : (s.upTo t).protos = s.protos := rfl
@[simp] theorem lanes_upTo (s : State) (t : Nat) : (s.upTo t).lanes = s.lanes := rfl
@[simp] theorem out_settle (s u : State) : (s.settle u).out = u.out := rfl
@[simp] theorem rdata_settle (s u : State) : (s.settle u).rdata = u.rdata := rfl
@[simp] theorem resp_settle (s u : State) : (s.settle u).resp = u.resp := rfl
@[simp] theorem free_settle (s u : State) : (s.settle u).free = u.free := rfl
@[simp] theorem regs_settle (s u : State) : (s.settle u).regs = u.regs := rfl
@[simp] theorem checks_settle (s u : State) : (s.settle u).checks = u.checks := rfl
@[simp] theorem mem_settle (s u : State) : (s.settle u).mem = u.mem := rfl
@[simp] theorem doms_settle (s u : State) : (s.settle u).doms = u.doms := rfl
@[simp] theorem ctr_settle (s u : State) : (s.settle u).ctr = u.ctr := rfl
@[simp] theorem lat_settle (s u : State) : (s.settle u).lat = u.lat := rfl
@[simp] theorem ep_settle (s u : State) : (s.settle u).ep = u.ep := rfl
@[simp] theorem pins_settle (s u : State) : (s.settle u).pins = u.pins := rfl
@[simp] theorem groups_settle (s u : State) : (s.settle u).groups = u.groups := rfl
@[simp] theorem anas_settle (s u : State) : (s.settle u).anas = u.anas := rfl
@[simp] theorem tsets_settle (s u : State) : (s.settle u).tsets = u.tsets := rfl
@[simp] theorem trims_settle (s u : State) : (s.settle u).trims = u.trims := rfl
@[simp] theorem seqs_settle (s u : State) : (s.settle u).seqs = u.seqs := rfl
@[simp] theorem xips_settle (s u : State) : (s.settle u).xips = u.xips := rfl
@[simp] theorem pwr_settle (s u : State) : (s.settle u).pwr = u.pwr := rfl
@[simp] theorem resetEnd_settle (s u : State) : (s.settle u).resetEnd = u.resetEnd := rfl
@[simp] theorem regions_settle (s u : State) : (s.settle u).regions = u.regions := rfl
@[simp] theorem undef_settle (s u : State) : (s.settle u).undef = u.undef := rfl
@[simp] theorem blocks_settle (s u : State) : (s.settle u).blocks = u.blocks := rfl
@[simp] theorem ledger_settle (s u : State) : (s.settle u).ledger = u.ledger := rfl
@[simp] theorem bist_settle (s u : State) : (s.settle u).bist = u.bist := rfl
@[simp] theorem store_settle (s u : State) : (s.settle u).store = u.store := rfl
@[simp] theorem life_settle (s u : State) : (s.settle u).life = u.life := rfl
@[simp] theorem jtag_settle (s u : State) : (s.settle u).jtag = u.jtag := rfl
@[simp] theorem protos_settle (s u : State) : (s.settle u).protos = u.protos := rfl
@[simp] theorem lanes_settle (s u : State) : (s.settle u).lanes = u.lanes := rfl

@[simp] theorem rd_judge (s : State) (v : Nat) (w : Bool) (k : Nat) : (s.judge v w).rd k = s.rd k := by
  obtain ⟨e, o, h⟩ := judge_cases s v w
  rw [h]; rfl

/-- What a register reads after an event was raised. -/
theorem rd_raise (s : State) (p b k : Nat) : (s.raise p b).rd k =
    if s.inSelftest p then s.rd k else if k = reg p oEvent then setBit (s.rd k) b true else s.rd k := by
  rcases raise_cases s p b with ⟨h1, h2⟩ | ⟨h1, c, e, o, h2⟩
  · simp [h1, h2]
  · rw [h2]; simp only [h1, Bool.false_eq_true, if_false]
    refine (rd_congr (t := s.wb (reg p oEvent) b true) rfl k).trans ?_
    unfold wb; rw [rd_wr]; split <;> simp_all

end Machine.State

end Sys2Proof
end

