-- ==== Sys2Proof/Laws/Pages.lean ====
section
/-! SUPPORT. Laws/Pages.lean: the directory row of each page (Table 16.1). -/
namespace Sys2Proof.Machine

@[simp] theorem blockRow_pRecord (i : Fin 8) : blockRow (pRecord i) = some (.record, 16) := by revert i; decide
@[simp] theorem blockOf_pRecord (i : Fin 8) : blockOf (pRecord i) = some .record := by simp [blockOf]
@[simp] theorem pRecord_sub (i : Nat) : pRecord i - 16 = i := by unfold pRecord; omega
@[simp] theorem blockRow_pDom (i : Fin 16) : blockRow (pDom i) = some (.domain, 32) := by revert i; decide
@[simp] theorem blockOf_pDom (i : Fin 16) : blockOf (pDom i) = some .domain := by simp [blockOf]
@[simp] theorem pDom_sub (i : Nat) : pDom i - 32 = i := by unfold pDom; omega
@[simp] theorem blockRow_pPort (i : Fin 8) : blockRow (pPort i) = some (.port, 49) := by revert i; decide
@[simp] theorem blockOf_pPort (i : Fin 8) : blockOf (pPort i) = some .port := by simp [blockOf]
@[simp] theorem pPort_sub (i : Nat) : pPort i - 49 = i := by unfold pPort; omega
@[simp] theorem blockRow_pUlane (i : Fin 16) : blockRow (pUlane i) = some (.ulane, 64) := by revert i; decide
@[simp] theorem blockOf_pUlane (i : Fin 16) : blockOf (pUlane i) = some .ulane := by simp [blockOf]
@[simp] theorem pUlane_sub (i : Nat) : pUlane i - 64 = i := by unfold pUlane; omega
@[simp] theorem blockRow_pEth (i : Fin 8) : blockRow (pEth i) = some (.eth, 168) := by revert i; decide
@[simp] theorem blockOf_pEth (i : Fin 8) : blockOf (pEth i) = some .eth := by simp [blockOf]
@[simp] theorem pEth_sub (i : Nat) : pEth i - 168 = i := by unfold pEth; omega
@[simp] theorem blockRow_pReg (i : Fin 96) : blockRow (pReg i) = some (.region, 256) := by revert i; decide
@[simp] theorem blockOf_pReg (i : Fin 96) : blockOf (pReg i) = some .region := by simp [blockOf]
@[simp] theorem pReg_sub (i : Nat) : pReg i - 256 = i := by unfold pReg; omega
@[simp] theorem blockRow_pGrp (i : Fin 48) : blockRow (pGrp i) = some (.pingroup, 352) := by revert i; decide
@[simp] theorem blockOf_pGrp (i : Fin 48) : blockOf (pGrp i) = some .pingroup := by simp [blockOf]
@[simp] theorem pGrp_sub (i : Nat) : pGrp i - 352 = i := by unfold pGrp; omega
@[simp] theorem blockRow_pSeq (i : Fin 48) : blockRow (pSeq i) = some (.seq, 400) := by revert i; decide
@[simp] theorem blockOf_pSeq (i : Fin 48) : blockOf (pSeq i) = some .seq := by simp [blockOf]
@[simp] theorem pSeq_sub (i : Nat) : pSeq i - 400 = i := by unfold pSeq; omega
@[simp] theorem blockRow_pAna (i : Fin 48) : blockRow (pAna i) = some (.analog, 448) := by revert i; decide
@[simp] theorem blockOf_pAna (i : Fin 48) : blockOf (pAna i) = some .analog := by simp [blockOf]
@[simp] theorem pAna_sub (i : Nat) : pAna i - 448 = i := by unfold pAna; omega
@[simp] theorem blockRow_pStw : blockRow pStw = some (.steward, 1) := by decide
@[simp] theorem blockOf_pStw : blockOf pStw = some .steward := by decide
@[simp] theorem blockRow_pLedger : blockRow pLedger = some (.ledger, 2) := by decide
@[simp] theorem blockOf_pLedger : blockOf pLedger = some .ledger := by decide
@[simp] theorem blockRow_pLife : blockRow pLife = some (.lifecycle, 3) := by decide
@[simp] theorem blockOf_pLife : blockOf pLife = some .lifecycle := by decide
@[simp] theorem blockRow_pSec : blockRow pSec = some (.security, 4) := by decide
@[simp] theorem blockOf_pSec : blockOf pSec = some .security := by decide
@[simp] theorem blockRow_pPower : blockRow pPower = some (.power, 5) := by decide
@[simp] theorem blockOf_pPower : blockOf pPower = some .power := by decide
@[simp] theorem blockRow_pBist : blockRow pBist = some (.bist, 6) := by decide
@[simp] theorem blockOf_pBist : blockOf pBist = some .bist := by decide
@[simp] theorem blockRow_pCnt : blockRow pCnt = some (.counterDump, 7) := by decide
@[simp] theorem blockOf_pCnt : blockOf pCnt = some .counterDump := by decide
@[simp] theorem blockRow_pStore : blockRow pStore = some (.store, 8) := by decide
@[simp] theorem blockOf_pStore : blockOf pStore = some .store := by decide
@[simp] theorem blockRow_pRec : blockRow pRec = some (.flashRecovery, 9) := by decide
@[simp] theorem blockOf_pRec : blockOf pRec = some .flashRecovery := by decide
@[simp] theorem blockRow_pImg : blockRow pImg = some (.image, 10) := by decide
@[simp] theorem blockOf_pImg : blockOf pImg = some .image := by decide
@[simp] theorem blockRow_pCar : blockRow pCar = some (.carillon, 48) := by decide
@[simp] theorem blockOf_pCar : blockOf pCar = some .carillon := by decide
@[simp] theorem blockRow_pRtr : blockRow pRtr = some (.router, 57) := by decide
@[simp] theorem blockOf_pRtr : blockOf pRtr = some .router := by decide
@[simp] theorem blockRow_pPcie : blockRow pPcie = some (.pcie, 58) := by decide
@[simp] theorem blockOf_pPcie : blockOf pPcie = some .pcie := by decide

end Sys2Proof.Machine
end

