-- ==== Sys2Proof/Laws/Gate.lean ====
section
/-! SUPPORT. Laws/Gate.lean: an agent's write that takes place reaches the header or the page's own registers. -/
namespace Sys2Proof.Machine

theorem Opens.ofUpTo {a : Agent} {p t : Nat} {s : State} (h : Opens a p (s.upTo t)) : Opens a p s := h

theorem Opens.upTo {a : Agent} {p : Nat} (t : Nat) {s : State} (h : Opens a p s) : Opens a p (s.upTo t) := h

theorem Opens.granted {a : Agent} {p : Nat} {s : State} (h : Opens a p s) : granted a p s = true := h.2.1

/-- A write that prevails has its effect, and its place in the order is kept. -/
theorem ordered_prevails {a : Agent} {p off : Nat} {f : State → State} {s : State} (h : Prevails a p off s) :
    ordered a p off f s = f s ∨ ∃ k n, ordered a p off f s = (f s).take k pageCycle n := by
  unfold Prevails at h
  unfold ordered
  cases e : orderPlace a p off with
  | none => exact .inl rfl
  | some x =>
    obtain ⟨k, n⟩ := x
    have := h (k, n) (by simp [e])
    simp only at this ⊢
    simp only [this]
    by_cases hn : n = 0
    · exact .inl (by simp [hn])
    · exact .inr ⟨k, n, by simp [hn]⟩

/-- A write by the host that prevails has its effect. -/
theorem ordered_host {p off : Nat} {f : State → State} {s : State} (h : Prevails .host p off s) :
    ordered .host p off f s = f s := by
  unfold Prevails at h
  unfold ordered
  revert h
  unfold orderPlace
  split <;> simp_all

/-- A write that another of its page-clock cycle has overtaken leaves nothing. -/
theorem ordered_overtaken {a : Agent} {p off k n : Nat} {f : State → State} {s : State}
    (h : orderPlace a p off = some (k, n)) (h2 : s.outranked k n = true) : ordered a p off f s = s := by
  simp [ordered, h, h2]

/-- A register write that takes place. -/
theorem regWrite_open {a : Agent} {p off : Nat} {v : Word} {s : State} (h : Opens a p s) (ho : off < 4096)
    (h4 : off % 4 = 0) : State.regWrite a p off v s =
      if off < 0x40 then
        (if privileged a then ordered a p off (State.headerWrite p off v) (s.answer .ok) else s.answer .denied)
      else ordered a p off (State.pageWrite a p off v) (s.answer .ok) := by
  obtain ⟨h1, h2, h3⟩ := h
  have hd : ((decide (p = pLife) || decide (p = pSec)) && s.lifeDenies a) = false := by
    by_cases h : p = pLife ∨ p = pSec
    · simp [h3 h]
    · simp at h; simp [h]
  have hb : (blockOf p).isNone = false := by cases h : blockOf p <;> simp_all
  unfold State.regWrite
  rw [if_neg (by simp [hb, h4]; omega)]
  simp only [State.pageGate, hd, gateW_open h2]
  split <;> simp

/-- A write to the common header that takes place. -/
theorem regWrite_header {a : Agent} {p off : Nat} {v : Word} {s : State} (h : Opens a p s) (hp : privileged a = true)
    (ho : off < 0x40) (h4 : off % 4 = 0) :
    State.regWrite a p off v s = ordered a p off (State.headerWrite p off v) (s.answer .ok) := by
  rw [regWrite_open h (by omega) h4, if_pos ho, if_pos hp]

/-- A write to a page's own registers that takes place. -/
theorem regWrite_page {a : Agent} {p off : Nat} {v : Word} {s : State} (h : Opens a p s)
    (ho : 0x40 ≤ off) (ho2 : off < 4096) (h4 : off % 4 = 0) :
    State.regWrite a p off v s = ordered a p off (State.pageWrite a p off v) (s.answer .ok) := by
  rw [regWrite_open h ho2 h4, if_neg (by omega)]

theorem State.unitState_congr {s u : State} {p : Nat} (h : u.rd (reg p oStatus) = s.rd (reg p oStatus)) :
    u.unitState p = s.unitState p := by unfold State.unitState State.rf; rw [h]

theorem State.enZero_congr {s u : State} {p : Nat} (h : u.unitState p = s.unitState p) : u.enZero p = s.enZero p := by
  unfold State.enZero; rw [h]

@[simp] theorem State.unitState_setUnitState (s : State) (p v : Nat) : (s.setUnitState p v).unitState p = v % 16 := by
  simp [State.unitState, State.setUnitState, State.wf, State.rf, fld_setFld]

@[simp] theorem State.unitState_refuse (s : State) (p : Nat) (r : Reason) : (s.refuse p r).unitState p = s.unitState p := by
  simp [State.unitState, State.refuse, State.wf, State.rf]

@[simp] theorem State.refuse_code (s : State) (p : Nat) (r : Reason) :
    (s.refuse p r).rf (reg p oStatus) 15 8 = r.code := by
  simp [State.refuse, State.wf, State.rf, fld_setFld]; cases r <;> decide

@[simp] theorem State.unitState_wr (s : State) (p q off : Nat) (v : Word) (h : off ≠ 0x00C) (h2 : off < 4096) :
    (s.wr (reg q off) v).unitState p = s.unitState p := by
  refine State.unitState_congr (State.rd_wr_ne _ _ _ _ fun e => ?_)
  rw [reg_eq_page (by decide) h2] at e
  exact h e.2.symm

@[simp] theorem State.unitState_wb (s : State) (p q off n : Nat) (b : Bool) (h : off ≠ 0x00C) (h2 : off < 4096) :
    (s.wb (reg q off) n b).unitState p = s.unitState p := State.unitState_wr _ _ _ _ _ h h2

@[simp] theorem State.unitState_wf (s : State) (p q off hi lo v : Nat) (h : off ≠ 0x00C) (h2 : off < 4096) :
    (s.wf (reg q off) hi lo v).unitState p = s.unitState p := State.unitState_wr _ _ _ _ _ h h2

/-- A write of CTRL that only stores touches CTRL alone. -/
theorem ctrlStores_only (p : Nat) (v : Word) (s : State) : Only [reg p oCtrl] [] s (State.ctrlStores p v s) := by
  unfold State.ctrlStores State.ctrlStore
  split
  · exact Only.refl.wr (by simp)
  · exact (Only.refl.wr (by simp)).wb (by simp)

@[simp] theorem State.unitState_ctrlStores (p : Nat) (v : Word) (s : State) :
    (State.ctrlStores p v s).unitState p = s.unitState p :=
  State.unitState_congr ((ctrlStores_only p v s).1 _ (by simp [oCtrl, oStatus]))

@[simp] theorem State.unitState_raise (s : State) (p b q : Nat) : (s.raise p b).unitState q = s.unitState q := by
  refine State.unitState_congr (State.rd_raise_ne _ _ _ _ fun e => ?_)
  rw [reg_eq_page (by decide) (by decide)] at e
  exact absurd e.2 (by decide)

@[simp] theorem State.unitState_raiseIf (s : State) (c : Bool) (p b q : Nat) :
    (s.raiseIf c p b).unitState q = s.unitState q := by unfold State.raiseIf; split <;> simp

@[simp] theorem State.isOn_raise (s : State) (p b q : Nat) : (s.raise p b).isOn q = s.isOn q := by simp [State.isOn]
@[simp] theorem State.isOn_raiseIf (s : State) (c : Bool) (p b q : Nat) : (s.raiseIf c p b).isOn q = s.isOn q := by
  simp [State.isOn]
@[simp] theorem State.inSelftest_raise (s : State) (p b q : Nat) : (s.raise p b).inSelftest q = s.inSelftest q := by
  simp [State.inSelftest]
@[simp] theorem State.inSelftest_raiseIf (s : State) (c : Bool) (p b q : Nat) :
    (s.raiseIf c p b).inSelftest q = s.inSelftest q := by simp [State.inSelftest]
@[simp] theorem State.inSelftest_wr (s : State) (p q off : Nat) (v : Word) (h : off ≠ 0x00C) (h2 : off < 4096) :
    (s.wr (reg q off) v).inSelftest p = s.inSelftest p := by simp [State.inSelftest, h, h2]
@[simp] theorem State.inSelftest_wf (s : State) (p q off hi lo v : Nat) (h : off ≠ 0x00C) (h2 : off < 4096) :
    (s.wf (reg q off) hi lo v).inSelftest p = s.inSelftest p := by simp [State.inSelftest, h, h2]
@[simp] theorem State.inSelftest_wb (s : State) (p q off n : Nat) (b : Bool) (h : off ≠ 0x00C) (h2 : off < 4096) :
    (s.wb (reg q off) n b).inSelftest p = s.inSelftest p := by simp [State.inSelftest, h, h2]
@[simp] theorem State.inSelftest_refuse (s : State) (p : Nat) (r : Reason) (q : Nat) :
    (s.refuse p r).inSelftest q = s.inSelftest q := by
  unfold State.inSelftest
  by_cases h : p = q
  · subst h; simp
  · rw [State.unitState_congr (s := s)]
    refine State.rd_wf_ne _ _ _ _ _ _ fun e => ?_
    rw [reg_eq_page (by decide) (by decide)] at e
    exact h e.1.symm

/-- A unit that is ON is not under self-test. -/
theorem State.inSelftest_of_isOn {s : State} {p : Nat} (h : s.isOn p = true) : s.inSelftest p = false := by
  unfold State.isOn at h; unfold State.inSelftest
  simp at h; simp [h]

/-- A bit of EVENT after an event of the page was raised. -/
theorem State.rb_raise (s : State) (p b n : Nat) (hb : b < 32) :
    (s.raise p b).rb (reg p 0x010) n = (s.rb (reg p 0x010) n || (!s.inSelftest p && decide (n = b))) := by
  unfold State.rb
  have e : reg p 0x010 = reg p oEvent := rfl
  rw [State.rd_raise, e]
  by_cases h : s.inSelftest p = true
  · simp [h]
  · simp only [h]
    by_cases h2 : n = b
    · subst h2; simp [bit_setBit _ _ _ hb]
    · simp [h2, bit_setBit_ne _ _ _ _ hb h2]

theorem State.rb_raiseIf (s : State) (c : Bool) (p b n : Nat) (hb : b < 32) :
    (s.raiseIf c p b).rb (reg p 0x010) n = (s.rb (reg p 0x010) n || (c && !s.inSelftest p && decide (n = b))) := by
  unfold State.raiseIf
  cases c <;> simp [State.rb_raise _ _ _ _ hb]

/-- A bit of another register after an event was raised. -/
theorem State.rb_raise_ne (s : State) (p b k n : Nat) (h : k ≠ reg p 0x010) : (s.raise p b).rb k n = s.rb k n := by
  unfold State.rb; rw [State.rd_raise_ne _ _ _ _ h]

theorem State.rf_raise_ne (s : State) (p b k hi lo : Nat) (h : k ≠ reg p 0x010) :
    (s.raise p b).rf k hi lo = s.rf k hi lo := by
  unfold State.rf; rw [State.rd_raise_ne _ _ _ _ h]

theorem State.rb_wr_ne (s : State) (k j n : Nat) (v : Word) (h : j ≠ k) : (s.wr k v).rb j n = s.rb j n := by
  unfold State.rb; rw [State.rd_wr_ne _ _ _ _ h]

theorem State.rf_wr_ne (s : State) (k j hi lo : Nat) (v : Word) (h : j ≠ k) : (s.wr k v).rf j hi lo = s.rf j hi lo := by
  unfold State.rf; rw [State.rd_wr_ne _ _ _ _ h]

/-- A bit after a bit was written. -/
theorem State.rb_wb (s : State) (k j n m : Nat) (b : Bool) (hn : n < 32) :
    (s.wb k n b).rb j m = if j = k ∧ m = n then b else s.rb j m := by
  unfold State.rb State.wb
  rw [State.rd_wr]
  by_cases h : j = k
  · by_cases h2 : m = n
    · subst h h2; simp [bit_setBit _ _ _ hn]
    · subst h; simp [h2, bit_setBit_ne _ _ _ _ hn h2]
  · simp [h]

/-- A bit after a field that does not hold it was written. -/
theorem State.rb_wf (s : State) (k j hi lo v m : Nat) (h : lo ≤ hi) (h2 : hi < 32) (h3 : j ≠ k ∨ m < lo ∨ hi < m) :
    (s.wf k hi lo v).rb j m = s.rb j m := by
  unfold State.rb State.wf
  rw [State.rd_wr]
  by_cases e : j = k
  · subst e
    rcases h3 with h3 | h3
    · exact absurd rfl h3
    · simp [bit_setFld_ne _ _ _ _ _ h h2 h3]
  · simp [e]

/-- A field after a field that lies apart from it was written. -/
theorem State.rf_wf_ne (s : State) (k j hi lo v hi2 lo2 : Nat) (h : lo ≤ hi) (h2 : hi < 32)
    (h3 : j ≠ k ∨ hi < lo2 ∨ hi2 < lo) : (s.wf k hi lo v).rf j hi2 lo2 = s.rf j hi2 lo2 := by
  unfold State.rf State.wf
  rw [State.rd_wr]
  by_cases e : j = k
  · subst e
    rcases h3 with h3 | h3
    · exact absurd rfl h3
    · simp [fld_setFld_ne _ _ _ _ _ _ h h2 h3]
  · simp [e]

/-- A field after a bit that lies apart from it was written. -/
theorem State.rf_wb_ne (s : State) (k j n hi lo : Nat) (b : Bool) (h : n < 32) (h3 : j ≠ k ∨ hi < n ∨ n < lo) :
    (s.wb k n b).rf j hi lo = s.rf j hi lo := by
  refine State.rf_wf_ne s k j n n _ hi lo (Nat.le_refl n) h ?_
  rcases h3 with h3 | h3
  · exact .inl h3
  · exact .inr h3.symm

@[simp] theorem State.rd_unchecked (s : State) (p k : Nat) : (s.unchecked p).rd k = s.rd k := rfl

end Sys2Proof.Machine

/-- The end of a check leaves the registers as they are. -/
theorem Sys2Proof.Only.unchecked {ks : List Nat} {ps : List Sys2Proof.Part} {s u : Sys2Proof.Machine.State} {p : Nat}
    (h : Sys2Proof.Only ks ps s u) (hp : Sys2Proof.Part.checks ∈ ps) : Sys2Proof.Only ks ps s (u.unchecked p) :=
  h.with_checks hp
end

