-- ==== Sys2Proof/Laws/Memory.lean ====
section
/-! SUPPORT. Laws/Memory.lean: which operations leave the BAR2 memories as they are, one lemma for each, in the order
of the model's files. -/
namespace Sys2Proof.Machine
open State

@[simp] theorem mem_ite (c : Prop) [Decidable c] (a b : State) : (if c then a else b).mem = if c then a.mem else b.mem := by
  split <;> rfl
@[simp] theorem mem_when (c : Bool) (f : State → State) (s : State) (h : ∀ z : State, (f z).mem = z.mem) :
    (when c f s).mem = s.mem := by unfold when; split <;> simp [h]
@[simp] theorem mem_forEach {α : Type} (l : List α) (f : α → State → State) (s : State)
    (h : ∀ a (z : State), (f a z).mem = z.mem) : (forEach l f s).mem = s.mem := by
  unfold forEach
  induction l generalizing s with
  | nil => rfl
  | cons a r ih => simp [List.foldl_cons, ih, h]

@[simp] theorem mem_of_State_keepUntil (s : State) (k t : Nat) (w : Word) :
    (State.keepUntil s k t w).mem = s.mem := by unfold State.keepUntil; simp

@[simp] theorem mem_of_State_wrFrom (s : State) (k t : Nat) (v : Word) :
    (State.wrFrom s k t v).mem = s.mem := by unfold State.wrFrom; simp

@[simp] theorem mem_of_State_setUnitState (s : State) (p v : Nat) :
    (State.setUnitState s p v).mem = s.mem := by unfold State.setUnitState; simp

@[simp] theorem mem_of_State_refuse (s : State) (p : Nat) (r : Reason) :
    (State.refuse s p r).mem = s.mem := by unfold State.refuse; simp

@[simp] theorem mem_of_State_upTo (s : State) (t : Nat) :
    (State.upTo s t).mem = s.mem := by unfold State.upTo; simp

@[simp] theorem mem_of_State_msixDue (s : State) (v : Nat) :
    (State.msixDue s v).mem = s.mem := by unfold State.msixDue; simp

@[simp] theorem mem_of_State_judge (s : State) (v : Nat) (wrote : Bool) :
    (State.judge s v wrote).mem = s.mem := by unfold State.judge; simp

@[simp] theorem mem_of_State_msixRelease (s : State) (v : Nat) :
    (State.msixRelease s v).mem = s.mem := by unfold State.msixRelease; simp

@[simp] theorem mem_of_State_raiseAt (s : State) (t p b : Nat) :
    (State.raiseAt s t p b).mem = s.mem := by unfold State.raiseAt; simp

@[simp] theorem mem_of_State_unraise (s : State) (p b : Nat) (was : Bool) (t : Nat) :
    (State.unraise s p b was t).mem = s.mem := by unfold State.unraise; simp

@[simp] theorem mem_of_State_refuseAns (s : State) (p : Nat) (r : Reason) :
    (State.refuseAns s p r).mem = s.mem := by unfold State.refuseAns; simp

@[simp] theorem mem_of_gateW (a : Agent) (p : Nat) (f : State → State) (s : State) (hf : ∀ (z : State), (f z).mem = z.mem) :
    (gateW a p f s).mem = s.mem := by unfold gateW; simp [hf]

@[simp] theorem mem_of_ordered (a : Agent) (p off : Nat) (f : State → State) (s : State) (hf : ∀ (z : State), (f z).mem = z.mem) :
    (ordered a p off f s).mem = s.mem := by unfold ordered; (repeat' split) <;> simp [hf]

@[simp] theorem mem_of_gateO (a : Agent) (p off : Nat) (f : State → State) (s : State) (hf : ∀ (z : State), (f z).mem = z.mem) :
    (gateO a p off f s).mem = s.mem := by unfold gateO; simp [hf]

@[simp] theorem mem_of_gateP (a : Agent) (p : Nat) (f : State → State) (s : State) (hf : ∀ (z : State), (f z).mem = z.mem) :
    (gateP a p f s).mem = s.mem := by unfold gateP; simp [hf]

@[simp] theorem mem_of_gateR (p : Nat) (f : State → State) (s : State) (hf : ∀ (z : State), (f z).mem = z.mem) :
    (gateR p f s).mem = s.mem := by unfold gateR; simp [hf]

@[simp] theorem mem_of_State_setMarkRefs (s : State) (d m : Nat) (r a : Int) :
    (State.setMarkRefs s d m r a).mem = s.mem := by unfold State.setMarkRefs; simp

@[simp] theorem mem_of_State_settleRefs (s : State) (d : Nat) :
    (State.settleRefs s d).mem = s.mem := by unfold State.settleRefs; simp

@[simp] theorem mem_of_State_remember (s : State) (d : Nat) :
    (State.remember s d).mem = s.mem := by unfold State.remember; simp

@[simp] theorem mem_of_State_keepDue (s : State) (d : Nat) :
    (State.keepDue s d).mem = s.mem := by unfold State.keepDue; simp

@[simp] theorem mem_of_State_setTraj (s : State) (d : Nat) (j : Traj) :
    (State.setTraj s d j).mem = s.mem := by unfold State.setTraj; simp

@[simp] theorem mem_of_State_setStopped (s : State) (d : Nat) (b : Bool) :
    (State.setStopped s d b).mem = s.mem := by unfold State.setStopped; simp

@[simp] theorem mem_of_State_markJudge (s : State) (d m : Nat) :
    (State.markJudge s d m).mem = s.mem := by unfold State.markJudge; simp

@[simp] theorem mem_of_State_rearmRef (s : State) (d m : Nat) :
    (State.rearmRef s d m).mem = s.mem := by unfold State.rearmRef; simp

@[simp] theorem mem_of_State_applyPreset (s : State) (d k : Nat) (j : Traj) (saved : Option PresetReq) :
    (State.applyPreset s d k j saved).mem = s.mem := by unfold State.applyPreset; simp

@[simp] theorem mem_of_State_presetUndo (s : State) (d : Nat) (r : PresetReq) :
    (State.presetUndo s d r).mem = s.mem := by unfold State.presetUndo; (repeat' split) <;> simp

@[simp] theorem mem_of_State_presetRequest (s : State) (d k rank : Nat) (by_ : Option Nat) :
    (State.presetRequest s d k rank by_).mem = s.mem := by unfold State.presetRequest; dsimp only; (repeat' split) <;> simp

@[simp] theorem mem_of_State_rateReached (s : State) (d : Nat) :
    (State.rateReached s d).mem = s.mem := by unfold State.rateReached; simp

@[simp] theorem mem_of_State_commitFiring (s : State) (d m : Nat) (late : Bool) (span : Option Int) :
    (State.commitFiring s d m late span).mem = s.mem := by unfold State.commitFiring; simp

@[simp] theorem mem_of_State_jumpMark (d : Nat) (p : Int) (m : Nat) (s : State) :
    (State.jumpMark d p m s).mem = s.mem := by unfold State.jumpMark; dsimp only; (repeat' split) <;> simp

@[simp] theorem mem_of_State_jump (s : State) (d : Nat) (p : Int) :
    (State.jump s d p).mem = s.mem := by unfold State.jump; simp

@[simp] theorem mem_of_State_indexStep (s : State) (d : Nat) (p : Int) :
    (State.indexStep s d p).mem = s.mem := by unfold State.indexStep; simp

@[simp] theorem mem_of_State_sourceCount (s : State) (d t : Nat) (delta : Int) :
    (State.sourceCount s d t delta).mem = s.mem := by unfold State.sourceCount; simp

@[simp] theorem mem_of_State_encoderSample (s : State) (d : Nat) (la lb li : Bool) (ta tb ti : Nat) :
    (State.encoderSample s d la lb li ta tb ti).mem = s.mem := by unfold State.encoderSample; dsimp only; (repeat' split) <;> simp

@[simp] theorem mem_of_State_markCommit (s : State) (d m : Nat) :
    (State.markCommit s d m).mem = s.mem := by unfold State.markCommit; dsimp only; (repeat' split) <;> simp

@[simp] theorem mem_of_State_domWrap (s : State) (d : Nat) :
    (State.domWrap s d).mem = s.mem := by unfold State.domWrap; simp

@[simp] theorem mem_of_State_domHalt (s : State) (d : Nat) :
    (State.domHalt s d).mem = s.mem := by unfold State.domHalt; simp

@[simp] theorem mem_of_State_mainsCrossing (s : State) (d peak : Nat) :
    (State.mainsCrossing s d peak).mem = s.mem := by unfold State.mainsCrossing; dsimp only; (repeat' split) <;> simp

@[simp] theorem mem_of_State_lockLost (s : State) (d : Nat) :
    (State.lockLost s d).mem = s.mem := by unfold State.lockLost; simp

@[simp] theorem mem_of_State_holdoverEnd (s : State) (d : Nat) :
    (State.holdoverEnd s d).mem = s.mem := by unfold State.holdoverEnd; simp

@[simp] theorem mem_of_State_latticeFeed (s : State) (d : Nat) (g : GSeg) :
    (State.latticeFeed s d g).mem = s.mem := by unfold State.latticeFeed; simp

@[simp] theorem mem_of_State_latHoldover (s : State) (d : Nat) :
    (State.latHoldover s d).mem = s.mem := by unfold State.latHoldover; simp

@[simp] theorem mem_of_State_domStart (s : State) (d : Nat) :
    (State.domStart s d).mem = s.mem := by unfold State.domStart; dsimp only; (repeat' split) <;> simp

@[simp] theorem mem_of_State_domStop (s : State) (d : Nat) :
    (State.domStop s d).mem = s.mem := by unfold State.domStop; simp

@[simp] theorem mem_of_State_snapTake (s : State) (d k : Nat) (late : Bool) :
    (State.snapTake s d k late).mem = s.mem := by unfold State.snapTake; simp

@[simp] theorem mem_of_State_snapRead (s : State) (d k : Nat) :
    (State.snapRead s d k).mem = s.mem := by unfold State.snapRead; simp

@[simp] theorem mem_of_State_posRead (s : State) (d : Nat) :
    (State.posRead s d).mem = s.mem := by unfold State.posRead; simp

@[simp] theorem mem_of_State_velRead (s : State) (d : Nat) :
    (State.velRead s d).mem = s.mem := by unfold State.velRead; simp

@[simp] theorem mem_of_State_loadWrite (d : Nat) (v : Word) (s : State) :
    (State.loadWrite d v s).mem = s.mem := by unfold State.loadWrite; simp

@[simp] theorem mem_of_State_shaftApplyWrite (d rank : Nat) (v : Word) (s : State) :
    (State.shaftApplyWrite d rank v s).mem = s.mem := by unfold State.shaftApplyWrite; simp

@[simp] theorem mem_of_State_snapTrigWrite (d : Nat) (v : Word) (s : State) :
    (State.snapTrigWrite d v s).mem = s.mem := by unfold State.snapTrigWrite; simp

@[simp] theorem mem_of_State_markWrite (d m r : Nat) (v : Word) (s : State) :
    (State.markWrite d m r v s).mem = s.mem := by unfold State.markWrite; simp

@[simp] theorem mem_of_State_strobeCount (s : State) (d r : Nat) (inc : Int) :
    (State.strobeCount s d r inc).mem = s.mem := by unfold State.strobeCount; simp

@[simp] theorem mem_of_State_segPublish (s : State) (d : Nat) :
    (State.segPublish s d).mem = s.mem := by unfold State.segPublish; (repeat' split) <;> simp

@[simp] theorem mem_of_State_stopTimeout (s : State) (d : Nat) :
    (State.stopTimeout s d).mem = s.mem := by unfold State.stopTimeout; simp

@[simp] theorem mem_of_State_cmpRefresh (i : Nat) (s : State) :
    (State.cmpRefresh i s).mem = s.mem := by unfold State.cmpRefresh; simp

@[simp] theorem mem_of_State_disPin (i : Nat) (s : State) :
    (State.disPin i s).mem = s.mem := by unfold State.disPin; simp

@[simp] theorem mem_of_State_disSync (s : State) (i : Nat) :
    (State.disSync s i).mem = s.mem := by unfold State.disSync; simp

@[simp] theorem mem_of_State_lagBy (late : Bool) (is : List Nat) (f : State → State) (s : State) (hf : ∀ (z : State), (f z).mem = z.mem) :
    (State.lagBy late is f s).mem = s.mem := by unfold State.lagBy; simp [hf]

@[simp] theorem mem_of_State_lagPins (is : List Nat) (f : State → State) (s : State) (hf : ∀ (z : State), (f z).mem = z.mem) :
    (State.lagPins is f s).mem = s.mem := by unfold State.lagPins; simp [hf]

@[simp] theorem mem_of_State_parkStart (s : State) (i : Nat) :
    (State.parkStart s i).mem = s.mem := by unfold State.parkStart; simp

@[simp] theorem mem_of_State_parkRestAt (s : State) (t i : Nat) :
    (State.parkRestAt s t i).mem = s.mem := by unfold State.parkRestAt; simp

@[simp] theorem mem_of_State_parkRest (s : State) (i : Nat) :
    (State.parkRest s i).mem = s.mem := by unfold State.parkRest; simp

@[simp] theorem mem_of_State_rxStore (s : State) (p : Nat) (e : Entry) :
    (State.rxStore s p e).mem = s.mem := by unfold State.rxStore; simp

@[simp] theorem mem_of_State_txEnd (s : State) (p : Nat) (e : Entry) (status : Nat) (start : Option Nat) :
    (State.txEnd s p e status start).mem = s.mem := by unfold State.txEnd; simp

@[simp] theorem mem_of_State_quietCut (s : State) (p : Nat) :
    (State.quietCut s p).mem = s.mem := by unfold State.quietCut; (repeat' split) <;> simp

@[simp] theorem mem_of_State_enterQuiet (s : State) (p : Nat) :
    (State.enterQuiet s p).mem = s.mem := by simp [enterQuiet]

@[simp] theorem mem_of_State_quietSync (s : State) :
    (State.quietSync s).mem = s.mem := by unfold State.quietSync; simp

@[simp] theorem mem_of_State_txPushEntry (s : State) (p : Nat) (h : List Word) (ws : List Word) :
    (State.txPushEntry s p h ws).2.mem = s.mem := by unfold State.txPushEntry; dsimp only; (repeat' split) <;> simp

@[simp] theorem mem_of_State_txAbortAll (s : State) (p : Nat) :
    (State.txAbortAll s p).mem = s.mem := by unfold State.txAbortAll; simp

@[simp] theorem mem_of_State_protoDrive (s : State) (p : Nat) (f : State → Bool × Bool) :
    (State.protoDrive s p f).mem = s.mem := by unfold State.protoDrive; simp

@[simp] theorem mem_of_State_protoStart (s : State) (p : Nat) :
    (State.protoStart s p).mem = s.mem := by unfold State.protoStart; simp

@[simp] theorem mem_of_State_protoStop (s : State) (p : Nat) :
    (State.protoStop s p).mem = s.mem := by unfold State.protoStop; simp

@[simp] theorem mem_of_State_deepParity (s : State) (k w : Nat) (b : Bool) :
    (State.deepParity s k w b).mem = s.mem := by unfold State.deepParity; simp

@[simp] theorem mem_of_State_deepCollideB (s : State) (k w : Nat) :
    (State.deepCollideB s k w).mem = s.mem := by unfold State.deepCollideB; simp

@[simp] theorem mem_of_State_deepRead (s : State) (k w : Nat) (b : Bool) :
    (State.deepRead s k w b).2.mem = s.mem := by unfold State.deepRead; (repeat' split) <;> simp

@[simp] theorem mem_of_State_deepMark (s : State) (k w : Nat) (b write : Bool) (sink : Sink) :
    (State.deepMark s k w b write sink).mem = s.mem := by unfold State.deepMark; simp

@[simp] theorem mem_of_State_deepOut (s : State) (k w : Nat) (f : Nat → Bool → Nat × Bool) :
    (State.deepOut s k w f).mem = s.mem := by unfold State.deepOut; simp

@[simp] theorem mem_of_State_deepCollide (s : State) (k w : Nat) (b : Bool) :
    (State.deepCollide s k w b).mem = s.mem := by unfold State.deepCollide; simp

@[simp] theorem mem_of_State_deepLater (s : State) (k w : Nat) (b : Bool) (x : DeepAcc) :
    (State.deepLater s k w b x).mem = s.mem := by unfold State.deepLater; simp

@[simp] theorem mem_of_State_deepSpoil (s : State) (k w : Nat) (b : Bool) (x : DeepAcc) :
    (State.deepSpoil s k w b x).mem = s.mem := by unfold State.deepSpoil; (repeat' split) <;> simp

@[simp] theorem mem_of_State_deepRd (s : State) (k w : Nat) (b : Bool) (sink : Sink) :
    (State.deepRd s k w b sink).2.mem = s.mem := by unfold State.deepRd; (repeat' split) <;> simp

@[simp] theorem mem_of_State_deepDiscard (r : Nat) (s : State) :
    (State.deepDiscard r s).mem = s.mem := by unfold State.deepDiscard; simp

@[simp] theorem mem_of_State_dmaErr (s : State) (source kind : Nat) :
    (State.dmaErr s source kind).mem = s.mem := by unfold State.dmaErr; simp

@[simp] theorem mem_of_State_hostPut (s : State) (addr : Nat) (bs : List Byte) :
    (State.hostPut s addr bs).mem = s.mem := by unfold State.hostPut; simp

@[simp] theorem mem_of_State_tsNext (s : State) (g : Nat) :
    (State.tsNext s g).mem = s.mem := by unfold State.tsNext; simp

@[simp] theorem mem_of_State_tsPut (v : Word) (k : Nat) (s : State) :
    (State.tsPut v k s).mem = s.mem := by unfold State.tsPut; simp

@[simp] theorem mem_of_State_tsWrite (g : Nat) (v : Word) (s : State) :
    (State.tsWrite g v s).mem = s.mem := by unfold State.tsWrite; simp

@[simp] theorem mem_of_State_tsRead (g : Nat) (s : State) :
    (State.tsRead g s).mem = s.mem := by unfold State.tsRead; simp

@[simp] theorem mem_of_State_placeAt (s : State) (i t : Nat) (posUnit : Bool) :
    (State.placeAt s i t posUnit).mem = s.mem := by unfold State.placeAt; simp

@[simp] theorem mem_of_State_applyEdge (s : State) (i t : Nat) (a : EdgeAct) (posUnit : Bool) :
    (State.applyEdge s i t a posUnit).mem = s.mem := by unfold State.applyEdge; simp

@[simp] theorem mem_of_State_txNext (s : State) (i : Nat) :
    (State.txNext s i).2.mem = s.mem := by unfold State.txNext; dsimp only; (repeat' split) <;> simp

@[simp] theorem mem_of_State_txPush (s : State) (i : Nat) (w : BitVec 64) :
    (State.txPush s i w).mem = s.mem := by unfold State.txPush; simp

@[simp] theorem mem_of_State_rxPush (s : State) (i t : Nat) (bs : List Bool) :
    (State.rxPush s i t bs).mem = s.mem := by unfold State.rxPush; simp

@[simp] theorem mem_of_State_rxTake (s : State) (i : Nat) (l : List RxItem) : (s.rxTake i l).mem = s.mem := by
  induction l generalizing s with
  | nil => rfl
  | cons a r ih =>
    cases a with
    | wait => rfl
    | flush => unfold rxTake; dsimp only; rw [ih]; split <;> simp
    | sample t own => unfold rxTake; split <;> simp [ih]

@[simp] theorem mem_of_State_rxSync (s : State) (i : Nat) :
    (State.rxSync s i).mem = s.mem := by simp [rxSync]

@[simp] theorem mem_of_State_rxPop (s : State) (i : Nat) :
    (State.rxPop s i).2.mem = s.mem := by unfold State.rxPop; dsimp only; (repeat' split) <;> simp

@[simp] theorem mem_of_State_serStatRead (g : Nat) (s : State) :
    (State.serStatRead g s).mem = s.mem := by unfold State.serStatRead; simp

@[simp] theorem mem_of_State_rxGroup (g : Nat) (s : State) :
    (State.rxGroup g s).mem = s.mem := by unfold State.rxGroup; simp

@[simp] theorem mem_of_State_rxAll (s : State) :
    (State.rxAll s).mem = s.mem := by unfold State.rxAll; simp

@[simp] theorem mem_of_State_eventSync (p : Nat) (s : State) :
    (State.eventSync p s).mem = s.mem := by unfold State.eventSync; (repeat' split) <;> simp

@[simp] theorem mem_of_State_stallSync (s : State) (g : Nat) :
    (State.stallSync s g).mem = s.mem := by unfold State.stallSync; simp

@[simp] theorem mem_of_State_edgeCommit (s : State) (i : Nat) :
    (State.edgeCommit s i).mem = s.mem := by unfold State.edgeCommit; dsimp only; (repeat' split) <;> simp

@[simp] theorem mem_of_State_undrive (is : List Nat) (s : State) :
    (State.undrive is s).mem = s.mem := by unfold State.undrive; simp

@[simp] theorem mem_of_State_edgePlace (s : State) (i : Nat) :
    (State.edgePlace s i).mem = s.mem := by unfold State.edgePlace; dsimp only; (repeat' split) <;> simp

@[simp] theorem mem_of_State_captUp (s : State) (i : Nat) :
    (State.captUp s i).mem = s.mem := by unfold State.captUp; simp

@[simp] theorem mem_of_State_snareRec (s : State) (i typ : Nat) (f1 f0 : Bool) (t : Nat) (und : Bool) :
    (State.snareRec s i typ f1 f0 t und).mem = s.mem := by unfold State.snareRec; simp

@[simp] theorem mem_of_State_snareEdge (i : Nat) (cmpl rose : Bool) (s : State) :
    (State.snareEdge i cmpl rose s).mem = s.mem := by unfold State.snareEdge; simp

@[simp] theorem mem_of_State_ringRdWrite (g : Nat) (v : Word) (s : State) :
    (State.ringRdWrite g v s).mem = s.mem := by unfold State.ringRdWrite; simp

@[simp] theorem mem_of_State_setRfx (s : State) (g k : Nat) (x : Reflex) :
    (State.setRfx s g k x).mem = s.mem := by unfold State.setRfx; simp

@[simp] theorem mem_of_State_rfxAt (g k t : Nat) (s : State) :
    (State.rfxAt g k t s).mem = s.mem := by unfold State.rfxAt; simp

@[simp] theorem mem_of_State_rfxEnds (g k : Nat) (s : State) :
    (State.rfxEnds g k s).mem = s.mem := by unfold State.rfxEnds; simp

@[simp] theorem mem_of_State_rfxLater (g t : Nat) (s : State) :
    (State.rfxLater g t s).mem = s.mem := by unfold State.rfxLater; simp

@[simp] theorem mem_of_State_rfxSync (g k : Nat) (s : State) :
    (State.rfxSync g k s).mem = s.mem := by unfold State.rfxSync; simp

@[simp] theorem mem_of_State_rfxActive (s : State) (g k : Nat) (b : Bool) :
    (State.rfxActive s g k b).mem = s.mem := by unfold State.rfxActive; simp

@[simp] theorem mem_of_State_rfxDrop (s : State) (g : Nat) :
    (State.rfxDrop s g).mem = s.mem := by unfold State.rfxDrop; simp

@[simp] theorem mem_of_State_rfxOwnSync (g k : Nat) (s : State) :
    (State.rfxOwnSync g k s).mem = s.mem := by unfold State.rfxOwnSync; simp

@[simp] theorem mem_of_State_reflexCtrl (g k : Nat) (v : Word) (s : State) :
    (State.reflexCtrl g k v s).mem = s.mem := by unfold State.reflexCtrl; simp

@[simp] theorem mem_of_State_reflexTable (g k : Nat) (v : Word) (s : State) :
    (State.reflexTable g k v s).mem = s.mem := by unfold State.reflexTable; simp

@[simp] theorem mem_of_State_reflexOutput (s : State) (g k : Nat) :
    (State.reflexOutput s g k).mem = s.mem := by unfold State.reflexOutput; dsimp only; (repeat' split) <;> simp

@[simp] theorem mem_of_State_padCrossing (s : State) (i uv : Nat) (ch cl : Bool) :
    (State.padCrossing s i uv ch cl).mem = s.mem := by unfold State.padCrossing; simp

@[simp] theorem mem_of_State_captWrite (i : Nat) (v : Word) (s : State) :
    (State.captWrite i v s).mem = s.mem := by unfold State.captWrite; simp

@[simp] theorem mem_of_State_threshWrite (i : Nat) (v : Word) (s : State) :
    (State.threshWrite i v s).mem = s.mem := by unfold State.threshWrite; simp

@[simp] theorem mem_of_State_serTxHi (g : Nat) (v : Word) (s : State) :
    (State.serTxHi g v s).mem = s.mem := by unfold State.serTxHi; simp

@[simp] theorem mem_of_State_serTxLoWrite (g : Nat) (v : Word) (s : State) :
    (State.serTxLoWrite g v s).mem = s.mem := by unfold State.serTxLoWrite; simp

@[simp] theorem mem_of_State_serRxLo (g : Nat) (s : State) :
    (State.serRxLo g s).mem = s.mem := by unfold State.serRxLo; simp

@[simp] theorem mem_of_State_vccioSync (s : State) (g : Nat) :
    (State.vccioSync s g).mem = s.mem := by unfold State.vccioSync; simp

@[simp] theorem mem_of_State_vccioMeas (s : State) (g mv : Nat) :
    (State.vccioMeas s g mv).mem = s.mem := by unfold State.vccioMeas; simp

@[simp] theorem mem_of_State_vccioReturn (s : State) (g : Nat) :
    (State.vccioReturn s g).mem = s.mem := by unfold State.vccioReturn; simp

@[simp] theorem mem_of_State_vccioChange (s : State) (g mv : Nat) :
    (State.vccioChange s g mv).mem = s.mem := by unfold State.vccioChange; simp

@[simp] theorem mem_of_State_grpStart (s : State) (g : Nat) :
    (State.grpStart s g).mem = s.mem := by unfold State.grpStart; simp

@[simp] theorem mem_of_State_grpStop (s : State) (g : Nat) :
    (State.grpStop s g).mem = s.mem := by unfold State.grpStop; simp

@[simp] theorem mem_of_State_swRefuse (s : State) (g n : Nat) (r : Reason) :
    (State.swRefuse s g n r).mem = s.mem := by unfold State.swRefuse; simp

@[simp] theorem mem_of_State_ownLockWrite (g : Nat) (hi : Bool) (v : Word) (s : State) :
    (State.ownLockWrite g hi v s).mem = s.mem := by unfold State.ownLockWrite; simp

@[simp] theorem mem_of_State_switchAfter (i : Nat) (s : State) :
    (State.switchAfter i s).mem = s.mem := by
  unfold State.switchAfter; split
  · split
    · rfl
    · exact mem_forEach _ _ _ fun j z => by split <;> simp
  · rfl

@[simp] theorem mem_of_State_pinOwnWrite (a : Agent) (i : Nat) (v : Word) (s : State) :
    (State.pinOwnWrite a i v s).mem = s.mem := by unfold State.pinOwnWrite; (repeat' split) <;> simp

@[simp] theorem mem_of_State_ownStart (s : State) (i : Nat) :
    (State.ownStart s i).2.mem = s.mem := by unfold State.ownStart; dsimp only; (repeat' split) <;> simp

@[simp] theorem mem_of_State_hostDrive (i : Nat) (s : State) :
    (State.hostDrive i s).mem = s.mem := by unfold State.hostDrive; simp

@[simp] theorem mem_of_State_hostBits (g off : Nat) (v : Word) (s : State) :
    (State.hostBits g off v s).mem = s.mem := by unfold State.hostBits; simp

@[simp] theorem mem_of_State_swTaken (k i : Nat) (s : State) :
    (State.swTaken k i s).mem = s.mem := by unfold State.swTaken; simp

@[simp] theorem mem_of_State_swPend (i : Nat) (w : Switch) (s : State) :
    (State.swPend i w s).mem = s.mem := by unfold State.swPend; simp

@[simp] theorem mem_of_State_swDrop (i : Nat) (s : State) :
    (State.swDrop i s).mem = s.mem := by unfold State.swDrop; simp

@[simp] theorem mem_of_State_swCtrl (a : Agent) (g : Nat) (v : Word) (s : State) :
    (State.swCtrl a g v s).mem = s.mem := by unfold State.swCtrl; dsimp only; (repeat' split) <;> simp

@[simp] theorem mem_of_State_swMark (s : State) (d m : Nat) (late : Bool) :
    (State.swMark s d m late).mem = s.mem := by
  refine mem_forEach _ _ _ fun i z => ?_
  split
  · dsimp only; split <;> simp
  · rfl

@[simp] theorem mem_of_State_rfxOwners (s : State) (g : Nat) :
    (State.rfxOwners s g).mem = s.mem := by unfold State.rfxOwners; simp

@[simp] theorem mem_of_State_switchPin (i b : Nat) (w : Switch) (s : State) :
    (State.switchPin i b w s).mem = s.mem := by unfold State.switchPin; simp

@[simp] theorem mem_of_State_switchBoundary (s : State) (g : Nat) :
    (State.switchBoundary s g).mem = s.mem := by
  refine mem_forEach _ _ _ fun i z => ?_
  split
  · split
    · split <;> simp
    · rfl
  · rfl

@[simp] theorem mem_of_State_newOwnerInput (s : State) (i : Nat) :
    (State.newOwnerInput s i).mem = s.mem := by unfold State.newOwnerInput; simp

@[simp] theorem mem_of_State_breakEnd (s : State) (i : Nat) :
    (State.breakEnd s i).mem = s.mem := by unfold State.breakEnd; dsimp only; (repeat' split) <;> simp

@[simp] theorem mem_of_State_parkEnd (s : State) (i : Nat) :
    (State.parkEnd s i).mem = s.mem := by unfold State.parkEnd; dsimp only; (repeat' split) <;> simp

@[simp] theorem mem_of_State_hystNext (i : Nat) (s : State) :
    (State.hystNext i s).mem = s.mem := by unfold State.hystNext; dsimp only; (repeat' split) <;> simp

@[simp] theorem mem_of_State_pinCfgWrite (a : Agent) (i : Nat) (v : Word) (s : State) :
    (State.pinCfgWrite a i v s).mem = s.mem := by unfold State.pinCfgWrite; (repeat' split) <;> simp

@[simp] theorem mem_of_State_setAdc (s : State) (g j : Nat) (x : Adc) :
    (State.setAdc s g j x).mem = s.mem := by unfold State.setAdc; simp

@[simp] theorem mem_of_State_adcStartAt (s : State) (g j t : Nat) :
    (State.adcStartAt s g j t).mem = s.mem := by unfold State.adcStartAt; simp

@[simp] theorem mem_of_State_captStart (g j t : Nat) (s : State) :
    (State.captStart g j t s).mem = s.mem := by unfold State.captStart; simp

@[simp] theorem mem_of_State_captSync (s : State) (g j : Nat) :
    (State.captSync s g j).mem = s.mem := by unfold State.captSync; simp

@[simp] theorem mem_of_State_adcStart (s : State) (g j : Nat) :
    (State.adcStart s g j).mem = s.mem := by unfold State.adcStart; simp

@[simp] theorem mem_of_State_adcTrigger (s : State) (g j k : Nat) :
    (State.adcTrigger s g j k).mem = s.mem := by unfold State.adcTrigger; simp

@[simp] theorem mem_of_State_adcTrigWrite (g : Nat) (v : Word) (s : State) :
    (State.adcTrigWrite g v s).mem = s.mem := by unfold State.adcTrigWrite; simp

@[simp] theorem mem_of_State_adcCfgWrite (g j : Nat) (v : Word) (s : State) :
    (State.adcCfgWrite g j v s).mem = s.mem := by unfold State.adcCfgWrite; simp

@[simp] theorem mem_of_State_adcResult (s0 : State) (g j : Nat) (code : BitVec 16) :
    (State.adcResult s0 g j code).mem = s0.mem := by unfold State.adcResult; simp

@[simp] theorem mem_of_State_adcResultRead (g j : Nat) (s : State) :
    (State.adcResultRead g j s).mem = s.mem := by unfold State.adcResultRead; simp

@[simp] theorem mem_of_State_adcFifoRead (g j : Nat) (s : State) :
    (State.adcFifoRead g j s).mem = s.mem := by unfold State.adcFifoRead; dsimp only; (repeat' split) <;> simp

@[simp] theorem mem_of_State_pmuSync (s : State) (g : Nat) :
    (State.pmuSync s g).mem = s.mem := by unfold State.pmuSync; simp

@[simp] theorem mem_of_State_dacOut (s : State) (g j : Nat) :
    (State.dacOut s g j).mem = s.mem := by unfold State.dacOut; simp

@[simp] theorem mem_of_State_pmuOut (s : State) (g : Nat) :
    (State.pmuOut s g).mem = s.mem := by unfold State.pmuOut; simp

@[simp] theorem mem_of_State_busConflict (s : State) (g : Nat) :
    (State.busConflict s g).mem = s.mem := by unfold State.busConflict; simp

@[simp] theorem mem_of_State_dacWrite (g j : Nat) (v : Word) (s : State) :
    (State.dacWrite g j v s).mem = s.mem := by unfold State.dacWrite; simp

@[simp] theorem mem_of_State_pmuCtrl (g : Nat) (v : Word) (s : State) :
    (State.pmuCtrl g v s).mem = s.mem := by unfold State.pmuCtrl; simp

@[simp] theorem mem_of_State_pmuForce (g : Nat) (v : Word) (s : State) :
    (State.pmuForce g v s).mem = s.mem := by unfold State.pmuForce; simp

@[simp] theorem mem_of_State_pmuClampWrite (g : Nat) (v : Word) (s : State) :
    (State.pmuClampWrite g v s).mem = s.mem := by unfold State.pmuClampWrite; simp

@[simp] theorem mem_of_State_pmuClampOn (s : State) (g : Nat) :
    (State.pmuClampOn s g).mem = s.mem := by unfold State.pmuClampOn; simp

@[simp] theorem mem_of_State_pmuClampOff (s : State) (g : Nat) :
    (State.pmuClampOff s g).mem = s.mem := by unfold State.pmuClampOff; simp

@[simp] theorem mem_of_State_captDrop (s : State) (g : Nat) :
    (State.captDrop s g).mem = s.mem := by unfold State.captDrop; simp

@[simp] theorem mem_of_State_anaStart (s : State) (g : Nat) :
    (State.anaStart s g).mem = s.mem := by unfold State.anaStart; simp

@[simp] theorem mem_of_State_anaStop (s : State) (g : Nat) :
    (State.anaStop s g).mem = s.mem := by unfold State.anaStop; simp

@[simp] theorem mem_of_State_setCount (s : State) (n c : Nat) :
    (State.setCount s n c).mem = s.mem := by unfold State.setCount; simp

@[simp] theorem mem_of_State_setOvf (s : State) (n : Nat) (b : Bool) :
    (State.setOvf s n b).mem = s.mem := by unfold State.setOvf; simp

@[simp] theorem mem_of_State_setPreset (s : State) (k : Nat) (x : Preset) :
    (State.setPreset s k x).mem = s.mem := by unfold State.setPreset; simp

@[simp] theorem mem_of_State_presetFire (t k : Nat) (s : State) :
    (State.presetFire t k s).mem = s.mem := by unfold State.presetFire; dsimp only; (repeat' split) <;> simp

@[simp] theorem mem_of_State_presetDue (s : State) (t k : Nat) :
    (State.presetDue s t k).mem = s.mem := by unfold State.presetDue; (repeat' split) <;> simp

@[simp] theorem mem_of_State_presetDown (s : State) (c n inc k : Nat) :
    (State.presetDown s c n inc k).mem = s.mem := by unfold State.presetDown; simp

@[simp] theorem mem_of_State_countUp (s : State) (c n inc : Nat) :
    (State.countUp s c n inc).mem = s.mem := by unfold State.countUp; simp

@[simp] theorem mem_of_State_countCycle (c : Nat) (s : State) :
    (State.countCycle c s).mem = s.mem := by unfold State.countCycle; dsimp only; (repeat' split) <;> simp

@[simp] theorem mem_of_State_countTo (c n : Nat) (s : State) : (countTo c n s).mem = s.mem := by
  induction n generalizing s with
  | zero => rfl
  | succ n ih => unfold countTo; split <;> (try split) <;> simp [ih]

@[simp] theorem mem_of_State_countBy (s : State) (c : Nat) :
    (State.countBy s c).mem = s.mem := by unfold State.countBy; simp

@[simp] theorem mem_of_State_counterSync (s : State) :
    (State.counterSync s).mem = s.mem := by unfold State.counterSync; simp

@[simp] theorem mem_of_State_countLo (s : State) (key n : Nat) :
    (State.countLo s key n).mem = s.mem := by unfold State.countLo; simp

@[simp] theorem mem_of_State_countHi (s : State) (key : Nat) :
    (State.countHi s key).mem = s.mem := by unfold State.countHi; simp

@[simp] theorem mem_of_State_cntSelWrite (v : Word) (s : State) :
    (State.cntSelWrite v s).mem = s.mem := by unfold State.cntSelWrite; simp

@[simp] theorem mem_of_State_cntLoRead (a : Agent) (s : State) :
    (State.cntLoRead a s).mem = s.mem := by unfold State.cntLoRead; simp

@[simp] theorem mem_of_State_cntHiRead (a : Agent) (s : State) :
    (State.cntHiRead a s).mem = s.mem := by unfold State.cntHiRead; simp

@[simp] theorem mem_of_State_recapture (n : Nat) (s : State) :
    (State.recapture n s).mem = s.mem := by unfold State.recapture; simp

@[simp] theorem mem_of_State_cntHiWrite (v : Word) (s : State) :
    (State.cntHiWrite v s).mem = s.mem := by unfold State.cntHiWrite; simp

@[simp] theorem mem_of_State_cntWrite (v : Word) (s : State) :
    (State.cntWrite v s).mem = s.mem := by unfold State.cntWrite; simp

@[simp] theorem mem_of_State_setDump (s : State) (c : Nat) (x : Dump) :
    (State.setDump s c x).mem = s.mem := by unfold State.setDump; simp

@[simp] theorem mem_of_State_dumpTrigger (s0 : State) (c t : Nat) (late : Bool) :
    (State.dumpTrigger s0 c t late).mem = s0.mem := by unfold State.dumpTrigger; simp

@[simp] theorem mem_of_State_dropCap (s : State) (c : Nat) :
    (State.dropCap s c).mem = s.mem := by unfold State.dropCap; simp

@[simp] theorem mem_of_State_dcfgWrite (c : Nat) (v : Word) (s : State) :
    (State.dcfgWrite c v s).mem = s.mem := by unfold State.dcfgWrite; dsimp only; (repeat' split) <;> simp

@[simp] theorem mem_of_State_dumpField (c off : Nat) (mask v : Word) (s : State) :
    (State.dumpField c off mask v s).mem = s.mem := by unfold State.dumpField; simp

@[simp] theorem mem_of_State_dumpOff (s : State) (c : Nat) :
    (State.dumpOff s c).mem = s.mem := by unfold State.dumpOff; simp

@[simp] theorem mem_of_State_dtrigWrite (c : Nat) (v : Word) (s : State) :
    (State.dtrigWrite c v s).mem = s.mem := by unfold State.dtrigWrite; simp

@[simp] theorem mem_of_State_dumpPeriod (s : State) (c : Nat) :
    (State.dumpPeriod s c).mem = s.mem := by unfold State.dumpPeriod; simp

@[simp] theorem mem_of_State_dumpMark (s : State) (d m : Nat) (late : Bool) :
    (State.dumpMark s d m late).mem = s.mem := by unfold State.dumpMark; simp

@[simp] theorem mem_of_State_drdWrite (c : Nat) (v : Word) (s : State) :
    (State.drdWrite c v s).mem = s.mem := by unfold State.drdWrite; simp

@[simp] theorem mem_of_State_scfgWrite (k : Nat) (v : Word) (s0 : State) :
    (State.scfgWrite k v s0).mem = s0.mem := by unfold State.scfgWrite; simp

@[simp] theorem mem_of_State_speriodWrite (k : Nat) (v : Word) (s : State) :
    (State.speriodWrite k v s).mem = s.mem := by unfold State.speriodWrite; simp

@[simp] theorem mem_of_State_sampleFire (s : State) (k : Nat) :
    (State.sampleFire s k).mem = s.mem := by unfold State.sampleFire; simp

@[simp] theorem mem_of_State_setHolder (s : State) (number agent activity res : Nat) :
    (State.setHolder s number agent activity res).mem = s.mem := by unfold State.setHolder; simp

@[simp] theorem mem_of_State_claimRefuse (s : State) (r : Reason) :
    (State.claimRefuse s r).2.mem = s.mem := by unfold State.claimRefuse; simp

@[simp] theorem mem_of_State_claimTake (s : State) (act agent : Nat) (ws : List Word) (mw : Nat) (queued : Bool) :
    (State.claimTake s act agent ws mw queued).2.mem = s.mem := by unfold State.claimTake; simp

@[simp] theorem mem_of_State_claim (s : State) (act agent : Nat) (ws : List Word) (mw : Nat) :
    (State.claim s act agent ws mw).2.mem = s.mem := by unfold State.claim; (repeat' split) <;> simp

@[simp] theorem mem_of_State_grant (s : State) (n : Nat) :
    (State.grant s n).mem = s.mem := by unfold State.grant; simp

@[simp] theorem mem_of_State_pump (n : Nat) (s : State) : (pump n s).mem = s.mem := by
  induction n generalizing s with
  | zero => rfl
  | succ n ih =>
    unfold pump
    split
    · rfl
    · split <;> simp [ih]

@[simp] theorem mem_of_State_unclaim (s : State) (n : Nat) :
    (State.unclaim s n).mem = s.mem := by unfold unclaim; split <;> simp

@[simp] theorem mem_of_State_claimShowRefused (s : State) (r : Reason) :
    (State.claimShowRefused s r).mem = s.mem := by unfold State.claimShowRefused; simp

@[simp] theorem mem_of_State_claimSubmit (v : Word) (s : State) :
    (State.claimSubmit v s).mem = s.mem := by unfold State.claimSubmit; dsimp only; (repeat' split) <;> simp

@[simp] theorem mem_of_State_releaseWrite (v : Word) (s : State) :
    (State.releaseWrite v s).mem = s.mem := by unfold State.releaseWrite; simp

@[simp] theorem mem_of_State_budgetWrite (v : Word) (s : State) :
    (State.budgetWrite v s).mem = s.mem := by unfold budgetWrite; dsimp only; (repeat' split) <;> simp

@[simp] theorem mem_of_State_setSec (s : State) (b n : Nat) (x : Sector) :
    (State.setSec s b n x).mem = s.mem := by unfold State.setSec; simp

@[simp] theorem mem_of_State_setBank (s : State) (b : Nat) (x : Bank) :
    (State.setBank s b x).mem = s.mem := by unfold State.setBank; simp

@[simp] theorem mem_of_State_putFlash (s : State) (b n w : Nat) (x : FlashWord) :
    (State.putFlash s b n w x).mem = s.mem := by unfold State.putFlash; simp

@[simp] theorem mem_of_State_clearSector (s : State) (b n : Nat) (undef : Bool) :
    (State.clearSector s b n undef).mem = s.mem := by unfold State.clearSector; simp

@[simp] theorem mem_of_State_enqueue (s : State) (q : Nat) (x : Desc) :
    (State.enqueue s q x).mem = s.mem := by unfold State.enqueue; simp

@[simp] theorem mem_of_State_metaPut (b m : Nat) (s : State) :
    (State.metaPut b m s).mem = s.mem := by unfold State.metaPut; simp

@[simp] theorem mem_of_State_bankMeta (b m r : Nat) (s : State) :
    (State.bankMeta b m r s).mem = s.mem := by unfold State.bankMeta; simp

@[simp] theorem mem_of_State_markIncomplete (s : State) (b n cause : Nat) :
    (State.markIncomplete s b n cause).mem = s.mem := by unfold State.markIncomplete; simp

@[simp] theorem mem_of_State_enterIncomplete (s : State) (b n cause : Nat) :
    (State.enterIncomplete s b n cause).mem = s.mem := by unfold State.enterIncomplete; simp

@[simp] theorem mem_of_State_leaveIncomplete (s : State) (b n : Nat) :
    (State.leaveIncomplete s b n).mem = s.mem := by unfold State.leaveIncomplete; simp

@[simp] theorem mem_of_State_storeDeliver (s : State) (r : Nat) :
    (State.storeDeliver s r).mem = s.mem := by unfold State.storeDeliver; simp

@[simp] theorem mem_of_State_streamDeliver (s : State) (r : Nat) :
    (State.streamDeliver s r).mem = s.mem := by unfold State.streamDeliver; simp

@[simp] theorem mem_of_State_storeDiscard (r : Nat) (s : State) :
    (State.storeDiscard r s).mem = s.mem := by unfold State.storeDiscard; simp

@[simp] theorem mem_of_State_logRelease (s : State) (q : Nat) :
    (State.logRelease s q).mem = s.mem := by unfold State.logRelease; (repeat' split) <;> simp

@[simp] theorem mem_of_State_logStat (s : State) (q status : Nat) :
    (State.logStat s q status).mem = s.mem := by simp [logStat]

@[simp] theorem mem_of_State_logDone (s : State) (q status : Nat) :
    (State.logDone s q status).mem = s.mem := by simp [logDone]

@[simp] theorem mem_of_State_compPush (s : State) (q k : Nat) (r : List Word) :
    (State.compPush s q k r).mem = s.mem := by simp [compPush]

@[simp] theorem mem_of_State_regionPush (s : State) (q k : Nat) (r : List Word) :
    (State.regionPush s q k r).mem = s.mem := by unfold regionPush; split <;> simp

@[simp] theorem mem_of_State_hostPush (s : State) (q : Nat) (x : Desc) (status : Nat) (r : List Word) :
    (State.hostPush s q x status r).mem = s.mem := by simp [hostPush]

@[simp] theorem mem_of_State_complete (s : State) (q : Nat) (x : Desc) (c : Done) :
    (State.complete s q x c).mem = s.mem := by unfold complete; split <;> simp

@[simp] theorem mem_of_State_setJob (s : State) (q : Nat) (j k : Job) :
    (State.setJob s q j k).mem = s.mem := by unfold State.setJob; simp

@[simp] theorem mem_of_State_retireJob (s : State) (q : Nat) (j : Job) (c : Done) :
    (State.retireJob s q j c).mem = s.mem := by unfold State.retireJob; (repeat' split) <;> simp

@[simp] theorem mem_of_State_settleJob (q : Nat) (j : Job) (s : State) :
    (State.settleJob q j s).mem = s.mem := by unfold State.settleJob; (repeat' split) <;> simp

@[simp] theorem mem_of_State_settleQueue (q : Nat) (s : State) :
    (State.settleQueue q s).mem = s.mem := by unfold State.settleQueue; simp

@[simp] theorem mem_of_State_finish (s : State) (q : Nat) (j : Job) (c : Done) :
    (State.finish s q j c).mem = s.mem := by unfold State.finish; (repeat' split) <;> simp

@[simp] theorem mem_of_State_regionDeliver (s : State) (r : Nat) :
    (State.regionDeliver s r).mem = s.mem := by unfold State.regionDeliver; simp

@[simp] theorem mem_of_State_dispatch (q : Nat) (want : Nat → Bool) (f : Job → State → State) (s : State) (hf : ∀ (y0 : Job) (z : State), (f y0 z).mem = z.mem) :
    (State.dispatch q want f s).mem = s.mem := by unfold State.dispatch; (repeat' split) <;> simp [hf]

@[simp] theorem mem_of_State_checked (q : Nat) (f : Job → State → State) (j : Job) (s : State) (hf : ∀ (y0 : Job) (z : State), (f y0 z).mem = z.mem) :
    (State.checked q f j s).mem = s.mem := by unfold State.checked; (repeat' split) <;> simp [hf]

@[simp] theorem mem_of_State_startFetch (s : State) (q : Nat) (j : Job) :
    (State.startFetch s q j).mem = s.mem := by unfold State.startFetch; simp

@[simp] theorem mem_of_State_deepWordsAt (n w : Nat) (s : State) : (s.deepWordsAt n w).2.mem = s.mem := by
  induction n generalizing s w with
  | zero => rfl
  | succ n ih => unfold deepWordsAt; simp [ih]

@[simp] theorem mem_of_State_bufferWords (s : State) (x : Desc) :
    (State.bufferWords s x).2.mem = s.mem := by unfold State.bufferWords; dsimp only; split <;> simp

@[simp] theorem mem_of_State_xipDrop (s : State) (b n : Nat) :
    (State.xipDrop s b n).mem = s.mem := by unfold State.xipDrop; simp

@[simp] theorem mem_of_State_programWords (s : State) (x : Desc) (w : Nat) (l : List (BitVec 64)) :
    (s.programWords x w l).mem = s.mem := by
  induction l generalizing s w with
  | nil => rfl
  | cons a r ih => unfold programWords; simp [ih]

@[simp] theorem mem_of_State_programTo (s : State) (x : Desc) (data : List (BitVec 64)) (k : Nat) :
    (State.programTo s x data k).mem = s.mem := by unfold programTo; dsimp only; split <;> simp

@[simp] theorem mem_of_State_programFail (s : State) (q : Nat) (j : Job) (v : Nat × Nat) :
    (State.programFail s q j v).mem = s.mem := by unfold State.programFail; simp

@[simp] theorem mem_of_State_programStart (s : State) (q : Nat) (j : Job) (data : List (BitVec 64)) :
    (State.programStart s q j data).mem = s.mem := by unfold State.programStart; (repeat' split) <;> simp

@[simp] theorem mem_of_State_programKnown (s : State) (q : Nat) (j : Job) (data : List (BitVec 64)) :
    (State.programKnown s q j data).mem = s.mem := by unfold State.programKnown; (repeat' split) <;> simp

@[simp] theorem mem_of_State_programFetched (s : State) (q : Nat) (j : Job) (data : List (BitVec 64)) :
    (State.programFetched s q j data).mem = s.mem := by unfold State.programFetched; dsimp only; (repeat' split) <;> simp

@[simp] theorem mem_of_State_programDispatch (q : Nat) (j : Job) (s : State) :
    (State.programDispatch q j s).mem = s.mem := by unfold State.programDispatch; dsimp only; (repeat' split) <;> simp

@[simp] theorem mem_of_State_programComplete (s : State) (q b : Nat) (fail : Option Nat) (pulses : Nat) :
    (State.programComplete s q b fail pulses).mem = s.mem := by unfold State.programComplete; (repeat' split) <;> simp

@[simp] theorem mem_of_State_cycleUp (s : State) (b n : Nat) :
    (State.cycleUp s b n).mem = s.mem := by unfold State.cycleUp; simp

@[simp] theorem mem_of_State_statusEntry (b : Nat) (s : State) :
    (State.statusEntry b s).mem = s.mem := by unfold State.statusEntry; simp

@[simp] theorem mem_of_State_eraseGo (_q : Nat) (j : Job) (s : State) :
    (State.eraseGo _q j s).mem = s.mem := by unfold State.eraseGo; simp

@[simp] theorem mem_of_State_resumeGo (q : Nat) (j : Job) (s : State) :
    (State.resumeGo q j s).mem = s.mem := by unfold State.resumeGo; simp

@[simp] theorem mem_of_State_suspendsDone (s : State) (b n : Nat) :
    (State.suspendsDone s b n).mem = s.mem := by unfold State.suspendsDone; simp

@[simp] theorem mem_of_State_eraseComplete (s : State) (q b : Nat) (ok : Bool) (pulses : Nat) (spareOk : Bool) :
    (State.eraseComplete s q b ok pulses spareOk).mem = s.mem := by unfold State.eraseComplete; (repeat' split) <;> simp

@[simp] theorem mem_of_State_suspendGo (q : Nat) (j : Job) (s : State) :
    (State.suspendGo q j s).mem = s.mem := by unfold State.suspendGo; simp

@[simp] theorem mem_of_State_suspendEffective (s : State) (b pulses : Nat) :
    (State.suspendEffective s b pulses).mem = s.mem := by unfold State.suspendEffective; (repeat' split) <;> simp

@[simp] theorem mem_of_State_infoGo (q : Nat) (j : Job) (s : State) :
    (State.infoGo q j s).mem = s.mem := by unfold State.infoGo; simp

@[simp] theorem mem_of_State_setProt (s : State) (b prot : Nat) :
    (State.setProt s b prot).mem = s.mem := by unfold State.setProt; simp

@[simp] theorem mem_of_State_pwdFail (s : State) (q : Nat) (j : Job) :
    (State.pwdFail s q j).mem = s.mem := by unfold State.pwdFail; simp

@[simp] theorem mem_of_State_metaAct (s : State) (q : Nat) (j : Job) (data : List (BitVec 64)) :
    (State.metaAct s q j data).mem = s.mem := by unfold State.metaAct; simp

@[simp] theorem mem_of_State_metaRun (s : State) (q : Nat) (j : Job) :
    (State.metaRun s q j).mem = s.mem := by unfold State.metaRun; simp

@[simp] theorem mem_of_State_metaGo (q : Nat) (j : Job) (s : State) :
    (State.metaGo q j s).mem = s.mem := by unfold State.metaGo; dsimp only; (repeat' split) <;> simp

@[simp] theorem mem_of_State_metaResume (q op : Nat) (s : State) :
    (State.metaResume q op s).mem = s.mem := by unfold State.metaResume; (repeat' split) <;> simp

@[simp] theorem mem_of_State_metaRow (q op : Nat) (s : State) :
    (State.metaRow q op s).mem = s.mem := by unfold State.metaRow; simp

@[simp] theorem mem_of_State_metaTimeout (s : State) :
    (State.metaTimeout s).mem = s.mem := by unfold State.metaTimeout; simp

@[simp] theorem mem_of_State_fetchData (s : State) (bs : List Byte) :
    (State.fetchData s bs).mem = s.mem := by unfold State.fetchData; (repeat' split) <;> simp

@[simp] theorem mem_of_State_fetchFail (s : State) (kind : Nat) :
    (State.fetchFail s kind).mem = s.mem := by unfold State.fetchFail; (repeat' split) <;> simp

@[simp] theorem mem_of_State_cut (s : State) (loud : Bool) (j : Job) :
    (State.cut s loud j).1.mem = s.mem := by unfold State.cut; dsimp only; (repeat' split) <;> simp

@[simp] theorem mem_of_State_stopJob (q st : Nat) (j : Job) (s : State) :
    (State.stopJob q st j s).mem = s.mem := by unfold State.stopJob; simp

@[simp] theorem mem_of_State_suspendsOf (js : List Job) (s : State) :
    (State.suspendsOf js s).mem = s.mem := by unfold State.suspendsOf; simp

@[simp] theorem mem_of_State_storeStop (s : State) :
    (State.storeStop s).mem = s.mem := by unfold State.storeStop; simp

@[simp] theorem mem_of_State_storeRecover (s : State) :
    (State.storeRecover s).mem = s.mem := by unfold State.storeRecover; simp

@[simp] theorem mem_of_State_resetJob (q : Nat) (j : Job) (s : State) :
    (State.resetJob q j s).mem = s.mem := by unfold State.resetJob; simp

@[simp] theorem mem_of_State_queueReset (q : Nat) (s : State) :
    (State.queueReset q s).mem = s.mem := by unfold State.queueReset; simp

@[simp] theorem mem_of_State_qctrl (v : Word) (s : State) :
    (State.qctrl v s).mem = s.mem := by unfold State.qctrl; simp

@[simp] theorem mem_of_State_supplyFail (s : State) :
    (State.supplyFail s).mem = s.mem := by unfold State.supplyFail; simp

@[simp] theorem mem_of_State_storeReset (s : State) :
    (State.storeReset s).mem = s.mem := by unfold State.storeReset; simp

@[simp] theorem mem_of_State_hsubmit (v : Word) (s : State) :
    (State.hsubmit v s).mem = s.mem := by unfold State.hsubmit; simp

@[simp] theorem mem_of_State_hcomp0 (s : State) :
    (State.hcomp0 s).mem = s.mem := by unfold State.hcomp0; (repeat' split) <;> simp

@[simp] theorem mem_of_State_setRun (s : State) (q v : Nat) :
    (State.setRun s q v).mem = s.mem := by unfold State.setRun; simp

@[simp] theorem mem_of_State_setPc (s : State) (q v : Nat) :
    (State.setPc s q v).mem = s.mem := by unfold State.setPc; simp

@[simp] theorem mem_of_State_setQflag (s : State) (q n : Nat) (b : Bool) :
    (State.setQflag s q n b).mem = s.mem := by unfold State.setQflag; simp

@[simp] theorem mem_of_State_edgeUnit (v : Vec) (i : Nat) (ws : List Nat) (s : State) :
    (State.edgeUnit v i ws s).mem = s.mem := by unfold State.edgeUnit; simp

@[simp] theorem mem_of_State_addEdges (s : State) (i : Nat) (es : List Edge) :
    (State.addEdges s i es).mem = s.mem := by unfold State.addEdges; simp

@[simp] theorem mem_of_State_closeOpen (s : State) (v : Vec) (i code id : Nat) :
    (State.closeOpen s v i code id).mem = s.mem := by unfold State.closeOpen; simp

@[simp] theorem mem_of_State_serialBits (s : State) (v : Vec) (i own id : Nat) :
    (State.serialBits s v i own id).mem = s.mem := by unfold State.serialBits; simp

@[simp] theorem mem_of_State_acceptPin (s : State) (q : Nat) (v : Vec) (i raw : Nat) :
    (State.acceptPin s q v i raw).2.mem = s.mem := by unfold acceptPin; dsimp only; (repeat' split) <;> simp [apply_ite Prod.snd]

@[simp] theorem mem_of_State_acceptPins (s : State) (q : Nat) (v : Vec) (codes : Nat → Nat) (l : List Nat) :
    (s.acceptPins q v codes l).2.mem = s.mem := by
  induction l generalizing s with
  | nil => rfl
  | cons i r ih => unfold acceptPins; simp [ih]

@[simp] theorem mem_of_State_endVectors (s : State) (q : Nat) :
    (State.endVectors s q).mem = s.mem := by unfold State.endVectors; dsimp only; (repeat' split) <;> simp

@[simp] theorem mem_of_State_stopIssue (s : State) (q : Nat) :
    (State.stopIssue s q).mem = s.mem := by unfold State.stopIssue; simp

@[simp] theorem mem_of_State_faultAt (s : State) (q code : Nat) :
    (State.faultAt s q code).mem = s.mem := by unfold State.faultAt; simp

@[simp] theorem mem_of_State_haltAt (s : State) (q cause : Nat) :
    (State.haltAt s q cause).mem = s.mem := by unfold State.haltAt; simp

@[simp] theorem mem_of_State_retire (s : State) (q next : Nat) :
    (State.retire s q next).mem = s.mem := by unfold State.retire; simp

@[simp] theorem mem_of_State_retireNext (s : State) (q : Nat) :
    (State.retireNext s q).mem = s.mem := by unfold State.retireNext; simp

@[simp] theorem mem_of_State_regridSync (s : State) (q : Nat) :
    (State.regridSync s q).mem = s.mem := by unfold State.regridSync; dsimp only; (repeat' split) <;> simp

@[simp] theorem mem_of_State_popCmd (s : State) (q : Nat) :
    (State.popCmd s q).mem = s.mem := by unfold State.popCmd; simp

@[simp] theorem mem_of_State_matchEnd (s : State) (q : Nat) (pass : Bool) (copy issued : Nat) :
    (State.matchEnd s q pass copy issued).mem = s.mem := by unfold State.matchEnd; simp

@[simp] theorem mem_of_State_cmdStep (s : State) (q : Nat) (c : VCmd) (copy : Option Nat) :
    (State.cmdStep s q c copy).mem = s.mem := by unfold State.cmdStep; dsimp only; (repeat' split) <;> simp

@[simp] theorem mem_of_State_captFire (q mask at_ : Nat) (s : State) :
    (State.captFire q mask at_ s).mem = s.mem := by unfold State.captFire; simp

@[simp] theorem mem_of_State_boundaryLate (old : State) (d : Nat) (s : State) :
    (State.boundaryLate old d s).mem = s.mem := by
  refine mem_forEach _ _ _ fun i z => ?_
  dsimp only; split
  · rfl
  · split
    · rfl
    · split <;> simp

@[simp] theorem mem_of_State_goSync (s : State) (q : Nat) :
    (State.goSync s q).mem = s.mem := by unfold State.goSync; dsimp only; (repeat' split) <;> simp

@[simp] theorem mem_of_State_goAccept (s : State) (q : Nat) (v : Word) :
    (State.goAccept s q v).mem = s.mem := by unfold State.goAccept; simp

@[simp] theorem mem_of_State_stopRun (s : State) (q cause : Nat) :
    (State.stopRun s q cause).mem = s.mem := by unfold State.stopRun; dsimp only; (repeat' split) <;> simp

@[simp] theorem mem_of_State_runCtrl (q : Nat) (v : Word) (s0 : State) :
    (State.runCtrl q v s0).mem = s0.mem := by unfold State.runCtrl; simp

@[simp] theorem mem_of_State_gongStop (s : State) :
    (State.gongStop s).mem = s.mem := by unfold State.gongStop; simp

@[simp] theorem mem_of_State_doorbell (q : Nat) (v : Word) (s : State) :
    (State.doorbell q v s).mem = s.mem := by unfold State.doorbell; simp

@[simp] theorem mem_of_State_flagsNote (s : State) (q m : Nat) (host : Bool) :
    (State.flagsNote s q m host).mem = s.mem := by unfold State.flagsNote; simp

@[simp] theorem mem_of_State_flagsWrite (q : Nat) (v : Word) (s : State) :
    (State.flagsWrite q v s).mem = s.mem := by unfold State.flagsWrite; simp

@[simp] theorem mem_of_State_flagsFabric (q m : Nat) (s : State) :
    (State.flagsFabric q m s).mem = s.mem := by unfold State.flagsFabric; simp

@[simp] theorem mem_of_State_flogRd (q : Nat) (v : Word) (s : State) :
    (State.flogRd q v s).mem = s.mem := by unfold State.flogRd; simp

@[simp] theorem mem_of_State_gprWrite (q off : Nat) (mask v : Word) (s0 : State) :
    (State.gprWrite q off mask v s0).mem = s0.mem := by unfold State.gprWrite; simp

@[simp] theorem mem_of_State_seqStart (s : State) (q : Nat) :
    (State.seqStart s q).mem = s.mem := by unfold State.seqStart; simp

@[simp] theorem mem_of_State_seqStop (s0 : State) (q : Nat) :
    (State.seqStop s0 q).mem = s0.mem := by unfold State.seqStop; simp

@[simp] theorem mem_of_State_sampleInterrupt (s : State) (q : Nat) :
    (State.sampleInterrupt s q).mem = s.mem := by unfold State.sampleInterrupt; (repeat' split) <;> simp

@[simp] theorem mem_of_State_laneClocks (k : Nat) (up : Bool) (s : State) :
    (State.laneClocks k up s).mem = s.mem := by unfold State.laneClocks; simp

@[simp] theorem mem_of_State_lanePresent (r k : Nat) (l : List (BitVec 72)) (s : State) :
    (lanePresent r k l s).mem = s.mem := by
  induction l generalizing s with
  | nil => rfl
  | cons a t ih => unfold lanePresent; simp [ih]

@[simp] theorem mem_of_State_lanesPark (r : Nat) (s : State) :
    (State.lanesPark r s).mem = s.mem := by unfold State.lanesPark; simp

@[simp] theorem mem_of_State_lanesResume (r : Nat) (s : State) :
    (State.lanesResume r s).mem = s.mem := by unfold State.lanesResume; simp

@[simp] theorem mem_of_State_regionUp (s : State) (r : Nat) :
    (State.regionUp s r).mem = s.mem := by unfold State.regionUp; simp

@[simp] theorem mem_of_State_portAns (s : State) (r : Nat) (a : Resp) :
    (State.portAns s r a).mem = s.mem := by unfold State.portAns; (repeat' split) <;> simp

@[simp] theorem mem_of_State_portTook (r port : Nat) (s : State) :
    (State.portTook r port s).mem = s.mem := by unfold State.portTook; simp

@[simp] theorem mem_of_State_portReq (r port p : Nat) (q : PortReq) (f : State → State) (s : State) (hf : ∀ (z : State), (f z).mem = z.mem) :
    (State.portReq r port p q f s).mem = s.mem := by unfold State.portReq; simp [hf]

@[simp] theorem mem_of_State_holdExpiry (s : State) (r : Nat) :
    (State.holdExpiry s r).mem = s.mem := by unfold State.holdExpiry; (repeat' split) <;> simp

@[simp] theorem mem_of_State_toRegion (s : State) (r w : Nat) :
    (State.toRegion s r w).mem = s.mem := by unfold State.toRegion; simp

@[simp] theorem mem_of_State_pinDrive (s : State) (r i : Nat) (oe lvl : Bool) :
    (State.pinDrive s r i oe lvl).mem = s.mem := by unfold State.pinDrive; simp

@[simp] theorem mem_of_State_pinPop (s : State) (r i : Nat) :
    (State.pinPop s r i).mem = s.mem := by unfold State.pinPop; simp

@[simp] theorem mem_of_State_portPreset (s : State) (r d k : Nat) :
    (State.portPreset s r d k).mem = s.mem := by unfold State.portPreset; simp

@[simp] theorem mem_of_State_incStrobe (s : State) (r : Nat) (inc : Int) :
    (State.incStrobe s r inc).mem = s.mem := by unfold State.incStrobe; simp

@[simp] theorem mem_of_State_tapEdge (r k : Nat) (s : State) :
    (State.tapEdge r k s).mem = s.mem := by unfold State.tapEdge; dsimp only; (repeat' split) <;> simp

@[simp] theorem mem_of_State_noticeMark (d m : Nat) (late : Bool) (s : State) :
    (State.noticeMark d m late s).mem = s.mem := by unfold State.noticeMark; simp

@[simp] theorem mem_of_State_markNotice (s : State) (r n : Nat) :
    (State.markNotice s r n).mem = s.mem := by unfold State.markNotice; (repeat' split) <;> simp

@[simp] theorem mem_of_State_portStrobe (q : Nat) (s : State) :
    (State.portStrobe q s).mem = s.mem := by unfold State.portStrobe; simp

@[simp] theorem mem_of_State_evPulse (q l : Nat) (s : State) :
    (State.evPulse q l s).mem = s.mem := by unfold State.evPulse; simp

@[simp] theorem mem_of_State_storePort (s : State) (r : Nat) (ws : List Word) :
    (State.storePort s r ws).mem = s.mem := by unfold State.storePort; simp

@[simp] theorem mem_of_State_blkPut (s : State) (r b i v : Nat) (ninth : Bool) :
    (State.blkPut s r b i v ninth).mem = s.mem := by unfold State.blkPut; simp

@[simp] theorem mem_of_State_blkWrite (s : State) (r b : Nat) (parity : Bool) (x : BlockAccess) :
    (State.blkWrite s r b parity x).mem = s.mem := by unfold State.blkWrite; dsimp only; (repeat' split) <;> simp

@[simp] theorem mem_of_State_blkRead (s : State) (r b : Nat) (parity portB : Bool) (x : BlockAccess) :
    (State.blkRead s r b parity portB x).mem = s.mem := by unfold State.blkRead; dsimp only; (repeat' split) <;> simp

@[simp] theorem mem_of_State_blkCycle (s : State) (r b : Nat) (parity : Bool) (pa pb : Option BlockAccess) :
    (State.blkCycle s r b parity pa pb).mem = s.mem := by unfold State.blkCycle; dsimp only; (repeat' split) <;> simp

@[simp] theorem mem_of_State_logicEdge (r g : Nat) (s : State) :
    (State.logicEdge r g s).mem = s.mem := by unfold State.logicEdge; dsimp only; (repeat' split) <;> simp

@[simp] theorem mem_of_State_tickRegion (g r : Nat) (s : State) :
    (State.tickRegion g r s).mem = s.mem := by unfold State.tickRegion; simp

@[simp] theorem mem_of_State_tick (s : State) :
    (State.tick s).mem = s.mem := by unfold State.tick; simp

@[simp] theorem mem_of_State_clockLost (s : State) (r : Nat) :
    (State.clockLost s r).mem = s.mem := by unfold State.clockLost; simp

@[simp] theorem mem_of_State_clockResume (s : State) (r : Nat) :
    (State.clockResume s r).mem = s.mem := by unfold State.clockResume; simp

@[simp] theorem mem_of_State_regionStart (s : State) (r : Nat) :
    (State.regionStart s r).mem = s.mem := by unfold State.regionStart; simp

@[simp] theorem mem_of_State_regionStop (s : State) (r : Nat) :
    (State.regionStop s r).mem = s.mem := by unfold State.regionStop; simp

@[simp] theorem mem_of_State_imgEnd (s : State) (res region : Nat) :
    (State.imgEnd s res region).mem = s.mem := by unfold State.imgEnd; (repeat' split) <;> simp

@[simp] theorem mem_of_State_setCmd (s : State) (c : ImgCmd) :
    (State.setCmd s c).mem = s.mem := by unfold State.setCmd; simp

@[simp] theorem mem_of_State_setSlotRec (s : State) (b slot : Nat) (x : SlotRec) :
    (State.setSlotRec s b slot x).mem = s.mem := by unfold State.setSlotRec; simp

@[simp] theorem mem_of_State_setBootSlot (s : State) (r slot : Nat) :
    (State.setBootSlot s r slot).mem = s.mem := by unfold State.setBootSlot; simp

@[simp] theorem mem_of_State_revokeImage (s : State) (b slot : Nat) :
    (State.revokeImage s b slot).mem = s.mem := by unfold State.revokeImage; simp

@[simp] theorem mem_of_State_metaWrite (s : State) (c : ImgCmd) :
    (State.metaWrite s c).mem = s.mem := by unfold State.metaWrite; (repeat' split) <;> simp

@[simp] theorem mem_of_State_imgAsk (s : State) :
    (State.imgAsk s).mem = s.mem := by unfold State.imgAsk; (repeat' split) <;> simp

@[simp] theorem mem_of_State_imgCmd (v : Word) (s : State) :
    (State.imgCmd v s).mem = s.mem := by unfold State.imgCmd; dsimp only; (repeat' split) <;> simp

@[simp] theorem mem_of_State_imgHeader (s : State) (bs : List Byte) :
    (State.imgHeader s bs).mem = s.mem := by unfold State.imgHeader; dsimp only; (repeat' split) <;> simp

@[simp] theorem mem_of_State_imgFetchFail (s : State) (kind : Nat) :
    (State.imgFetchFail s kind).mem = s.mem := by unfold State.imgFetchFail; (repeat' split) <;> simp

@[simp] theorem mem_of_State_commitWrite (s : State) (h : List Word) (slot : Nat) :
    (State.commitWrite s h slot).mem = s.mem := by unfold State.commitWrite; simp

@[simp] theorem mem_of_State_cmdEnd (s : State) (bad : List (Fin 96)) :
    (State.cmdEnd s bad).mem = s.mem := by unfold State.cmdEnd; (repeat' split) <;> simp

@[simp] theorem mem_of_State_imgTimeout (s : State) :
    (State.imgTimeout s).mem = s.mem := by unfold State.imgTimeout; (repeat' split) <;> simp

@[simp] theorem mem_of_State_loadFrame (s : State) (r slot : Nat) :
    (State.loadFrame s r slot).mem = s.mem := by unfold State.loadFrame; simp

@[simp] theorem mem_of_State_setLoad (s : State) (x : Load) :
    (State.setLoad s x).mem = s.mem := by unfold State.setLoad; simp

@[simp] theorem mem_of_State_bootRewrite (s : State) (r k : Nat) :
    (State.bootRewrite s r k).mem = s.mem := by unfold State.bootRewrite; simp

@[simp] theorem mem_of_State_imgRevoke (s : State) (r k : Nat) :
    (State.imgRevoke s r k).mem = s.mem := by unfold State.imgRevoke; simp

@[simp] theorem mem_of_State_owedWrites (s : State) :
    (State.owedWrites s).mem = s.mem := by unfold State.owedWrites; simp

@[simp] theorem mem_of_State_formLists (s : State) (own : List Nat) :
    (State.formLists s own).mem = s.mem := by unfold State.formLists; simp

@[simp] theorem mem_of_State_programClocks (s : State) :
    (State.programClocks s).mem = s.mem := by unfold State.programClocks; simp

@[simp] theorem mem_of_State_swapDrop (r : Nat) (s : State) :
    (State.swapDrop r s).mem = s.mem := by unfold State.swapDrop; simp

@[simp] theorem mem_of_State_noImage (r : Nat) (s : State) :
    (State.noImage r s).mem = s.mem := by unfold State.noImage; simp

@[simp] theorem mem_of_State_queueLoads (s : State) (rs : List Nat) (pll : Bool) :
    (State.queueLoads s rs pll).mem = s.mem := by unfold State.queueLoads; simp

@[simp] theorem mem_of_State_loadBegin (s : State) :
    (State.loadBegin s).mem = s.mem := by unfold State.loadBegin; simp

@[simp] theorem mem_of_State_enableLoaded (s : State) (r : Nat) :
    (State.enableLoaded s r).mem = s.mem := by unfold State.enableLoaded; (repeat' split) <;> simp

@[simp] theorem mem_of_State_nextCand (rs : List Nat) (s : State) :
    (State.nextCand rs s).mem = s.mem := by unfold State.nextCand; simp

@[simp] theorem mem_of_State_loadRegion (bad : List (Fin 96)) (r : Nat) (s : State) :
    (State.loadRegion bad r s).mem = s.mem := by
  unfold loadRegion; split
  · rfl
  · dsimp only; (repeat' split) <;> simp

@[simp] theorem mem_of_State_loadWave (s : State) (bad : List (Fin 96)) :
    (State.loadWave s bad).mem = s.mem := by unfold State.loadWave; simp

@[simp] theorem mem_of_State_startVerifyEnd (s : State) (bad : List (Fin 96)) :
    (State.startVerifyEnd s bad).mem = s.mem := by unfold State.startVerifyEnd; (repeat' split) <;> simp

@[simp] theorem mem_of_State_setSwap (s : State) (n : Nat) (x : Swap) :
    (State.setSwap s n x).mem = s.mem := by unfold State.setSwap; simp

@[simp] theorem mem_of_State_swapEnd (s : State) (n outcome : Nat) (why : Reason) :
    (State.swapEnd s n outcome why).mem = s.mem := by unfold State.swapEnd; dsimp only; (repeat' split) <;> simp

@[simp] theorem mem_of_State_swapDisarm (n : Nat) (s : State) :
    (State.swapDisarm n s).mem = s.mem := by unfold State.swapDisarm; simp

@[simp] theorem mem_of_State_swapTrig (s : State) (n t : Nat) (late : Bool) :
    (State.swapTrig s n t late).mem = s.mem := by unfold State.swapTrig; simp

@[simp] theorem mem_of_State_swapCtrl (n : Nat) (v : Word) (s : State) :
    (State.swapCtrl n v s).mem = s.mem := by unfold State.swapCtrl; simp

@[simp] theorem mem_of_State_swapMaskWrite (n k : Nat) (v : Word) (s : State) :
    (State.swapMaskWrite n k v s).mem = s.mem := by unfold State.swapMaskWrite; simp

@[simp] theorem mem_of_State_armRefuse (s : State) (n : Nat) (r : Reason) :
    (State.armRefuse s n r).mem = s.mem := by unfold State.armRefuse; simp

@[simp] theorem mem_of_State_armingEnd (s : State) (n : Nat) :
    (State.armingEnd s n).mem = s.mem := by unfold State.armingEnd; dsimp only; (repeat' split) <;> simp

@[simp] theorem mem_of_State_swapPark (m : List Nat) (s : State) :
    (State.swapPark m s).mem = s.mem := by unfold State.swapPark; simp

@[simp] theorem mem_of_State_swapStart (s : State) (n : Nat) :
    (State.swapStart s n).mem = s.mem := by unfold State.swapStart; (repeat' split) <;> simp

@[simp] theorem mem_of_State_swapLeave (t r : Nat) (s : State) :
    (State.swapLeave t r s).mem = s.mem := by unfold State.swapLeave; simp

@[simp] theorem mem_of_State_swapRelease (s : State) (n : Nat) (bad : List (Fin 96)) :
    (State.swapRelease s n bad).mem = s.mem := by unfold State.swapRelease; dsimp only; (repeat' split) <;> simp

@[simp] theorem mem_of_State_swapRevert (s : State) (n : Nat) (bad : List (Fin 96)) :
    (State.swapRevert s n bad).mem = s.mem := by unfold State.swapRevert; simp

@[simp] theorem mem_of_State_swapVerifyEnd (s : State) (n : Nat) (bad : List (Fin 96)) :
    (State.swapVerifyEnd s n bad).mem = s.mem := by unfold State.swapVerifyEnd; dsimp only; (repeat' split) <;> simp

@[simp] theorem mem_of_State_swapMarkFire (s : State) (n due : Nat) (late : Bool) :
    (State.swapMarkFire s n due late).mem = s.mem := by unfold State.swapMarkFire; simp

@[simp] theorem mem_of_State_disarmAll (s : State) :
    (State.disarmAll s).mem = s.mem := by unfold State.disarmAll; simp

@[simp] theorem mem_of_State_roundFree (s : State) (x y : Int) :
    (State.roundFree s x y).2.mem = s.mem := by unfold State.roundFree; (repeat' split) <;> simp

@[simp] theorem mem_of_State_setLink (s : State) (n link reason : Nat) :
    (State.setLink s n link reason).mem = s.mem := by unfold State.setLink; simp

@[simp] theorem mem_of_State_train (s : State) (n reason : Nat) :
    (State.train s n reason).mem = s.mem := by unfold State.train; simp

@[simp] theorem mem_of_State_setPeer (s : State) (n : Nat) (id : PeerId) :
    (State.setPeer s n id).mem = s.mem := by unfold State.setPeer; simp

@[simp] theorem mem_of_State_trained (s : State) (n : Nat) (id : PeerId) :
    (State.trained s n id).mem = s.mem := by unfold State.trained; (repeat' split) <;> simp

@[simp] theorem mem_of_State_trainingTimeout (s : State) (n : Nat) (id : Option PeerId) :
    (State.trainingTimeout s n id).mem = s.mem := by unfold State.trainingTimeout; (repeat' split) <;> simp

@[simp] theorem mem_of_State_transmit (n : Nat) (f : Flit) (s : State) :
    (State.transmit n f s).mem = s.mem := by unfold State.transmit; simp

@[simp] theorem mem_of_State_sendWaiting (n : Nat) (l : List Flit) (s : State) :
    (sendWaiting n l s).mem = s.mem := by
  induction l generalizing s with
  | nil => unfold sendWaiting; simp
  | cons f q ih => unfold sendWaiting; split <;> (try split) <;> simp [ih]

@[simp] theorem mem_of_State_send (n : Nat) (f : Flit) (s : State) :
    (State.send n f s).mem = s.mem := by unfold State.send; simp

@[simp] theorem mem_of_State_flood (ex : Option Nat) (f : Flit) (s : State) :
    (State.flood ex f s).mem = s.mem := by unfold State.flood; simp

@[simp] theorem mem_of_State_sendTree (ex : Option Nat) (f : Flit) (s : State) :
    (State.sendTree ex f s).mem = s.mem := by unfold State.sendTree; simp

@[simp] theorem mem_of_State_receive (n : Nat) (f : Flit) (g : State → State) (s : State) (hg : ∀ (z : State), (g z).mem = z.mem) :
    (State.receive n f g s).mem = s.mem := by unfold State.receive; simp [hg]

@[simp] theorem mem_of_State_censusDrop (s : State) (a : Nat) :
    (State.censusDrop s a).mem = s.mem := by unfold State.censusDrop; simp

@[simp] theorem mem_of_State_censusPut (s : State) (c : CensusInfo) :
    (State.censusPut s c).mem = s.mem := by unfold State.censusPut; simp

@[simp] theorem mem_of_State_diamPut (s : State) (hops : Nat) :
    (State.diamPut s hops).mem = s.mem := by unfold State.diamPut; simp

@[simp] theorem mem_of_State_censusSend (s : State) :
    (State.censusSend s).mem = s.mem := by unfold State.censusSend; simp

@[simp] theorem mem_of_State_passOn (s : State) (n : Nat) (f : Flit) (new : Bool) :
    (State.passOn s n f new).mem = s.mem := by unfold State.passOn; simp

@[simp] theorem mem_of_State_censusTimeout (s : State) (a : BitVec 16) :
    (State.censusTimeout s a).mem = s.mem := by unfold State.censusTimeout; (repeat' split) <;> simp

@[simp] theorem mem_of_State_noticeLink (s : State) (from_ peer : BitVec 16) :
    (State.noticeLink s from_ peer).mem = s.mem := by unfold State.noticeLink; (repeat' split) <;> simp

theorem mem_of_linkDown (s : State) (n link reason : Nat) :
    (((if link = 1 then s.train n reason else s.setLink n link reason).wf (preg n 0x044) 19 18 0).raise (pPort n) 1).mem = s.mem := by
  split <;> simp

theorem mem_of_portNotice (s s1 : State) (n : Nat) (h : s1.mem = s.mem) (own peer : BitVec 16) (x : Port) :
    ((s1.setPort n x).noticeLink own peer).mem = s.mem := by rw [mem_of_State_noticeLink]; exact h

theorem mem_of_noticeSend (s s2 : State) (f : Flit) (h : s2.mem = s.mem) :
    (if !s.isOn pRtr then s2 else if s2.treeStands then sendTree none f s2 else flood none f s2).mem = s.mem := by
  split
  · exact h
  · split <;> simp [h]

@[simp] theorem mem_of_State_linkLost (s : State) (n link reason : Nat) :
    (State.linkLost s n link reason).mem = s.mem := by exact mem_of_noticeSend s _ _ (mem_of_portNotice s _ n (mem_of_linkDown s n link reason) _ _ _)

@[simp] theorem mem_of_State_linkFail (s : State) (n : Nat) (clock : Bool) :
    (State.linkFail s n clock).mem = s.mem := by unfold State.linkFail; simp

@[simp] theorem mem_of_State_crcErr (s : State) (n : Nat) (q : Option (BitVec 16)) :
    (State.crcErr s n q).mem = s.mem := by unfold State.crcErr; dsimp only; (repeat' split) <;> simp

@[simp] theorem mem_of_State_portDown (n reason : Nat) (s : State) :
    (State.portDown n reason s).mem = s.mem := by unfold State.portDown; simp

@[simp] theorem mem_of_State_portStart (s : State) (n : Nat) :
    (State.portStart s n).mem = s.mem := by unfold State.portStart; simp

@[simp] theorem mem_of_State_streamStop (s : State) (ch reason : Nat) :
    (State.streamStop s ch reason).mem = s.mem := by unfold State.streamStop; simp

@[simp] theorem mem_of_State_remoteErr (s : State) (reason off : Nat) :
    (State.remoteErr s reason off).mem = s.mem := by unfold State.remoteErr; simp

@[simp] theorem mem_of_State_remoteFlush (n : Nat) (s : State) : (remoteFlush n s).mem = s.mem := by
  induction n generalizing s with
  | zero => rfl
  | succ n ih =>
    unfold remoteFlush
    split
    · rfl
    · dsimp only; split <;> simp [ih]

@[simp] theorem mem_of_State_remoteFail (s : State) (read : Nat) :
    (State.remoteFail s read).mem = s.mem := by simp [remoteFail]

@[simp] theorem mem_of_State_failed (s : State) (reason cls tag typ : Nat) :
    (State.failed s reason cls tag typ).mem = s.mem := by unfold State.failed; (repeat' split) <;> simp

@[simp] theorem mem_of_State_route (f : Flit) (s : State) :
    (State.route f s).mem = s.mem := by unfold State.route; (repeat' split) <;> simp

@[simp] theorem mem_of_State_undeliver (s : State) (f : Flit) (reason : Nat) :
    (State.undeliver s f reason).mem = s.mem := by unfold State.undeliver; simp

@[simp] theorem mem_of_State_routed (f : Flit) (g : State → State) (s : State) (hg : ∀ (z : State), (g z).mem = z.mem) :
    (State.routed f g s).mem = s.mem := by unfold State.routed; simp [hg]

@[simp] theorem mem_of_State_epoch1 (f : Flit) (g : State → State) (s : State) (hg : ∀ (z : State), (g z).mem = z.mem) :
    (State.epoch1 f g s).mem = s.mem := by unfold State.epoch1; simp [hg]

@[simp] theorem mem_of_State_launch (f : Flit) (g : State → State) (s : State) (hg : ∀ (z : State), (g z).mem = z.mem) :
    (State.launch f g s).mem = s.mem := by unfold State.launch; simp [hg]

@[simp] theorem mem_of_State_undelivered (f : Flit) (s : State) :
    (State.undelivered f s).mem = s.mem := by unfold State.undelivered; (repeat' split) <;> simp

@[simp] theorem mem_of_State_remoteList (s : State) (write : Bool) (read : Nat) (cs : List (Nat × Nat × Nat)) :
    (State.remoteList s write read cs).mem = s.mem := by unfold State.remoteList; simp

@[simp] theorem mem_of_State_remoteChunk (g : Flit → State → State) (write : Bool) (base : Nat) (data : List Byte) (c : Nat × Nat × Nat) (s : State) (hg : ∀ (y0 : Flit) (z : State), (g y0 z).mem = z.mem) :
    (State.remoteChunk g write base data c s).mem = s.mem := by unfold State.remoteChunk; simp [hg]

@[simp] theorem mem_of_State_remoteAccess (g : Flit → State → State) (write : Bool) (off len : Nat) (data : List Byte) (s : State) (hg : ∀ (y0 : Flit) (z : State), (g y0 z).mem = z.mem) :
    (State.remoteAccess g write off len data s).mem = s.mem := by unfold State.remoteAccess; simp [hg]

@[simp] theorem mem_of_State_responded (f : Flit) (s : State) :
    (State.responded f s).mem = s.mem := by unfold State.responded; dsimp only; (repeat' split) <;> simp

@[simp] theorem mem_of_State_remoteTimeout (s : State) :
    (State.remoteTimeout s).mem = s.mem := by unfold State.remoteTimeout; (repeat' split) <;> simp

@[simp] theorem mem_of_State_setStream (s : State) (ch : Nat) (x : Stream) :
    (State.setStream s ch x).mem = s.mem := by unfold State.setStream; simp

@[simp] theorem mem_of_State_streamDrain (n ch : Nat) (s : State) : (streamDrain n ch s).mem = s.mem := by
  induction n generalizing s with
  | zero => rfl
  | succ n ih =>
    unfold streamDrain
    dsimp only; split <;> simp [ih]

@[simp] theorem mem_of_State_streamIn (f : Flit) (s : State) :
    (State.streamIn f s).mem = s.mem := by unfold streamIn; dsimp only; (repeat' split) <;> simp

@[simp] theorem mem_of_State_streamSend (r ch : Nat) (ws : List Word) (s : State) :
    (State.streamSend r ch ws s).mem = s.mem := by unfold State.streamSend; simp

@[simp] theorem mem_of_State_streamPush (s : State) (r ch : Nat) (ws : List Word) :
    (State.streamPush s r ch ws).mem = s.mem := by unfold State.streamPush; simp

@[simp] theorem mem_of_State_streamGap (s : State) (ch : Nat) :
    (State.streamGap s ch).mem = s.mem := by unfold State.streamGap; simp

@[simp] theorem mem_of_State_streamCfg (ch : Nat) (v : Word) (s : State) :
    (State.streamCfg ch v s).mem = s.mem := by unfold State.streamCfg; simp

@[simp] theorem mem_of_State_setCar (s : State) (role : Nat) (locked : Bool) (parent hops root : Nat) :
    (State.setCar s role locked parent hops root).mem = s.mem := by unfold State.setCar; simp

@[simp] theorem mem_of_State_syncSend (s : State) (n : Nat) :
    (State.syncSend s n).mem = s.mem := by unfold State.syncSend; simp

@[simp] theorem mem_of_State_syncIn (s : State) (n : Nat) :
    (State.syncIn s n).mem = s.mem := by unfold State.syncIn; simp

@[simp] theorem mem_of_State_echoIn (s : State) (n : Nat) (f : Flit) :
    (State.echoIn s n f).mem = s.mem := by unfold State.echoIn; (repeat' split) <;> simp

@[simp] theorem mem_of_State_formTree (s : State) (parent : Option Nat) :
    (State.formTree s parent).mem = s.mem := by unfold State.formTree; simp

@[simp] theorem mem_of_State_swapParent (s : State) (n : Nat) :
    (State.swapParent s n).mem = s.mem := by unfold State.swapParent; simp

@[simp] theorem mem_of_State_clearTree (s : State) :
    (State.clearTree s).mem = s.mem := by unfold State.clearTree; simp

@[simp] theorem mem_of_State_rerootClaim (s : State) :
    (State.rerootClaim s).2.mem = s.mem := by unfold State.rerootClaim; (repeat' split) <;> simp

@[simp] theorem mem_of_State_rerootEnd (s : State) :
    (State.rerootEnd s).mem = s.mem := by unfold State.rerootEnd; simp

@[simp] theorem mem_of_State_enterElecting (s : State) (lost : Nat) :
    (State.enterElecting s lost).mem = s.mem := by unfold State.enterElecting; simp

@[simp] theorem mem_of_State_carOut (s : State) :
    (State.carOut s).mem = s.mem := by unfold State.carOut; simp

@[simp] theorem mem_of_State_rerooting (f : State → State) (s : State) (hf : ∀ (z : State), (f z).mem = z.mem) :
    (State.rerooting f s).mem = s.mem := by unfold State.rerooting; simp [hf]

@[simp] theorem mem_of_State_becomeRoot (s : State) (from_ : Nat) :
    (State.becomeRoot s from_).mem = s.mem := by unfold State.becomeRoot; simp

@[simp] theorem mem_of_State_tryRoot (s : State) :
    (State.tryRoot s).mem = s.mem := by unfold State.tryRoot; simp

@[simp] theorem mem_of_State_electionTimeout (s : State) :
    (State.electionTimeout s).mem = s.mem := by unfold State.electionTimeout; simp

@[simp] theorem mem_of_State_beatTimeout (s : State) :
    (State.beatTimeout s).mem = s.mem := by unfold State.beatTimeout; simp

@[simp] theorem mem_of_State_rootLostIn (s : State) (n : Nat) (f : Flit) :
    (State.rootLostIn s n f).mem = s.mem := by unfold State.rootLostIn; simp

@[simp] theorem mem_of_State_beatSend (s : State) :
    (State.beatSend s).mem = s.mem := by unfold State.beatSend; simp

@[simp] theorem mem_of_State_setCompat (s : State) (w : Word) :
    (State.setCompat s w).mem = s.mem := by unfold State.setCompat; simp

@[simp] theorem mem_of_State_followBeat (n root hops : Nat) (f : Flit) (new : Bool) (s : State) :
    (State.followBeat n root hops f new s).mem = s.mem := by unfold State.followBeat; (repeat' split) <;> simp

@[simp] theorem mem_of_State_beatIn (s0 : State) (n : Nat) (f : Flit) :
    (State.beatIn s0 n f).mem = s0.mem := by unfold State.beatIn; split <;> dsimp only <;> (repeat' split) <;> simp

@[simp] theorem mem_of_State_rootHandover (s : State) :
    (State.rootHandover s).mem = s.mem := by unfold State.rootHandover; dsimp only; (repeat' split) <;> simp

@[simp] theorem mem_of_State_handoverIn (s : State) (n : Nat) (f : Flit) :
    (State.handoverIn s n f).mem = s.mem := by unfold State.handoverIn; simp

@[simp] theorem mem_of_State_carStart (s : State) :
    (State.carStart s).mem = s.mem := by unfold State.carStart; simp

@[simp] theorem mem_of_State_carStop (s : State) :
    (State.carStop s).mem = s.mem := by unfold State.carStop; simp

@[simp] theorem mem_of_State_segmentHere (s : State) (g : Nat) (x : GSeg) :
    (State.segmentHere s g x).mem = s.mem := by unfold State.segmentHere; simp

@[simp] theorem mem_of_State_segmentSend (s : State) (d : Nat) :
    (State.segmentSend s d).mem = s.mem := by unfold State.segmentSend; simp

@[simp] theorem mem_of_State_segmentIn (s : State) (n : Nat) (f : Flit) :
    (State.segmentIn s n f).mem = s.mem := by unfold State.segmentIn; simp

@[simp] theorem mem_of_State_pubWrite (d : Nat) (v : Word) (s : State) :
    (State.pubWrite d v s).mem = s.mem := by unfold State.pubWrite; simp

@[simp] theorem mem_of_State_compatWrite (v : Word) (s : State) :
    (State.compatWrite v s).mem = s.mem := by unfold State.compatWrite; simp

@[simp] theorem mem_of_State_compatIn (s : State) (f : Flit) :
    (State.compatIn s f).mem = s.mem := by unfold State.compatIn; simp

@[simp] theorem mem_of_State_ltimeRead (s : State) :
    (State.ltimeRead s).mem = s.mem := by unfold State.ltimeRead; simp

@[simp] theorem mem_of_State_pealRefuse (s : State) (n : Nat) (r : Reason) (short : Bool) :
    (State.pealRefuse s n r short).mem = s.mem := by simp [pealRefuse]

@[simp] theorem mem_of_State_pealMark (w : HeldPeal) (d : Nat) (s : State) :
    (State.pealMark w d s).mem = s.mem := by unfold State.pealMark; simp

@[simp] theorem mem_of_State_pealHere (w : HeldPeal) (s : State) :
    (State.pealHere w s).mem = s.mem := by unfold State.pealHere; simp

@[simp] theorem mem_of_State_pealOut (w : HeldPeal) (s : State) :
    (State.pealOut w s).mem = s.mem := by unfold State.pealOut; simp

@[simp] theorem mem_of_State_pealSend (n : Nat) (pos : Option Nat) (s : State) :
    (State.pealSend n pos s).mem = s.mem := by unfold State.pealSend; (repeat' split) <;> simp

@[simp] theorem mem_of_State_pealWrite (v : Word) (s : State) :
    (State.pealWrite v s).mem = s.mem := by unfold State.pealWrite; simp

@[simp] theorem mem_of_State_pealFree (w : HeldPeal) (s : State) :
    (State.pealFree w s).mem = s.mem := by unfold State.pealFree; (repeat' split) <;> simp

@[simp] theorem mem_of_State_pealRelease (s : State) :
    (State.pealRelease s).mem = s.mem := by unfold State.pealRelease; simp

@[simp] theorem mem_of_State_pealIn (s : State) (n : Nat) (f : Flit) :
    (State.pealIn s n f).mem = s.mem := by unfold State.pealIn; (repeat' split) <;> simp

theorem mem_of_State_gongPins (f : State → Nat → State) (hf : ∀ (z : State) i, (f z i).mem = z.mem) (s : State) :
    (State.gongPins f s).mem = s.mem := by simp [gongPins, hf]

@[simp] theorem mem_of_gong_parkStart (s : State) : (State.gongPins parkStart s).mem = s.mem :=
  mem_of_State_gongPins _ (fun z i => by simp) s

@[simp] theorem mem_of_gong_parkRest (s : State) : (State.gongPins parkRest s).mem = s.mem :=
  mem_of_State_gongPins _ (fun z i => by simp) s

@[simp] theorem mem_of_State_gongEnter (id : BitVec 32) (cause : Nat) (s : State) :
    (State.gongEnter id cause s).mem = s.mem := by   unfold gongEnter; cases s.gong <;> simp

@[simp] theorem mem_of_State_gongRing (cause : Nat) (s : State) :
    (State.gongRing cause s).mem = s.mem := by unfold State.gongRing; simp

@[simp] theorem mem_of_State_gongCheck (s : State) :
    (State.gongCheck s).mem = s.mem := by unfold State.gongCheck; simp

@[simp] theorem mem_of_State_gongCleared (s : State) (id : BitVec 32) :
    (State.gongCleared s id).mem = s.mem := by unfold State.gongCleared; simp

@[simp] theorem mem_of_State_gongCtrl (v : Word) (s : State) :
    (State.gongCtrl v s).mem = s.mem := by unfold State.gongCtrl; simp

@[simp] theorem mem_of_State_ringIn (s : State) (n : Nat) (f : Flit) :
    (State.ringIn s n f).mem = s.mem := by unfold State.ringIn; simp

@[simp] theorem mem_of_State_clearIn (s : State) (n : Nat) (f : Flit) :
    (State.clearIn s n f).mem = s.mem := by unfold State.clearIn; simp

@[simp] theorem mem_of_State_abortFall (s : State) :
    (State.abortFall s).mem = s.mem := by unfold State.abortFall; simp

@[simp] theorem mem_of_State_abortRise (s : State) :
    (State.abortRise s).mem = s.mem := by unfold State.abortRise; simp

@[simp] theorem mem_of_State_abortExpiry (s : State) :
    (State.abortExpiry s).mem = s.mem := by unfold State.abortExpiry; simp

@[simp] theorem mem_of_carRow (n : Nat) (f : Flit) (typ : Nat) (g : State → State) (s : State) (hg : ∀ (z : State), (g z).mem = z.mem) :
    (carRow n f typ g s).mem = s.mem := by unfold carRow; simp [hg]

@[simp] theorem mem_of_State_txHeader (p k : Nat) (v : Word) (s : State) :
    (State.txHeader p k v s).mem = s.mem := by unfold State.txHeader; simp

@[simp] theorem mem_of_State_txDataWrite (p : Nat) (v : Word) (s : State) :
    (State.txDataWrite p v s).mem = s.mem := by unfold State.txDataWrite; simp

@[simp] theorem mem_of_State_txCtrl (p : Nat) (v : Word) (s : State) :
    (State.txCtrl p v s).mem = s.mem := by unfold State.txCtrl; simp

@[simp] theorem mem_of_State_rxCtrl (p : Nat) (v : Word) (s : State) :
    (State.rxCtrl p v s).mem = s.mem := by unfold State.rxCtrl; (repeat' split) <;> simp

@[simp] theorem mem_of_State_rxData (p : Nat) (s : State) :
    (State.rxData p s).mem = s.mem := by unfold State.rxData; (repeat' split) <;> simp

@[simp] theorem mem_of_State_pstatRead (p : Nat) (s : State) :
    (State.pstatRead p s).mem = s.mem := by unfold State.pstatRead; simp

@[simp] theorem mem_of_State_portPush (s : State) (r p : Nat) (w : Word) :
    (State.portPush s r p w).mem = s.mem := by unfold State.portPush; simp

@[simp] theorem mem_of_State_portPop (s : State) (r p : Nat) :
    (State.portPop s r p).mem = s.mem := by unfold State.portPop; dsimp only; (repeat' split) <;> simp

@[simp] theorem mem_of_State_protoPort (s : State) (r p : Nat) (push : Bool) (w : Word) :
    (State.protoPort s r p push w).mem = s.mem := by unfold State.protoPort; simp

@[simp] theorem mem_of_State_canSync (s : State) (p : Nat) :
    (State.canSync s p).mem = s.mem := by unfold State.canSync; simp

@[simp] theorem mem_of_State_canTx (s : State) (p : Nat) (ok : Bool) :
    (State.canTx s p ok).mem = s.mem := by unfold State.canTx; simp

@[simp] theorem mem_of_State_canRx (s : State) (p : Nat) (ok : Bool) :
    (State.canRx s p ok).mem = s.mem := by unfold State.canRx; simp

@[simp] theorem mem_of_State_linPublish (s : State) (p k : Nat) :
    (State.linPublish s p k).mem = s.mem := by unfold State.linPublish; simp

@[simp] theorem mem_of_State_storeFrame (s : State) (p : Nat) (fr : Frame) :
    (State.storeFrame s p fr).mem = s.mem := by unfold State.storeFrame; simp

@[simp] theorem mem_of_State_calOk (s : State) (p : Nat) (fr : Frame) :
    (State.calOk s p fr).2.mem = s.mem := by unfold State.calOk; (repeat' split) <;> simp

@[simp] theorem mem_of_State_pauseTake (s : State) (p : Nat) (fr : Frame) :
    (State.pauseTake s p fr).mem = s.mem := by unfold State.pauseTake; simp

@[simp] theorem mem_of_State_frameIn (s : State) (p : Nat) (fr : Frame) :
    (State.frameIn s p fr).mem = s.mem := by unfold State.frameIn; (repeat' split) <;> simp

@[simp] theorem mem_of_State_frameReceived (s : State) (p : Nat) (fr : Frame) :
    (State.frameReceived s p fr).mem = s.mem := by unfold State.frameReceived; (repeat' split) <;> simp

@[simp] theorem mem_of_State_frameOut (s : State) (p : Nat) (e : Entry) :
    (State.frameOut s p e).mem = s.mem := by unfold State.frameOut; simp

@[simp] theorem mem_of_State_ethLoop (s : State) (p : Nat) (e : Entry) (start : Nat) :
    (State.ethLoop s p e start).mem = s.mem := by unfold State.ethLoop; simp

@[simp] theorem mem_of_State_frameSent (s : State) (p status start : Nat) :
    (State.frameSent s p status start).mem = s.mem := by unfold State.frameSent; (repeat' split) <;> simp

@[simp] theorem mem_of_State_atCrossing (s : State) (p : Nat) :
    (State.atCrossing s p).mem = s.mem := by unfold State.atCrossing; dsimp only; (repeat' split) <;> simp

@[simp] theorem mem_of_State_noResponse (s : State) (p : Nat) (id : BitVec 6) (start : Nat) :
    (State.noResponse s p id start).mem = s.mem := by unfold State.noResponse; (repeat' split) <;> simp

@[simp] theorem mem_of_State_busOffRecovered (s : State) (p : Nat) :
    (State.busOffRecovered s p).mem = s.mem := by unfold State.busOffRecovered; simp

@[simp] theorem mem_of_State_protoRejoin (s : State) (p : Nat) :
    (State.protoRejoin s p).mem = s.mem := by unfold State.protoRejoin; simp

@[simp] theorem mem_of_State_mdioWrite (p : Nat) (v : Word) (s : State) :
    (State.mdioWrite p v s).mem = s.mem := by unfold State.mdioWrite; simp

@[simp] theorem mem_of_State_mdioDone (s : State) (p : Nat) (data : BitVec 16) :
    (State.mdioDone s p data).mem = s.mem := by unfold State.mdioDone; simp

@[simp] theorem mem_of_State_laneRx (s : State) (k : Nat) (w : BitVec 72) :
    (State.laneRx s k w).mem = s.mem := by unfold State.laneRx; simp

@[simp] theorem mem_of_State_laneRxWord (s : State) (k : Nat) (w : BitVec 72) (errs : LaneErrs) :
    (State.laneRxWord s k w errs).mem = s.mem := by unfold State.laneRxWord; simp

@[simp] theorem mem_of_State_lanePrbs (s : State) (k : Nat) :
    (State.lanePrbs s k).mem = s.mem := by unfold State.lanePrbs; simp

@[simp] theorem mem_of_State_laneTxWord (s : State) (k : Nat) :
    (State.laneTxWord s k).mem = s.mem := by unfold State.laneTxWord; simp

@[simp] theorem mem_of_State_lanePush (s : State) (r k : Nat) (w : BitVec 72) :
    (State.lanePush s r k w).mem = s.mem := by unfold State.lanePush; simp

@[simp] theorem mem_of_State_laneLock (s : State) (k lk khz : Nat) :
    (State.laneLock s k lk khz).mem = s.mem := by unfold State.laneLock; simp

@[simp] theorem mem_of_State_laneStart (s : State) (k : Nat) :
    (State.laneStart s k).mem = s.mem := by unfold State.laneStart; simp

@[simp] theorem mem_of_State_laneStop (s : State) (k : Nat) :
    (State.laneStop s k).mem = s.mem := by unfold State.laneStop; simp

@[simp] theorem mem_of_State_laneStatRead (k : Nat) (s : State) :
    (State.laneStatRead k s).mem = s.mem := by unfold State.laneStatRead; simp

@[simp] theorem mem_of_State_prbsRead (k : Nat) (s : State) :
    (State.prbsRead k s).mem = s.mem := by unfold State.prbsRead; simp

@[simp] theorem mem_of_State_releaseAll (s : State) :
    (State.releaseAll s).mem = s.mem := by unfold State.releaseAll; simp

@[simp] theorem mem_of_State_setVecMask (v : Nat) (b : Bool) (s : State) :
    (State.setVecMask v b s).mem = s.mem := by unfold State.setVecMask; simp

@[simp] theorem mem_of_State_setFuncMask (b : Bool) (s : State) :
    (State.setFuncMask b s).mem = s.mem := by unfold State.setFuncMask; simp

@[simp] theorem mem_of_State_msixUnmask (vec : Option Nat) (s : State) :
    (State.msixUnmask vec s).mem = s.mem := by unfold State.msixUnmask; (repeat' split) <;> simp

@[simp] theorem mem_of_State_msixTable (o : Nat) (v : Word) (s : State) :
    (State.msixTable o v s).mem = s.mem := by unfold State.msixTable; simp

@[simp] theorem mem_of_State_endpointReset (link : Word) (s : State) :
    (State.endpointReset link s).mem = s.mem := by unfold State.endpointReset; simp

@[simp] theorem mem_of_State_hotReset (s : State) :
    (State.hotReset s).mem = s.mem := by unfold State.hotReset; simp

@[simp] theorem mem_of_State_flr (s : State) :
    (State.flr s).mem = s.mem := by unfold State.flr; simp

@[simp] theorem mem_of_State_linkDownReset (s : State) :
    (State.linkDownReset s).mem = s.mem := by unfold State.linkDownReset; simp

@[simp] theorem mem_of_State_perstN (level : Bool) (s : State) :
    (State.perstN level s).mem = s.mem := by unfold State.perstN; simp

@[simp] theorem mem_of_State_d3hot (enter bme : Bool) (c : PcieCfg) (s : State) :
    (State.d3hot enter bme c s).mem = s.mem := by unfold State.d3hot; simp

@[simp] theorem mem_of_State_pcieLinkUp (speed : Nat) (width : Nat) (s : State) :
    (State.pcieLinkUp speed width s).mem = s.mem := by unfold State.pcieLinkUp; simp

@[simp] theorem mem_of_State_dmaEnd (steward : Bool) (e : DmaEnd) (s : State) :
    (State.dmaEnd steward e s).mem = s.mem := by unfold State.dmaEnd; (repeat' split) <;> simp

@[simp] theorem mem_of_State_dmaTimeout (steward : Bool) (s : State) :
    (State.dmaTimeout steward s).mem = s.mem := by unfold State.dmaTimeout; (repeat' split) <;> simp

@[simp] theorem mem_of_State_smbus (code : Nat) (block : Bool) (bs : State → List Byte) (s : State) :
    (State.smbus code block bs s).mem = s.mem := by unfold State.smbus; simp

@[simp] theorem mem_of_State_smbArp (op : SmbArp) (s : State) :
    (State.smbArp op s).mem = s.mem := by unfold State.smbArp; (repeat' split) <;> simp

@[simp] theorem mem_of_State_setTest (s : State) (u : Nat) (x : Test) :
    (State.setTest s u x).mem = s.mem := by unfold State.setTest; simp

@[simp] theorem mem_of_State_dropTest (s : State) (u : Nat) :
    (State.dropTest s u).mem = s.mem := by unfold State.dropTest; simp

@[simp] theorem mem_of_State_driveOff (u : Nat) (s : State) :
    (State.driveOff u s).mem = s.mem := by unfold State.driveOff; simp

@[simp] theorem mem_of_State_unitHalt (u : Nat) (s : State) :
    (State.unitHalt u s).mem = s.mem := by unfold State.unitHalt; simp

@[simp] theorem mem_of_State_testStart (s : State) (u : Nat) :
    (State.testStart s u).mem = s.mem := by unfold State.testStart; (repeat' split) <;> simp

@[simp] theorem mem_of_State_pageClear (p : Nat) (s : State) :
    (State.pageClear p s).mem = s.mem := by unfold State.pageClear; simp

@[simp] theorem mem_of_State_showResult (u why result pats : Nat) (misr : BitVec 64) (mem : Bool) (s : State) :
    (State.showResult u why result pats misr mem s).mem = s.mem := by unfold State.showResult; simp

@[simp] theorem mem_of_State_schedOne (u : Nat) (s : State) :
    (State.schedOne u s).mem = s.mem := by unfold State.schedOne; dsimp only; (repeat' split) <;> simp

@[simp] theorem mem_of_State_schedule (s : State) :
    (State.schedule s).mem = s.mem := by unfold State.schedule; simp

@[simp] theorem mem_of_State_releaseClaim (v : Word) (s : State) :
    (State.releaseClaim v s).mem = s.mem := by unfold State.releaseClaim; simp

@[simp] theorem mem_of_State_budgetSet (v : Word) (s : State) :
    (State.budgetSet v s).mem = s.mem := by unfold State.budgetSet; simp

@[simp] theorem mem_of_State_shutDone (s : State) :
    (State.shutDone s).mem = s.mem := by unfold State.shutDone; simp

@[simp] theorem mem_of_State_retestDone (s : State) :
    (State.retestDone s).mem = s.mem := by unfold State.retestDone; simp

@[simp] theorem mem_of_State_holdTimeout (s : State) :
    (State.holdTimeout s).mem = s.mem := by unfold State.holdTimeout; simp

@[simp] theorem mem_of_State_bistRefuse (r : Reason) (s : State) :
    (State.bistRefuse r s).mem = s.mem := by unfold State.bistRefuse; simp

@[simp] theorem mem_of_State_bistCmd (v : Word) (s : State) :
    (State.bistCmd v s).mem = s.mem := by unfold State.bistCmd; dsimp only; (repeat' split) <;> simp

@[simp] theorem mem_of_State_bistCfg (v : Word) (s : State) :
    (State.bistCfg v s).mem = s.mem := by unfold State.bistCfg; simp

@[simp] theorem mem_of_State_setCells (s : State) (b : Nat) (n : Nat) :
    (State.setCells s b n).mem = s.mem := by unfold State.setCells; simp

@[simp] theorem mem_of_State_setDigest (s : State) (k : Nat) (x : Digest) :
    (State.setDigest s k x).mem = s.mem := by unfold State.setDigest; simp

@[simp] theorem mem_of_State_setKeySlot (s : State) (k : Nat) (x : KeySlot) :
    (State.setKeySlot s k x).mem = s.mem := by unfold State.setKeySlot; simp

@[simp] theorem mem_of_State_secCommit (c : SecCmd) (b : Bool) (s : State) :
    (State.secCommit c b s).mem = s.mem := by unfold State.secCommit; simp

@[simp] theorem mem_of_State_otpCut (s : State) :
    (State.otpCut s).mem = s.mem := by unfold State.otpCut; dsimp only; (repeat' split) <;> simp

@[simp] theorem mem_of_State_keepReg (old : State) (s : State) (k : Nat) :
    (State.keepReg old s k).mem = s.mem := by unfold State.keepReg; simp

@[simp] theorem mem_of_State_holdFault (code : Nat) (s : State) :
    (State.holdFault code s).mem = s.mem := by unfold State.holdFault; simp

@[simp] theorem mem_of_State_stopAll (s : State) :
    (State.stopAll s).mem = s.mem := by unfold State.stopAll; simp

@[simp] theorem mem_of_State_shutdown (v : Word) (s : State) :
    (State.shutdown v s).mem = s.mem := by unfold State.shutdown; simp

@[simp] theorem mem_of_State_rollForward (s : State) :
    (State.rollForward s).mem = s.mem := by unfold State.rollForward; simp

@[simp] theorem mem_of_State_clearToken (s : State) :
    (State.clearToken s).mem = s.mem := by unfold State.clearToken; simp

@[simp] theorem mem_of_State_lcRefuse (r : Reason) (s : State) :
    (State.lcRefuse r s).mem = s.mem := by unfold State.lcRefuse; simp

@[simp] theorem mem_of_State_portOff (n : Nat) (s : State) :
    (State.portOff n s).mem = s.mem := by unfold State.portOff; simp

@[simp] theorem mem_of_State_lcMismatch (s : State) :
    (State.lcMismatch s).mem = s.mem := by unfold State.lcMismatch; simp

@[simp] theorem mem_of_State_secRefuse (r : Reason) (s : State) :
    (State.secRefuse r s).mem = s.mem := by unfold State.secRefuse; simp

@[simp] theorem mem_of_State_secCmd (v : Word) (s : State) :
    (State.secCmd v s).mem = s.mem := by unfold State.secCmd; simp

@[simp] theorem mem_of_State_secDone (c : SecCmd) (s : State) :
    (State.secDone c s).mem = s.mem := by unfold State.secDone; simp

@[simp] theorem mem_of_State_secBit (c : SecCmd) (ok : Bool) (s : State) :
    (State.secBit c ok s).mem = s.mem := by unfold State.secBit; simp

@[simp] theorem mem_of_State_profileWrite (v : Word) (s : State) :
    (State.profileWrite v s).mem = s.mem := by unfold State.profileWrite; simp

@[simp] theorem mem_of_gateL (a : Agent) (p : Nat) (f : State → State) (s : State) (hf : ∀ (z : State), (f z).mem = z.mem) :
    (gateL a p f s).mem = s.mem := by unfold gateL; simp [hf]

@[simp] theorem mem_of_State_trimWrite (p off : Nat) (v : Word) (s : State) :
    (State.trimWrite p off v s).mem = s.mem := by unfold State.trimWrite; simp

@[simp] theorem mem_of_State_storeReg (p off : Nat) (v : Word) (s : State) :
    (State.storeReg p off v s).mem = s.mem := by unfold State.storeReg; (repeat' split) <;> simp

@[simp] theorem mem_of_State_storeUnless (bad : Bool) (p off : Nat) (v : Word) (s : State) :
    (State.storeUnless bad p off v s).mem = s.mem := by unfold State.storeUnless; simp

@[simp] theorem mem_of_State_blockStart (p : Nat) (s : State) :
    (State.blockStart p s).mem = s.mem := by unfold State.blockStart; (repeat' split) <;> simp

@[simp] theorem mem_of_State_blockStop (p : Nat) (s : State) :
    (State.blockStop p s).mem = s.mem := by unfold State.blockStop; (repeat' split) <;> simp

@[simp] theorem mem_of_State_unitOff (p : Nat) (s : State) :
    (State.unitOff p s).mem = s.mem := by unfold State.unitOff; simp

@[simp] theorem mem_of_State_checkStart (p : Nat) (s : State) :
    (State.checkStart p s).mem = s.mem := by unfold State.checkStart; simp

@[simp] theorem mem_of_State_checkFail (p st : Nat) (r : Reason) (s : State) :
    (State.checkFail p st r s).mem = s.mem := by unfold State.checkFail; simp

@[simp] theorem mem_of_State_unchecked (s : State) (p : Nat) :
    (State.unchecked s p).mem = s.mem := by exact rfl

@[simp] theorem mem_of_State_goOn (p : Nat) (s : State) :
    (State.goOn p s).mem = s.mem := by unfold State.goOn; simp

@[simp] theorem mem_of_State_checkEnd (p : Nat) (lref : Bool) (s : State) :
    (State.checkEnd p lref s).mem = s.mem := by unfold State.checkEnd; dsimp only; (repeat' split) <;> simp

@[simp] theorem mem_of_State_ctrlStore (p : Nat) (v : Word) (s : State) :
    (State.ctrlStore p v s).mem = s.mem := by exact rfl

@[simp] theorem mem_of_State_ctrlStores (p : Nat) (v : Word) (s : State) :
    (State.ctrlStores p v s).mem = s.mem := by unfold State.ctrlStores; split <;> simp

@[simp] theorem mem_of_State_ctrlWrite (p : Nat) (v : Word) (s : State) :
    (State.ctrlWrite p v s).mem = s.mem := by unfold State.ctrlWrite; simp

@[simp] theorem mem_of_State_eventWrite (p : Nat) (v : Word) (s : State) :
    (State.eventWrite p v s).mem = s.mem := by unfold State.eventWrite; simp

@[simp] theorem mem_of_State_maskWrite (p : Nat) (v : Word) (s : State) :
    (State.maskWrite p v s).mem = s.mem := by unfold State.maskWrite; simp

@[simp] theorem mem_of_State_ownerWrite (p : Nat) (v : Word) (s : State) :
    (State.ownerWrite p v s).mem = s.mem := by unfold State.ownerWrite; simp

@[simp] theorem mem_of_State_lockWrite (p : Nat) (v : Word) (s : State) :
    (State.lockWrite p v s).mem = s.mem := by unfold State.lockWrite; simp

@[simp] theorem mem_of_State_headerWrite (p off : Nat) (v : Word) (s : State) :
    (State.headerWrite p off v s).mem = s.mem := by unfold State.headerWrite; simp

@[simp] theorem mem_of_State_privOnly (a : Agent) (f : State → State) (s : State) (hf : ∀ (z : State), (f z).mem = z.mem) :
    (State.privOnly a f s).mem = s.mem := by unfold State.privOnly; simp [hf]

@[simp] theorem mem_of_State_vmapWrite (off : Nat) (v : Word) (s : State) :
    (State.vmapWrite off v s).mem = s.mem := by unfold State.vmapWrite; simp

@[simp] theorem mem_of_State_cntPageWrite (a : Agent) (off : Nat) (v : Word) (s : State) :
    (State.cntPageWrite a off v s).mem = s.mem := by unfold State.cntPageWrite; (repeat' split) <;> simp

@[simp] theorem mem_of_State_imgPageWrite (a : Agent) (off : Nat) (v : Word) (s : State) :
    (State.imgPageWrite a off v s).mem = s.mem := by unfold State.imgPageWrite; simp

@[simp] theorem mem_of_State_domPageWrite (a : Agent) (d off : Nat) (v : Word) (s : State) :
    (State.domPageWrite a d off v s).mem = s.mem := by unfold State.domPageWrite; simp

@[simp] theorem mem_of_State_carPageWrite (off : Nat) (v : Word) (s : State) :
    (State.carPageWrite off v s).mem = s.mem := by unfold State.carPageWrite; simp

@[simp] theorem mem_of_State_rtrPageWrite (a : Agent) (off : Nat) (v : Word) (s : State) :
    (State.rtrPageWrite a off v s).mem = s.mem := by unfold State.rtrPageWrite; simp

@[simp] theorem mem_of_State_protoPageWrite (p off : Nat) (v : Word) (s : State) :
    (State.protoPageWrite p off v s).mem = s.mem := by unfold State.protoPageWrite; simp

@[simp] theorem mem_of_State_grpPageWrite (a : Agent) (g off : Nat) (v : Word) (s : State) :
    (State.grpPageWrite a g off v s).mem = s.mem := by unfold State.grpPageWrite; simp

@[simp] theorem mem_of_State_seqPageWrite (q off : Nat) (v : Word) (s : State) :
    (State.seqPageWrite q off v s).mem = s.mem := by unfold State.seqPageWrite; simp

@[simp] theorem mem_of_State_anaPageWrite (g off : Nat) (v : Word) (s : State) :
    (State.anaPageWrite g off v s).mem = s.mem := by unfold State.anaPageWrite; simp

@[simp] theorem mem_of_State_pageGate (a : Agent) (p : Nat) (f : State → State) (s : State) (hf : ∀ (z : State), (f z).mem = z.mem) :
    (State.pageGate a p f s).mem = s.mem := by unfold State.pageGate; simp [hf]

@[simp] theorem mem_of_State_retw (w : Word) (s : State) :
    (State.retw w s).mem = s.mem := by unfold State.retw; simp

@[simp] theorem mem_of_State_readStored (p off : Nat) (s : State) :
    (State.readStored p off s).mem = s.mem := by unfold State.readStored; simp

@[simp] theorem mem_of_State_stwRead (off : Nat) (s : State) :
    (State.stwRead off s).mem = s.mem := by unfold State.stwRead; simp

@[simp] theorem mem_of_State_ledgerRead (off : Nat) (s : State) :
    (State.ledgerRead off s).mem = s.mem := by unfold State.ledgerRead; (repeat' split) <;> simp

@[simp] theorem mem_of_State_lifeRead (off : Nat) (s : State) :
    (State.lifeRead off s).mem = s.mem := by unfold State.lifeRead; (repeat' split) <;> simp

@[simp] theorem mem_of_State_secRead (off : Nat) (s : State) :
    (State.secRead off s).mem = s.mem := by unfold State.secRead; simp

@[simp] theorem mem_of_State_bistRead (off : Nat) (s : State) :
    (State.bistRead off s).mem = s.mem := by unfold State.bistRead; (repeat' split) <;> simp

@[simp] theorem mem_of_State_cntPageRead (a : Agent) (off : Nat) (s : State) :
    (State.cntPageRead a off s).mem = s.mem := by unfold State.cntPageRead; (repeat' split) <;> simp

@[simp] theorem mem_of_State_storeRead (off : Nat) (s : State) :
    (State.storeRead off s).mem = s.mem := by unfold State.storeRead; (repeat' split) <;> simp

@[simp] theorem mem_of_State_imgRead (off : Nat) (s : State) :
    (State.imgRead off s).mem = s.mem := by unfold State.imgRead; simp

@[simp] theorem mem_of_State_domPageRead (d off : Nat) (s : State) :
    (State.domPageRead d off s).mem = s.mem := by unfold State.domPageRead; (repeat' split) <;> simp

@[simp] theorem mem_of_State_carPageRead (off : Nat) (s : State) :
    (State.carPageRead off s).mem = s.mem := by unfold State.carPageRead; (repeat' split) <;> simp

@[simp] theorem mem_of_State_rtrPageRead (off : Nat) (s : State) :
    (State.rtrPageRead off s).mem = s.mem := by unfold State.rtrPageRead; (repeat' split) <;> simp

@[simp] theorem mem_of_State_protoPageRead (p off : Nat) (s : State) :
    (State.protoPageRead p off s).mem = s.mem := by unfold State.protoPageRead; (repeat' split) <;> simp

@[simp] theorem mem_of_State_regionPageRead (r off : Nat) (s : State) :
    (State.regionPageRead r off s).mem = s.mem := by unfold State.regionPageRead; (repeat' split) <;> simp

@[simp] theorem mem_of_State_grpPageRead (g off : Nat) (s : State) :
    (State.grpPageRead g off s).mem = s.mem := by unfold State.grpPageRead; (repeat' split) <;> simp

@[simp] theorem mem_of_State_seqPageRead (q off : Nat) (s : State) :
    (State.seqPageRead q off s).mem = s.mem := by unfold State.seqPageRead; simp

@[simp] theorem mem_of_State_anaPageRead (g off : Nat) (s : State) :
    (State.anaPageRead g off s).mem = s.mem := by unfold State.anaPageRead; (repeat' split) <;> simp

@[simp] theorem mem_of_State_pageRead (a : Agent) (p off : Nat) (s : State) :
    (State.pageRead a p off s).mem = s.mem := by unfold State.pageRead; (repeat' split) <;> simp

@[simp] theorem mem_of_State_headerRead (p off : Nat) (s : State) :
    (State.headerRead p off s).mem = s.mem := by unfold State.headerRead; (repeat' split) <;> simp

@[simp] theorem mem_of_State_regRead (a : Agent) (p off : Nat) (s : State) :
    (State.regRead a p off s).mem = s.mem := by unfold State.regRead; simp

@[simp] theorem mem_of_State_sizeErr (s : State) :
    (State.sizeErr s).mem = s.mem := by unfold State.sizeErr; simp

@[simp] theorem mem_of_State_setGpr (s : State) (q n : Nat) (v : Word) :
    (State.setGpr s q n v).mem = s.mem := by unfold State.setGpr; simp

@[simp] theorem mem_of_State_fetchFault (s : State) (q : Nat) :
    (State.fetchFault s q).mem = s.mem := by unfold State.fetchFault; simp

@[simp] theorem mem_of_State_lineFill (s : State) (q b l : Nat) (bad : BitVec 8) :
    (State.lineFill s q b l bad).mem = s.mem := by simp [lineFill]

@[simp] theorem mem_of_State_lineRead (s : State) (q : Nat) (bad : BitVec 8) :
    (State.lineRead s q bad).mem = s.mem := by unfold lineRead; split <;> simp

@[simp] theorem mem_of_State_xipTouch (s : State) (q : Nat) :
    (State.xipTouch s q).mem = s.mem := by unfold State.xipTouch; simp

@[simp] theorem mem_of_State_confined (q w : Nat) (s : State) :
    (State.confined q w s).mem = s.mem := by unfold State.confined; simp

@[simp] theorem mem_of_State_instr (q : Nat) (sel : Nat → Bool) (f : Nat → State → State) (s0 : State) (hf : ∀ (y0 : Nat) (z : State), (f y0 z).mem = z.mem) :
    (State.instr q sel f s0).mem = s0.mem := by unfold State.instr; dsimp only; (repeat' split) <;> simp [hf]

@[simp] theorem mem_of_State_opcode (q op : Nat) (f : Nat → State → State) (s : State) (hf : ∀ (y0 : Nat) (z : State), (f y0 z).mem = z.mem) :
    (State.opcode q op f s).mem = s.mem := by unfold State.opcode; simp [hf]

@[simp] theorem mem_of_State_jump_ (s : State) (q target : Nat) :
    (State.jump_ s q target).mem = s.mem := by unfold State.jump_; simp

@[simp] theorem mem_of_State_stepGrid (s : State) (q : Nat) :
    (State.stepGrid s q).mem = s.mem := by unfold State.stepGrid; dsimp only; (repeat' split) <;> simp

@[simp] theorem mem_of_State_enqueueCmd (s : State) (q : Nat) (c : VCmd) (busy : Busy) :
    (State.enqueueCmd s q c busy).mem = s.mem := by unfold State.enqueueCmd; simp

@[simp] theorem mem_of_State_vecOp (q : Nat) (rep : Bool) (w : Nat) (s : State) :
    (State.vecOp q rep w s).mem = s.mem := by unfold State.vecOp; simp

@[simp] theorem mem_of_State_matchOp (q w : Nat) (s : State) :
    (State.matchOp q w s).mem = s.mem := by unfold State.matchOp; simp

@[simp] theorem mem_of_State_loopOp (q w : Nat) (s : State) :
    (State.loopOp q w s).mem = s.mem := by unfold State.loopOp; simp

@[simp] theorem mem_of_State_endlOp (q w : Nat) (s : State) :
    (State.endlOp q w s).mem = s.mem := by unfold State.endlOp; simp

@[simp] theorem mem_of_State_callOp (q w : Nat) (s : State) :
    (State.callOp q w s).mem = s.mem := by unfold State.callOp; simp

@[simp] theorem mem_of_State_retOp (q : Nat) (s : State) :
    (State.retOp q s).mem = s.mem := by unfold State.retOp; simp

@[simp] theorem mem_of_State_waitBegin (s : State) (q : Nat) (b : Busy) :
    (State.waitBegin s q b).mem = s.mem := by unfold State.waitBegin; simp

@[simp] theorem mem_of_State_waittOp (q w : Nat) (s : State) :
    (State.waittOp q w s).mem = s.mem := by unfold State.waittOp; simp

@[simp] theorem mem_of_State_waittEnd (s : State) (q : Nat) :
    (State.waittEnd s q).mem = s.mem := by unfold State.waittEnd; (repeat' split) <;> simp

@[simp] theorem mem_of_State_waitDone (s : State) (q : Nat) :
    (State.waitDone s q).mem = s.mem := by unfold State.waitDone; (repeat' split) <;> simp

@[simp] theorem mem_of_State_waitFail (s : State) (q : Nat) :
    (State.waitFail s q).mem = s.mem := by unfold State.waitFail; simp

@[simp] theorem mem_of_State_waitCheck (s : State) (q : Nat) (tmo : Option Nat) :
    (State.waitCheck s q tmo).mem = s.mem := by unfold State.waitCheck; simp

@[simp] theorem mem_of_State_waitpOp (q w : Nat) (s : State) :
    (State.waitpOp q w s).mem = s.mem := by unfold State.waitpOp; simp

@[simp] theorem mem_of_State_waiteOp (q w : Nat) (s : State) :
    (State.waiteOp q w s).mem = s.mem := by unfold State.waiteOp; simp

@[simp] theorem mem_of_State_waitp (q : Nat) (s : State) :
    (State.waitp q s).mem = s.mem := by unfold waitp; split <;> simp

@[simp] theorem mem_of_State_waite (q k : Nat) (s : State) :
    (State.waite q k s).mem = s.mem := by unfold State.waite; (repeat' split) <;> simp

@[simp] theorem mem_of_State_waitTimeout (s : State) (q : Nat) :
    (State.waitTimeout s q).mem = s.mem := by unfold State.waitTimeout; simp

@[simp] theorem mem_of_State_aluOp (q : Nat) (f : Word → Word → Word) (w : Nat) (s : State) :
    (State.aluOp q f w s).mem = s.mem := by unfold State.aluOp; simp

@[simp] theorem mem_of_State_quietly (s : State) (f : State → State) (hf : ∀ (z : State), (f z).mem = z.mem) :
    (State.quietly s f).mem = s.mem := by unfold State.quietly; simp [hf]

@[simp] theorem mem_of_State_ldWord (s : State) (q a sp ea : Nat) :
    (State.ldWord s q a sp ea).2.mem = s.mem := by unfold State.ldWord; dsimp only; (repeat' split) <;> simp

@[simp] theorem mem_of_State_ldOp (q w : Nat) (s : State) :
    (State.ldOp q w s).mem = s.mem := by unfold State.ldOp; simp

@[simp] theorem mem_of_State_sig (q k : Nat) (s : State) :
    (State.sig q k s).mem = s.mem := by unfold State.sig; simp

@[simp] theorem mem_of_State_flagOp (q w : Nat) (s : State) :
    (State.flagOp q w s).mem = s.mem := by unfold State.flagOp; simp

@[simp] theorem mem_of_State_eventOp (q w : Nat) (s : State) :
    (State.eventOp q w s).mem = s.mem := by unfold State.eventOp; simp

@[simp] theorem mem_of_State_logFail (s : State) (q : Nat) (r : Option Reason) :
    (State.logFail s q r).mem = s.mem := by cases r <;> simp [logFail]

@[simp] theorem mem_of_State_logPut (s : State) (q w : Nat) (place : Nat × Nat × Nat) :
    (State.logPut s q w place).mem = s.mem := by unfold State.logPut; simp

@[simp] theorem mem_of_State_logOp (q w : Nat) (s : State) :
    (State.logOp q w s).mem = s.mem := by unfold State.logOp; dsimp only; (repeat' split) <;> simp

@[simp] theorem mem_of_State_logCmd (q : Nat) (s : State) :
    (State.logCmd q s).mem = s.mem := by unfold logCmd; split <;> simp

@[simp] theorem mem_of_State_haltOp (q w : Nat) (s : State) :
    (State.haltOp q w s).mem = s.mem := by unfold State.haltOp; simp

@[simp] theorem mem_of_State_haltRetire (s : State) (q : Nat) :
    (State.haltRetire s q).mem = s.mem := by unfold State.haltRetire; simp

@[simp] theorem mem_of_State_illegal (q : Nat) (s0 : State) :
    (State.illegal q s0).mem = s0.mem := by unfold State.illegal; dsimp only; (repeat' split) <;> simp

@[simp] theorem mem_of_State_markActs (s : State) (d : Nat) (f : Firing) :
    (State.markActs s d f).mem = s.mem := by unfold State.markActs; simp

@[simp] theorem mem_of_State_markFire (s : State) (d m : Nat) :
    (State.markFire s d m).mem = s.mem := by unfold State.markFire; (repeat' split) <;> simp

@[simp] theorem mem_of_State_segmentPublish (s : State) (d : Nat) :
    (State.segmentPublish s d).mem = s.mem := by unfold State.segmentPublish; simp

@[simp] theorem mem_of_State_rollDone (s : State) :
    (State.rollDone s).mem = s.mem := by unfold State.rollDone; simp

@[simp] theorem mem_of_State_rollStep (ok : Bool) (s : State) :
    (State.rollStep ok s).mem = s.mem := by unfold State.rollStep; simp

@[simp] theorem mem_of_State_powerOn (ok : Bool) (s : State) :
    (State.powerOn ok s).mem = s.mem := by unfold State.powerOn; simp

@[simp] theorem mem_of_State_showPowerUp (s : State) :
    (State.showPowerUp s).mem = s.mem := by unfold State.showPowerUp; simp

@[simp] theorem mem_of_State_takeRecords (all : Bool) (s : State) :
    (State.takeRecords all s).mem = s.mem := by unfold State.takeRecords; simp

@[simp] theorem mem_of_State_startComplete (s : State) :
    (State.startComplete s).mem = s.mem := by unfold State.startComplete; simp

@[simp] theorem mem_of_State_clearEn (p : Nat) (s : State) :
    (State.clearEn p s).mem = s.mem := by unfold State.clearEn; simp

@[simp] theorem mem_of_State_refuseQueued (s : State) :
    (State.refuseQueued s).mem = s.mem := by unfold State.refuseQueued; simp

@[simp] theorem mem_of_State_holderTest (refused : Bool) (s : State) :
    (State.holderTest refused s).mem = s.mem := by unfold State.holderTest; (repeat' split) <;> simp

@[simp] theorem mem_of_State_drainDone (s : State) :
    (State.drainDone s).mem = s.mem := by unfold State.drainDone; simp

@[simp] theorem mem_of_State_tempWarn (s : State) :
    (State.tempWarn s).mem = s.mem := by unfold State.tempWarn; simp

@[simp] theorem mem_of_State_pwrfailFall (s : State) :
    (State.pwrfailFall s).mem = s.mem := by unfold State.pwrfailFall; simp

@[simp] theorem mem_of_State_pwrfailRise (s : State) :
    (State.pwrfailRise s).mem = s.mem := by unfold State.pwrfailRise; simp

@[simp] theorem mem_of_State_startWrites (s : State) :
    (State.startWrites s).mem = s.mem := by unfold State.startWrites; simp

@[simp] theorem mem_of_State_pwrfailRecovery (s : State) :
    (State.pwrfailRecovery s).mem = s.mem := by unfold State.pwrfailRecovery; simp

@[simp] theorem mem_of_State_setIr (ir : Nat) (s : State) :
    (State.setIr ir s).mem = s.mem := by unfold State.setIr; simp

@[simp] theorem mem_of_State_scanUpdate (bits : List (Bool × Bool)) (s : State) :
    (State.scanUpdate bits s).mem = s.mem := by unfold State.scanUpdate; simp

end Sys2Proof.Machine
end

