-- ==== Sys2Proof/Laws/Off.lean ====
section
/-! SUPPORT. Laws/Off.lean: `Off Q s u`, from `s` to `u` no register outside `Q` differs: kept by every update, and what
the operations that run over lists of units leave. -/
namespace Sys2Proof
open Machine

/-- No register outside `Q` differs. -/
def Off (Q : Nat → Prop) (s u : State) : Prop := ∀ k, ¬Q k → u.rd k = s.rd k

variable {Q : Nat → Prop} {s u : State}

theorem Off.refl : Off Q s s := fun _ _ => rfl

theorem Off.trans {v : State} (h : Off Q s u) (h2 : Off Q u v) : Off Q s v := fun k n => (h2 k n).trans (h k n)

theorem Off.mono {R : Nat → Prop} (h : Off Q s u) (hr : ∀ k, Q k → R k) : Off R s u := fun k n => h k fun q => n (hr k q)

theorem Off.ite {c : Prop} [Decidable c] {v : State} (h : c → Off Q s u) (h2 : ¬c → Off Q s v) :
    Off Q s (if c then u else v) := by split <;> simp_all

theorem Only.off {ks : List Nat} {ps : List Part} (h : Only ks ps s u) (hk : ∀ k, k ∈ ks → Q k) : Off Q s u :=
  fun k n => h.1 k fun m => n (hk k m)

theorem Off.forEach {α : Type} {l : List α} {f : α → State → State} (h : Off Q s u)
    (hf : ∀ a, a ∈ l → ∀ z, Off Q z (f a z)) : Off Q s (Machine.forEach l f u) := by
  unfold Machine.forEach
  induction l generalizing u with
  | nil => exact h
  | cons a r ih =>
    exact ih (h.trans (hf a (by simp) u)) fun b hb z => hf b (by simp [hb]) z

theorem Off.upTo {t : Nat} (h : Off Q s u) : Off Q s (u.upTo t) := h

theorem Off.settle {z : State} (h : Off Q s u) : Off Q s (z.settle u) := h

theorem Off.wr {k : Nat} {v : Word} (h : Off Q s u) (hk : Q k) : Off Q s (u.wr k v) :=
  fun j hj => by rw [State.rd_wr_ne _ _ _ _ fun e => hj (by rw [e]; exact hk)]; exact h j hj

theorem Off.wf {k hi lo v : Nat} (h : Off Q s u) (hk : Q k) : Off Q s (u.wf k hi lo v) :=
  fun j hj => by rw [State.rd_wf_ne _ _ _ _ _ _ fun e => hj (by rw [e]; exact hk)]; exact h j hj

theorem Off.wb {k n : Nat} {b : Bool} (h : Off Q s u) (hk : Q k) : Off Q s (u.wb k n b) :=
  fun j hj => by rw [State.rd_wb_ne _ _ _ _ _ fun e => hj (by rw [e]; exact hk)]; exact h j hj

theorem Off.emit {o : Output} (h : Off Q s u) : Off Q s (u.emit o) := h

theorem Off.ret {n : Nat} (h : Off Q s u) : Off Q s (u.ret n) := h

theorem Off.answer {r : Resp} (h : Off Q s u) : Off Q s (u.answer r) := h

theorem Off.drew  (h : Off Q s u) : Off Q s (u.drew) := h

theorem Off.drewN {n : Nat} (h : Off Q s u) : Off Q s (u.drewN n) := h

theorem Off.setDom {d : Nat} {x : Dom} (h : Off Q s u) : Off Q s (u.setDom d x) := h

theorem Off.setPort {n : Nat} {x : Port} (h : Off Q s u) : Off Q s (u.setPort n x) := h

theorem Off.setPin {i : Nat} {x : Pin} (h : Off Q s u) : Off Q s (u.setPin i x) := h

theorem Off.setGrp {i : Nat} {x : Group} (h : Off Q s u) : Off Q s (u.setGrp i x) := h

theorem Off.setAna {i : Nat} {x : Ana} (h : Off Q s u) : Off Q s (u.setAna i x) := h

theorem Off.setSq {i : Nat} {x : Seq} (h : Off Q s u) : Off Q s (u.setSq i x) := h

theorem Off.setXip {i : Nat} {x : Xip} (h : Off Q s u) : Off Q s (u.setXip i x) := h

theorem Off.putBytes {a : Nat} {bs : List Byte} (h : Off Q s u) : Off Q s (u.putBytes a bs) := h

theorem Off.setRegion {r : Nat} {x : Region} (h : Off Q s u) : Off Q s (u.setRegion r x) := h

theorem Off.setDq {q : Nat} {x : DQueue} (h : Off Q s u) : Off Q s (u.setDq q x) := h

theorem Off.setProto {p : Nat} {x : Proto} (h : Off Q s u) : Off Q s (u.setProto p x) := h

theorem Off.setLane {k : Nat} {x : Lane} (h : Off Q s u) : Off Q s (u.setLane k x) := h

theorem Off.with_out {x} (h : Off Q s u) : Off Q s { u with out := x } := h

theorem Off.with_rdata {x} (h : Off Q s u) : Off Q s { u with rdata := x } := h

theorem Off.with_resp {x} (h : Off Q s u) : Off Q s { u with resp := x } := h

theorem Off.with_free {x} (h : Off Q s u) : Off Q s { u with free := x } := h

theorem Off.with_checks {x} (h : Off Q s u) : Off Q s { u with checks := x } := h

theorem Off.with_mem {x} (h : Off Q s u) : Off Q s { u with mem := x } := h

theorem Off.with_doms {x} (h : Off Q s u) : Off Q s { u with doms := x } := h

theorem Off.with_ctr {x} (h : Off Q s u) : Off Q s { u with ctr := x } := h

theorem Off.with_lat {x} (h : Off Q s u) : Off Q s { u with lat := x } := h

theorem Off.with_ep {x} (h : Off Q s u) : Off Q s { u with ep := x } := h

theorem Off.with_pins {x} (h : Off Q s u) : Off Q s { u with pins := x } := h

theorem Off.with_groups {x} (h : Off Q s u) : Off Q s { u with groups := x } := h

theorem Off.with_anas {x} (h : Off Q s u) : Off Q s { u with anas := x } := h

theorem Off.with_tsets {x} (h : Off Q s u) : Off Q s { u with tsets := x } := h

theorem Off.with_trims {x} (h : Off Q s u) : Off Q s { u with trims := x } := h

theorem Off.with_seqs {x} (h : Off Q s u) : Off Q s { u with seqs := x } := h

theorem Off.with_xips {x} (h : Off Q s u) : Off Q s { u with xips := x } := h

theorem Off.with_pwr {x} (h : Off Q s u) : Off Q s { u with pwr := x } := h

theorem Off.with_resetEnd {x} (h : Off Q s u) : Off Q s { u with resetEnd := x } := h

theorem Off.with_regions {x} (h : Off Q s u) : Off Q s { u with regions := x } := h

theorem Off.with_undef {x} (h : Off Q s u) : Off Q s { u with undef := x } := h

theorem Off.with_blocks {x} (h : Off Q s u) : Off Q s { u with blocks := x } := h

theorem Off.with_ledger {x} (h : Off Q s u) : Off Q s { u with ledger := x } := h

theorem Off.with_bist {x} (h : Off Q s u) : Off Q s { u with bist := x } := h

theorem Off.with_store {x} (h : Off Q s u) : Off Q s { u with store := x } := h

theorem Off.with_life {x} (h : Off Q s u) : Off Q s { u with life := x } := h

theorem Off.with_jtag {x} (h : Off Q s u) : Off Q s { u with jtag := x } := h

theorem Off.with_protos {x} (h : Off Q s u) : Off Q s { u with protos := x } := h

theorem Off.with_lanes {x} (h : Off Q s u) : Off Q s { u with lanes := x } := h

theorem Off.judge {v : Nat} {w : Bool} (h : Off Q s u) : Off Q s (u.judge v w) :=
  fun k n => (State.rd_judge u v w k).trans (h k n)

theorem Off.raise {p b : Nat} (h : Off Q s u) (hk : Q (reg p oEvent)) : Off Q s (u.raise p b) :=
  fun k n => (State.rd_raise_ne u p b k fun e => n (by rw [e]; exact hk)).trans (h k n)

theorem Off.raiseIf {c : Bool} {p b : Nat} (h : Off Q s u) (hk : Q (reg p oEvent)) : Off Q s (u.raiseIf c p b) :=
  fun k n => (State.rd_raiseIf_ne u c p b k fun e => n (by rw [e]; exact hk)).trans (h k n)

theorem Off.refuse {p : Nat} {r : Reason} (h : Off Q s u) (hk : Q (reg p oStatus)) : Off Q s (u.refuse p r) := h.wf hk

theorem Off.setUnitState {p v : Nat} (h : Off Q s u) (hk : Q (reg p oStatus)) : Off Q s (u.setUnitState p v) := h.wf hk

theorem Off.refuseAns {p : Nat} {r : Reason} (h : Off Q s u) (hk : Q (reg p oStatus)) : Off Q s (u.refuseAns p r) :=
  (h.refuse hk).answer

end Sys2Proof
end

