-- ==== Sys2Proof/WellFormed.lean ====
section
/-! DEFINITION. WellFormed.lean: the operands a command can have. Unit numbers are bounded by their types; what is
checked here is what the types leave open: the agent exists, the page is one of the command's block, addresses are
aligned and inside their space, and lists have the length that the port or register gives them. -/
namespace Sys2Proof

/-- The agent exists: REGION0 to REGION95, SEQ0 to SEQ47. -/
def agentOk : Agent → Bool
  | .region r => r < 96
  | .seq q => q < 48
  | _ => true

/-- CAN, LIN, SENT and ETH pages (Table 16.1). -/
def canPage (p : Fin 512) : Bool := 0x050 ≤ p.val && p.val < 0x070
def linPage (p : Fin 512) : Bool := 0x070 ≤ p.val && p.val < 0x090
def sentPage (p : Fin 512) : Bool := 0x090 ≤ p.val && p.val < 0x0A8
def ethPage (p : Fin 512) : Bool := 0x0A8 ≤ p.val && p.val < 0x0B0
/-- A page of a protocol block. -/
def protoPage (p : Fin 512) : Bool := canPage p || linPage p || sentPage p || ethPage p

/-- A flit's fields fit theirs (Table 9.2), and a payload of words has the 12 words W3 to W14. -/
def flitOk (f : Flit) : Bool :=
  f.cls < 16 && f.epoch < 16 && f.typ < 256 && f.hops < 64 &&
    (match f.body with
     | .words ws => ws.length = 12
     | .request _ _ len _ => 1 ≤ len && len ≤ 32
     | .response data => data.length ≤ 32
     | _ => true)

/-- The command is well formed. -/
def Instr.wf : Instr → Bool
  | .registerWrite _ a _ off _ => agentOk a && off < 4096 && off % 4 = 0
  | .enable _ a _ _ => agentOk a
  | .consistencyCheckEnd _ _ _ => true
  | .disable _ a _ _ => agentOk a
  | .eventW1c _ a _ _ => agentOk a
  | .eventMaskWrite _ a _ _ => agentOk a
  | .msixUnmask _ _ => true
  | .lock _ a _ _ => agentOk a
  | .counterUpdate _ => true
  | .encoderSample _ _ _ _ _ _ _ _ => true
  | .incrementStrobe _ _ _ => true
  | .segmentPublish _ _ => true
  | .eventCommit _ _ _ => true
  | .domainWrap _ _ => true
  | .stopTimeout _ _ => true
  | .shaftApply _ a _ _ => agentOk a
  | .rateReached _ _ => true
  | .mainsZeroCrossing _ _ => true
  | .lockLost _ _ => true
  | .holdoverEnd _ _ => true
  | .latHoldoverExpiry _ _ => true
  | .markFire _ _ _ => true
  | .markWrite _ a _ _ _ _ => agentOk a
  | .snapCapture _ a _ _ => agentOk a
  | .snapStatRead _ _ _ => true
  | .posLoRead _ _ => true
  | .velLoRead _ _ => true
  | .load _ a _ _ => agentOk a
  | .tsDataWrite _ a _ _ => agentOk a
  | .tsDataRead _ _ => true
  | .edgeCommit _ _ => true
  | .edgePlace _ _ => true
  | .pinResult _ _ => true
  | .padCrossing _ _ _ _ _ => true
  | .ringWrite _ _ => true
  | .ringRdWrite _ a _ _ => agentOk a
  | .captCountWrite _ a _ _ => agentOk a
  | .threshWrite _ a _ _ => agentOk a
  | .pinCfgWrite _ a _ _ => agentOk a
  | .serTxHiWrite _ a _ _ => agentOk a
  | .serRxLoRead _ a _ => agentOk a
  | .reflexEnable _ a _ _ _ => agentOk a
  | .reflexTableWrite _ a _ _ _ => agentOk a
  | .reflexOutput _ _ _ => true
  | .vccioMeasUpdate _ _ _ => true
  | .vccioReturn _ _ => true
  | .vccioChange _ _ _ => true
  | .adcTrig _ a _ _ => agentOk a
  | .adcResult _ _ _ _ => true
  | .adcResultRead _ _ _ => true
  | .adcFifoRead _ a _ _ => agentOk a
  | .dacWrite _ a _ _ _ => agentOk a
  | .pmuCtrlWrite _ a _ _ => agentOk a
  | .pmuForceWrite _ a _ _ => agentOk a
  | .pmuClampWrite _ a _ _ => agentOk a
  | .pmuClamp _ _ => true
  | .pinOwnWrite _ a _ _ => agentOk a
  | .ownLockWrite _ a _ _ _ => agentOk a
  | .hostOeWrite _ a _ _ _ => agentOk a
  | .hostLvlWrite _ a _ _ _ => agentOk a
  | .switchSubmit _ a _ _ => agentOk a
  | .cancel _ a _ _ => agentOk a
  | .switchBoundary _ _ => true
  | .newOwnerInput _ _ => true
  | .breakEnd _ _ => true
  | .parkEnd _ _ => true
  | .protocolRejoin _ p => protoPage p
  | .halt _ _ => true
  | .haltRetire _ _ => true
  | .nop _ _ => true
  | .vec _ _ => true
  | .vecr _ _ => true
  | .tset _ _ => true
  | .matchVec _ _ => true
  | .loop _ _ => true
  | .endl _ _ => true
  | .jmp _ _ => true
  | .jc _ _ => true
  | .call _ _ => true
  | .ret _ _ => true
  | .waitp _ _ => true
  | .waitt _ _ => true
  | .waittComplete _ _ => true
  | .waiteDoorbell _ _ => true
  | .waiteFabric _ _ => true
  | .waiteSeq _ _ => true
  | .waiteFlag _ _ => true
  | .waitTimeout _ _ => true
  | .ldi _ _ => true
  | .add _ _ => true
  | .sub _ _ => true
  | .andI _ _ => true
  | .orI _ _ => true
  | .xorI _ _ => true
  | .shl _ _ => true
  | .shr _ _ => true
  | .ld _ _ => true
  | .st _ _ => true
  | .capt _ _ => true
  | .sigClear _ _ => true
  | .sigRead _ _ => true
  | .sigCheck _ _ => true
  | .flag _ _ => true
  | .event _ _ => true
  | .peal _ _ => true
  | .log _ _ => true
  | .swapreq _ _ => true
  | .vectorIssue _ _ => true
  | .xipLineRead _ _ _ => true
  | .go _ a _ _ => agentOk a
  | .stop _ a _ _ => agentOk a
  | .step _ a _ _ => agentOk a
  | .doorbell _ a _ _ => agentOk a
  | .flagsWrite _ a _ _ => agentOk a
  | .flogRdWrite _ a _ _ => agentOk a
  | .sampleInterrupt _ _ => true
  | .pinDriveRequest _ _ _ _ _ => true
  | .serialPush _ _ _ _ => true
  | .serialPop _ _ _ => true
  | .presetRequest _ _ _ _ => true
  | .markNotice _ _ _ => true
  | .flagSet _ _ _ _ => true
  | .strobe _ _ _ => true
  | .vectorMemoryWrite _ _ _ _ _ _ _ => true
  | .registerPortAccess _ _ _ counter addr _ => addr < (if counter then 2 ^ 19 else 2 ^ 21) && addr % 4 = 0
  | .registerPortResponse _ _ => true
  | .deepAccess _ _ _ _ _ => true
  | .memoryBlockAccess _ _ _ _ _ _ => true
  | .clockLost _ _ => true
  | .portClockResume _ _ => true
  | .holdWindowExpiry _ _ => true
  | .storePortSubmit _ _ ws => ws.length = 8
  | .hsubmit _ a _ => agentOk a
  | .storeNop _ _ => true
  | .read _ _ => true
  | .readComplete _ _ _ _ bad => bad.all fun e => e.1 < 512
  | .program _ _ => true
  | .programComplete _ _ _ fail pulses => pulses < 64 && fail.all (· < 512)
  | .erase _ _ => true
  | .eraseComplete _ _ _ _ pulses _ => pulses < 64
  | .suspend _ _ => true
  | .suspendEffective _ _ pulses => pulses < 64
  | .resume _ _ => true
  | .sectorInfo _ _ => true
  | .protect _ _ => true
  | .unprotect _ _ => true
  | .setPassword _ _ => true
  | .marginRead _ _ => true
  | .rawRead _ _ => true
  | .hcomp0Read _ a => agentOk a
  | .resetHost _ a _ => agentOk a
  | .resetFabric _ a _ => agentOk a
  | .resetSequencer _ a _ => agentOk a
  | .pwrfailNFall _ => true
  | .pwrfailNRise _ => true
  | .pwrfailRecovery _ => true
  | .commit _ a _ => agentOk a
  | .commitComplete _ _ => true
  | .revoke _ a _ => agentOk a
  | .setBoot _ a _ => agentOk a
  | .loadWave _ _ => true
  | .reVerifyEnd _ _ _ => true
  | .swapArm _ a _ _ => agentOk a
  | .armingEnd _ _ => true
  | .swapDisarm _ a _ _ => agentOk a
  | .swapGo _ a _ _ => agentOk a
  | .swapStart _ _ => true
  | .swapRelease _ _ _ => true
  | .swapRevert _ _ _ => true
  | .linkUp _ _ _ => true
  | .trainingTimeout _ _ _ => true
  | .linkDown _ _ _ => true
  | .crcErr _ _ _ => true
  | .unknown _ _ f => flitOk f
  | .requestFlit _ _ f => flitOk f
  | .responseFlit _ _ f => flitOk f
  | .undeliverable _ _ f => flitOk f
  | .streamFlit _ _ f => flitOk f
  | .streamPush _ _ _ ws => ws.length = 12
  | .streamGapTimeout _ _ => true
  | .streamEnable _ a _ _ => agentOk a
  | .remoteAccess _ write off len data => off < 2 ^ 28 && 1 ≤ len && (!write || data.length = len)
  | .remoteTimeout _ => true
  | .censusSend _ => true
  | .censusFlit _ _ f => flitOk f
  | .linkNotice _ _ f => flitOk f
  | .censusTimeout _ _ => true
  | .syncSend _ _ => true
  | .sync _ _ f => flitOk f
  | .echo _ _ f => flitOk f
  | .beatSend _ => true
  | .beat _ _ f => flitOk f
  | .electionTimeout _ => true
  | .beatTimeout _ => true
  | .rootLost _ _ f => flitOk f
  | .rootHandover _ => true
  | .handover _ _ f => flitOk f
  | .segmentSend _ _ => true
  | .segment _ _ f => flitOk f
  | .pubEnable _ a _ _ => agentOk a
  | .latticeCompatWrite _ a _ => agentOk a
  | .compatSet _ _ f => flitOk f
  | .ltimeLoRead _ => true
  | .pealSend _ a _ => agentOk a
  | .pealRelease _ => true
  | .pealFlit _ _ f => flitOk f
  | .ring _ a _ => agentOk a
  | .clear _ a _ => agentOk a
  | .gongRingFlit _ _ f => flitOk f
  | .gongClearFlit _ _ f => flitOk f
  | .abortNFall _ => true
  | .abortFilterExpiry _ => true
  | .abortNRise _ => true
  | .hotReset _ => true
  | .flr _ => true
  | .perstN _ _ => true
  | .d3hot _ _ _ _ => true
  | .bar0Access _ acc => acc.off < 2 ^ 21 && (1 ≤ acc.size && acc.size ≤ 8)
  | .bar2Write _ off _ _ => off < 2 ^ 28 && off % 4 = 0
  | .ulaneRxWord _ _ _ _ => true
  | .ulaneTxWord _ _ => true
  | .ulanePush _ _ _ _ => true
  | .ulaneLockChange _ _ _ _ => true
  | .ulaneStatRead _ _ => true
  | .prbsErrRead _ _ => true
  | .txPush _ a p _ => agentOk a && protoPage p
  | .txAbort _ a p _ => agentOk a && protoPage p
  | .txDataWrite _ a p _ => agentOk a && protoPage p
  | .rxPop _ a p _ => agentOk a && protoPage p
  | .rxDataRead _ p => protoPage p
  | .protocolPortRequest _ _ p _ _ => protoPage p
  | .pstatRead _ p => protoPage p
  | .frameReceived _ p _ => protoPage p
  | .frameSent _ p _ _ => protoPage p
  | .atCrossing _ p => protoPage p
  | .busOffRecovered _ p => canPage p
  | .noResponse _ p _ _ => linPage p
  | .wake _ a p _ => agentOk a && linPage p
  | .mdioGo _ a p _ => agentOk a && ethPage p
  | .mdioDone _ p _ => ethPage p
  | .smbusIdentity _ => true
  | .smbusTemperature _ => true
  | .smbusStatus _ => true
  | .smbusFaultCode _ => true
  | .smbusArp _ _ => true
  | .cntSelWrite _ a _ => agentOk a
  | .cntLoRead _ a => agentOk a
  | .cntHiRead _ a => agentOk a
  | .cntHiWrite _ a _ => agentOk a
  | .cntWrite _ a _ => agentOk a
  | .dumpEnable _ a _ _ => agentOk a
  | .dtrigCapture _ a _ _ => agentOk a
  | .dumpPeriod _ _ => true
  | .dumpDone _ _ => true
  | .drdWrite _ a _ _ => agentOk a
  | .sampleEnable _ a _ _ => agentOk a
  | .sampleHit _ _ => true
  | .bistRun _ a _ => agentOk a
  | .bistAbort _ a _ => agentOk a
  | .testStart _ _ => true
  | .testEnd _ _ pats _ _ => pats < 2 ^ 32
  | .isolationEnd _ _ => true
  | .selftestHoldTimeout _ => true
  | .bistCfgWrite _ a _ => agentOk a
  | .claimSubmit _ a _ => agentOk a
  | .release _ a _ => agentOk a
  | .budgetWrite _ a _ => agentOk a
  | .advance _ a _ => agentOk a
  | .unlock _ a _ => agentOk a
  | .otpBitDone _ _ => true
  | .profileWrite _ a _ => agentOk a
  | .writeDigest _ a _ => agentOk a
  | .installKey _ a _ => agentOk a
  | .revokeKey _ a _ => agentOk a
  | .setSealDefault _ a _ => agentOk a
  | .jtagUpdateIr _ _ => true
  | .lcAccess _ dr => dr < 2 ^ 48
  | .testLogicReset _ => true
  | .powerOn _ _ => true
  | .vauxLost _ => true
  | .railLost _ _ => true
  | .resetNFall _ => true
  | .devReset _ a _ => agentOk a
  | .start _ _ _ _ => true
  | .refclkReturn _ _ => true
  | .startComplete _ => true
  | .shutdown _ a _ => agentOk a
  | .drainDone _ => true
  | .thermalReading _ fab _ => fab.length = 16
  | .illegal _ _ => true
  | .claimQueueTimeout _ => true
  | .dmaReadCompletion _ _ _ => true
  | .dmaReadTimeout _ _ => true
  | .pcieLinkUp _ speed width => 1 ≤ speed.val && [1, 2, 4, 8, 16].contains width.toNat
  | .linkDownReset _ => true
  | .pmuClampRelease _ _ => true
  | .boundaryRegisterUpdate _ bits => bits.length = 3072
  | .wakeup _ p => linPage p
  | .linkChange _ p => ethPage p
  | .spcTimeout _ p => sentPage p

end Sys2Proof
end

