-- ==== Sys2Proof/Tests/Slice0.lean ====
section
/-! SUPPORT. Tests/Slice0.lean: ill-formed commands that WellFormed.lean refuses, single steps whose results are taken from
the rules, and for every obligation with hypotheses a theorem `witness_<Name>`: states and operands that meet the hypotheses
of each of its clauses, in the order of the clauses that have any. The proofs are checked one after another
(Elab.async false): side by side they hold more threads than the memory has room for. -/
namespace Sys2Proof.Tests
set_option Elab.async false
set_option linter.unusedVariables false
set_option maxRecDepth 4000
open Sys2Proof.Machine Sys2Proof.Machine.State

/-- A running device, one millisecond after reset. -/
def on : State := { now := 1024000000, pwr := { phase := .user, ready := true, serving := true } }
/-- Registers set. -/
def sets (l : List (Nat × Word)) (s : State) : State := l.foldl (fun s e => s.wr e.1 e.2) s
/-- Domain 0 is ON with source type `ty`. -/
def domOn (ty : Nat) (x : Dom) : State :=
  (sets [(reg (pDom 0) oStatus, 2), (dreg 0 0x040, word ty)] on).setDom 0 x
/-- Sequencer 3 is ON and RUNNING, and the word at its PC is `w`. -/
def seqOn (w : Nat) (x : Seq) : State :=
  ((sets [(reg (pSeq 3) oStatus, 2), (qreg 3 0x05C, 2), (qreg 3 0x060, 5)] on).putBytes (progBase 3 + 40)
    (natBytes 8 w)).setSq 3 x
/-- A router with its neighbour in X, 0x0100, on PORT 3 and a further device 0x0010, and what differs in it. -/
def latOn (l : List (Nat × Word)) (x : Lattice) : State :=
  { sets ([(reg pRtr oStatus, 2), (rtr 0x044, 0x0111), (reg (pPort 3) oStatus, 2), (preg 3 0x044, 0x20100000),
      (preg 3 0x048, 0x20100)] ++ l) on with lat := x }
/-- The neighbour's entry of the census. -/
def seen : Nat × Census :=
  (0x100, { info := { addr := 0x100, eligible := true, protoMax := 1, epochs := 2, delay := 5, role := 1 }
            seen := 1000000000, since := 7 })

/-! ### Ill-formed commands, one for each check of WellFormed.lean -/

theorem test_wf_agents : (Instr.lock 0 (.region 96) 0 0).wf = false ∧ (Instr.lock 0 (.seq 48) 0 0).wf = false ∧
    (Instr.lock 0 (.seq 47) 0 0).wf = true := by decide
theorem test_wf_offsets : (Instr.registerWrite 0 .host 0 4096 0).wf = false ∧ (Instr.registerWrite 0 .host 0 6 0).wf = false ∧
    (Instr.registerPortAccess 0 0 true true 0x80000 0).wf = false ∧
    (Instr.registerPortAccess 0 0 true false 0x200000 0).wf = false ∧
    (Instr.registerPortAccess 0 0 true false 2 0).wf = false ∧
    (Instr.registerPortAccess 0 0 true false 0x80000 0).wf = true := by decide
theorem test_wf_store : (Instr.storePortSubmit 0 0 [1]).wf = false ∧
    (Instr.readComplete 0 1 0 0 [(512, 0)]).wf = false ∧ (Instr.programComplete 0 1 0 none 64).wf = false ∧
    (Instr.programComplete 0 1 0 (some 512) 1).wf = false ∧ (Instr.eraseComplete 0 1 0 true 64 true).wf = false ∧
    (Instr.suspendEffective 0 0 64).wf = false ∧ (Instr.read 0 3).wf = true := by decide
theorem test_wf_flits :
    (Instr.unknown 0 0 { cls := 16, dest := 0, src := 0, body := .words (List.replicate 12 0) }).wf = false ∧
    (Instr.unknown 0 0 { cls := 2, epoch := 16, dest := 0, src := 0, body := .words (List.replicate 12 0) }).wf = false ∧
    (Instr.unknown 0 0 { cls := 2, typ := 256, dest := 0, src := 0, body := .words (List.replicate 12 0) }).wf = false ∧
    (Instr.unknown 0 0 { cls := 2, hops := 64, dest := 0, src := 0, body := .words (List.replicate 12 0) }).wf = false ∧
    (Instr.unknown 0 0 { cls := 2, dest := 0, src := 0, body := .words [0] }).wf = false ∧
    (Instr.requestFlit 0 0 { cls := 6, dest := 0, src := 0, body := .request false 0 33 [] }).wf = false ∧
    (Instr.responseFlit 0 0 { cls := 5, dest := 0, src := 0, body := .response (List.replicate 33 0) }).wf = false ∧
    (Instr.unknown 0 0 { cls := 2, dest := 0, src := 0, body := .words (List.replicate 12 0) }).wf = true := by decide
theorem test_wf_lattice : (Instr.streamPush 0 0 0 [1]).wf = false ∧ (Instr.remoteAccess 0 true (2 ^ 28) 4 [1, 2, 3, 4]).wf = false ∧
    (Instr.remoteAccess 0 true 0 0 []).wf = false ∧ (Instr.remoteAccess 0 true 0 4 [1]).wf = false ∧
    (Instr.remoteAccess 0 true 0 1 [1]).wf = true := by decide
theorem test_wf_bars : (Instr.bar0Access 0 { off := 0x200000, write := false, size := 4 }).wf = false ∧
    (Instr.bar0Access 0 { off := 0, write := false, size := 9 }).wf = false ∧ (Instr.bar2Write 0 0x10000000 15 (some 0)).wf = false ∧
    (Instr.bar2Write 0 2 15 (some 0)).wf = false ∧ (Instr.bar2Write 0 4 15 (some 0)).wf = true := by decide
theorem test_wf_pages : (Instr.txPush 0 .host 0xB0 0).wf = false ∧ (Instr.busOffRecovered 0 0x70).wf = false ∧
    (Instr.wakeup 0 0x6F).wf = false ∧ (Instr.linkChange 0 0xB0).wf = false ∧ (Instr.spcTimeout 0 0xA8).wf = false ∧
    (Instr.wakeup 0 0x70).wf = true := by decide
theorem test_wf_device : (Instr.testEnd 0 0 (2 ^ 32) [] false).wf = false ∧ (Instr.lcAccess 0 (2 ^ 48)).wf = false ∧
    (Instr.thermalReading 0 [1] 0).wf = false ∧ (Instr.pcieLinkUp 0 0 4).wf = false ∧ (Instr.pcieLinkUp 0 1 3).wf = false ∧
    (Instr.boundaryRegisterUpdate 0 []).wf = false ∧ (Instr.pcieLinkUp 0 5 16).wf = true := by decide

/-! ### Single steps, the expected values taken from the rules named -/

/-- The state that an outcome leaves. -/
def after (o : Host.Outcome State Fault Refusal) : State := match o with | .next u => u | _ => {}

/-- A word that spells nothing leaves the queue. -/
theorem test_no_word : State.reset.withFetchWord 64 0 = State.reset := rfl
/-- On an empty queue no register changes and the clock stands. -/
theorem test_idle : (after (step on)).regs = on.regs ∧ (after (step on)).now = on.now := by decide +kernel
/-- The front command runs, the others wait (R446). -/
theorem test_front : (after (step { on with pending := [.perstN 0 true, .perstN 5 false] })).pending = [.perstN 5 false] := by
  decide +kernel
/-- EVENT bits written 1 clear, the others stay (Table 1.6). -/
theorem test_event_w1c : (after (execEventW1c 0 .host 0x20 5 (sets [(reg 0x20 oEvent, 7)] on))).rd (reg 0x20 oEvent) = 2 := by
  decide +kernel
/-- A budget below 1000 mW is refused with RANGE, code 1 (R358). -/
theorem test_budget : (after (execBudgetWrite 0 .host 999 on)).rf (reg pLedger oStatus) 15 8 = 1 ∧
    (after (execBudgetWrite 0 .host 999 on)).budget = 60000 ∧ (after (execBudgetWrite 0 .host 1000 on)).budget = 1000 := by
  decide +kernel
/-- Bytes 1 and 2 of a little-endian word (R441). -/
theorem test_bar2_bytes :
    ((after (execBar2Write 0 0x02000040 6 (some 0x44332211) on)).byte 0x02000041 = 0x22) ∧
    ((after (execBar2Write 0 0x02000040 6 (some 0x44332211) on)).memWord 0x02000040 = 0x00332200) := by decide +kernel
/-- A claim of no resource takes its power and reads GRANTED with entry and generation of the first use (R355, R359). -/
theorem test_claim : (after (execClaimSubmit 0 .host 0x81000064 (sets [(reg pLedger 0x050, 0x160)] on))).grantedMw = 100 := by
  decide +kernel
/-- ADD with its second source in a register wraps at 32 bits (R134). -/
theorem test_add_wraps :
    (after (execAdd 0 3 (sets [(qreg 3 0x108, 0xFFFFFFFF), (qreg 3 0x110, 1)] (seqOn (0x19 * 2 ^ 58 + 2 * 2 ^ 50 + 4 * 2 ^ 46 + 2 ^ 32) {})))).rd (qreg 3 0x108) = 0 := by
  decide +kernel
/-- RESET_N low long enough resets for cause 2 (R391). -/
theorem test_reset_n : (after (execResetNFall 0 on)).rd (reg pStw 0x048) = 2 ∧ (after (execResetNFall 0 on)).pwr.ready = false := by
  decide +kernel
/-- The low byte comes first (R325). -/
theorem test_smbus_temperature :
    (after (execSmbusTemperature 0 (sets [(reg pPower 0x054, 0x0123)] on))).out.map (fun o => match o with | .smbus d _ => d | _ => []) =
      [[0x23, 0x01]] := by decide +kernel
/-- A write of SHUTDOWN: READY falls at once (R399). -/
theorem test_shutdown : (after (execShutdown 0 .host 1 on)).pwr.phase = .drain ∧ (after (execShutdown 0 .host 1 on)).pwr.ready = false := by
  decide +kernel
/-- Device and vendor, subsystem, and class and revision of the configuration header (R304). -/
theorem test_config_header : on.configWord 0x00 = some 0xC0961F4E ∧ on.configWord 0x08 = some 0x118000B0 := by decide +kernel
/-- A lattice write that comes in the same page-clock cycle prevails over the host's, in whichever order they arrive (R439). -/
theorem test_write_order :
    (after (execRegisterWrite 0 .host 0x020 0x074 5 (after (execRegisterWrite 0 .lattice 0x020 0x074 9 on)))).rd (dreg 0 0x074) =
      (after (execRegisterWrite 0 .lattice 0x020 0x074 9 on)).rd (dreg 0 0x074) := by decide +kernel
/-- Two writes of one word through both ports of a deep memory in one array window collide (R195). -/
theorem test_deep_collide :
    (after (execDeepAccess 0 0 false (some { addr := 9, write := true, data := 1 }) (some { addr := 9, write := true, data := 2 })
      ((sets [(reg (pReg 0) oStatus, 2), (reg (pReg 6) oStatus, 2)] on).setRegion 6 { deep := 1 }))).rb (reg (pReg 0) 0x300) 0 = true := by decide +kernel
/-- The digests of "abc" (FIPS 180-4; R244, R378), byte 0 lowest. -/
theorem test_sha_abc : sha256 [0x61, 0x62, 0x63] = 0xAD1500F261FF10B49C7A1796A36103B02322AE5DDE404141EACF018FBF1678BA ∧
    sha384 [0x61, 0x62, 0x63] =
      0xA725C834A1ECBA5823CCE7A12B078680ED5BFF435A608B1A63D1DE0EAB322C270750C69A693DA0B58B5EA3453F7500CB := by
  decide +kernel
/-- The check values of "123456789" under the CRC of SMBus and that of IEEE 802.3, and of CRC-32C (R244, R316, R325). -/
theorem test_crc_check_values : pec ((List.range 9).map fun i => BitVec.ofNat 8 (0x31 + i)) = 0xF4 ∧
    ethCrc ((List.range 9).map fun i => BitVec.ofNat 8 (0x31 + i)) = 0xCBF43926 ∧
    crc32c ((List.range 9).map fun i => BitVec.ofNat 8 (0x31 + i)) = 0xE3069283 := by decide +kernel
/-- The CRC of the factory row's words. -/
def rowCrc : Word := crc32c ((List.range 511).flatMap fun i => natBytes 8 (factoryWord i).toNat)
/-- The words of the row but its CRC word are those of the row as it was written. -/
theorem row_words (x : BitVec 64) : ∀ l : List Nat, 511 ∉ l → (l.flatMap fun i => natBytes 8
    ((([(511, x)].find? (·.1 = i)).map (·.2)).getD (factoryWord i)).toNat) = l.flatMap fun i => natBytes 8 (factoryWord i).toNat
  | [], _ => rfl
  | i :: l, h => by
    have h1 : ¬ 511 = i := fun e => h (e ▸ List.mem_cons_self)
    rw [List.flatMap_cons, List.flatMap_cons, row_words x l fun e => h (List.mem_cons_of_mem _ e)]
    simp [List.find?, h1]
/-- A row whose CRC word reads otherwise fails its check (R238). -/
theorem test_row_altered : rowGood [(511, (rowCrc + 1).setWidth 64)] = false := by
  have h := row_words ((rowCrc + 1).setWidth 64) (List.range 511) List.not_mem_range_self
  have hw : (([(511, (rowCrc + 1).setWidth 64)].find? (·.1 = 511)).map (·.2)).getD (factoryWord 511) =
      (rowCrc + 1).setWidth 64 := by simp [List.find?]
  have hc : rowCrc ≠ ((rowCrc + 1).setWidth 64).setWidth 32 := by
    rw [BitVec.setWidth_setWidth_of_le _ (by decide), BitVec.setWidth_eq]; bv_omega
  unfold rowGood
  simp only [h, hw, List.isEmpty_cons, Bool.false_or, decide_eq_false_iff_not]
  exact hc

/-! ### What meets the hypotheses of the obligations -/

theorem witness_StepRunsFront :
    ∃ (c : Instr) (q : List Instr) (s : State), s.pending = c :: q :=
  ⟨.beatSend 0, [], { on with pending := [.beatSend 0] }, by decide +kernel⟩

theorem witness_EnableAndDisable :
    (∃ (t : Nat) (a : Agent) (p : Fin 512) (v : Word) (s : State), privileged a = true ∧ Opens a p s ∧ Prevails
      a p oCtrl (s.upTo t) ∧ s.enZero p = true ∧ bit v 0 = true) ∧
    (∃ (t : Nat) (p : Fin 512) (lref : Bool) (r : Reason) (s : State), s.unitState p = 1 ∧ tabGet 0 s.checks p
      ≠ 5 ∧ tabGet 0 s.checks p ≠ 6 ∧ (blockOf p = some .region → s.lcState ≠ 5) ∧
      ((s.upTo t).unchecked p).blockCheck p lref = some r) ∧
    (∃ (t : Nat) (p : Fin 512) (lref : Bool) (s : State), s.unitState p = 1 ∧ tabGet 0 s.checks p ≠ 5 ∧ tabGet
      0 s.checks p ≠ 6 ∧ (blockOf p = some .region → s.lcState ≠ 5) ∧ ((s.upTo t).unchecked p).blockCheck p
      lref = none) ∧
    (∃ (t : Nat) (a : Agent) (p : Fin 512) (v : Word) (s : State), privileged a = true ∧ Opens a p s ∧ Prevails
      a p oCtrl (s.upTo t) ∧ s.unitState p = 2 ∧ bit v 0 = false ∧ s.held p = false) ∧
    (∃ (t : Nat) (a : Agent) (p : Fin 512) (v : Word) (s : State), privileged a = true ∧ Opens a p s ∧ Prevails
      a p oCtrl (s.upTo t) ∧ s.unitState p = 2 ∧ bit v 0 = false ∧ s.held p = true) :=
  ⟨⟨0, .host, 0x020, 1, on, by decide +kernel⟩,
   ⟨0, 0x040, false, .clock, on.setUnitState 0x040 1, by decide +kernel⟩,
   ⟨0, 0x039, false, on.setUnitState 0x039 1, by decide +kernel⟩,
   ⟨0, .host, 0x020, 0, on.setUnitState 0x020 2, by decide +kernel⟩,
   ⟨0, .host, 0x160, 0, (on.setUnitState 0x160 2).setUnitState 0x1C0 2, by decide +kernel⟩⟩

theorem witness_RegisterWrites :
    (∃ (t : Nat) (a : Agent) (p : Fin 512) (v : Word) (s : State), privileged a = true ∧ Opens a p s ∧ Prevails
      a p oMask (s.upTo t)) ∧
    (∃ (t : Nat) (a : Agent) (p : Fin 512) (v : Word) (s : State), privileged a = true ∧ Opens a p s ∧ blockOf
      p ≠ some .pingroup) ∧
    (∃ (t : Nat) (a : Agent) (g : Fin 48) (v : Word) (s : State) (z : State), z =
      ((s.upTo t).answer .ok).rxGroup g ∧ privileged a = true ∧ Opens a (pGrp g) s) ∧
    (∃ (t : Nat) (a : Agent) (p : Fin 512) (v : Word) (s : State), privileged a = true ∧ Opens a p s ∧ bit v 0
      = true) ∧
    (∃ (t : Nat) (a : Agent) (p : Fin 512) (v : Word) (s : State), privileged a = true ∧ Opens a p s ∧ bit v 0
      = false) ∧
    (∃ (t : Nat) (a : Agent) (d : Fin 16) (v : Word) (s : State), Opens a (pDom d) s ∧ Prevails a (pDom d)
      0x074 (s.upTo t)) ∧
    (∃ (t : Nat) (a : Agent) (d : Fin 16) (v : Word) (s : State), Opens a (pDom d) s ∧ Prevails a (pDom d)
      0x040 (s.upTo t) ∧ s.enZero (pDom d) = true) ∧
    (∃ (t : Nat) (a : Agent) (d : Fin 16) (v : Word) (s : State), Opens a (pDom d) s ∧ s.enZero (pDom d) =
      false) ∧
    (∃ (t : Nat) (a : Agent) (g : Fin 48) (v : Word) (s : State), Opens a (pGrp g) s) ∧
    (∃ (t : Nat) (a : Agent) (p : Fin 512) (v : Word) (s : State), privileged a = true ∧ Opens a p s ∧ Prevails
      a p oOwner (s.upTo t) ∧ s.locked p = false ∧ fld v 7 0 ∈ [0x00, 0x01, 0x10, 0x3F, 0xF0]) ∧
    (∃ (t : Nat) (a : Agent) (p : Fin 512) (off : Nat) (v : Word) (s : State), Opens a p s ∧ off < 4096 ∧ off %
      4 = 0 ∧ (privileged a = true ∨ 0x40 ≤ off) ∧ ¬Prevails a p off (s.upTo t)) ∧
    (∃ (t : Nat) (d : Fin 16) (v : Word) (s : State), Opens .lattice (pDom d) s ∧ Prevails .lattice (pDom d)
      0x074 (s.upTo t)) ∧
    (∃ (t : Nat) (a : Agent) (p : Fin 512) (off : Nat) (v : Word) (s : State), blockOf p = none) ∧
    (∃ (t : Nat) (off : Nat) (s : State), s.pwr.serving = true ∧ off % 4 = 0 ∧ blockOf (off / 4096) = none) :=
  ⟨⟨0, .host, 0x020, 0, on, by decide +kernel⟩,
   ⟨0, .host, 0x020, 0, on, by decide +kernel⟩,
   ⟨0, .host, 0, 0, on, _, rfl, by decide +kernel⟩,
   ⟨0, .host, 0x020, 1, on, by decide +kernel⟩,
   ⟨0, .host, 0x020, 0, on, by decide +kernel⟩,
   ⟨0, .host, 0, 0, on, by decide +kernel⟩,
   ⟨0, .host, 0, 0, on, by decide +kernel⟩,
   ⟨0, .host, 0, 0, (on.setUnitState (pDom 0) 2), by decide +kernel⟩,
   ⟨0, .host, 0, 5, on.wr (reg (pGrp 0) 0x068) 7, by decide +kernel⟩,
   ⟨0, .host, 0x020, 0x3F, on, by decide +kernel⟩,
   ⟨0, .host, 0x020, 0x074, 0, on.take (reg (pDom 0) 0x074) pageCycle 1, by decide +kernel⟩,
   ⟨0, 0, 0, on, by decide +kernel⟩,
   ⟨0, .host, 0x00B, 0, 0, on, by decide +kernel⟩,
   ⟨0, 0xB044, on, by decide +kernel⟩⟩

theorem witness_HostAccesses :
    (∃ (t : Nat) (x : HostAccess) (s : State), s.pwr.serving = true ∧ x.write = true ∧ x.size = 4 ∧ x.be = 0xF
      ∧ x.off % 4 = 0 ∧ x.poisoned = false ∧ x.off / 4096 < 512) ∧
    (∃ (t : Nat) (x : HostAccess) (s : State), s.pwr.serving = true ∧ x.write = true ∧
      (x.size ≠ 4 ∨ x.be ≠ 0xF ∨ x.off % 4 ≠ 0) ∧ s.inSelftest pPcie = false) ∧
    (∃ (t : Nat) (x : HostAccess) (s : State), s.pwr.serving = true ∧ x.write = true ∧ x.size = 4 ∧ x.be = 0xF
      ∧ x.off % 4 = 0 ∧ x.poisoned = true ∧ s.inSelftest pPcie = false) ∧
    (∃ (t : Nat) (x : HostAccess) (s : State), s.pwr.serving = true ∧ x.write = false ∧ x.size ≠ 4 ∧ x.size ≠ 8
      ∧ s.inSelftest pPcie = false) ∧
    (∃ (t : Nat) (p : Fin 512) (x : HostAccess) (s : State), s.pwr.serving = true ∧ x.write = false ∧ x.size =
      4 ∧ x.off = reg p oMask ∧ (blockOf p).isSome = true ∧ s.closed p = false ∧
      ((p.val = pLife ∨ p.val = pSec) → s.lifeDenies .host = false)) ∧
    (∃ (t : Nat) (x : HostAccess) (s : State), s.pwr.serving = false) :=
  ⟨⟨0, { write := true, off := 0x20074, size := 4, data := 5, be := 0xF }, on, by decide +kernel⟩,
   ⟨0, { write := true, off := 0x20074, size := 2, data := 5, be := 0xF }, on, by decide +kernel⟩,
   ⟨0, { write := true, off := 0x20074, size := 4, data := 5, be := 0xF, poisoned := true }, on,
     by decide +kernel⟩,
   ⟨0, { write := false, off := 0x20074, size := 2, data := 5, be := 0xF }, on, by decide +kernel⟩,
   ⟨0, 0x020, { write := false, off := 0x20014, size := 4, data := 5, be := 0xF }, on, by decide +kernel⟩,
   ⟨0, { write := false, off := 0x20014, size := 4, data := 5, be := 0xF }, State.reset, by decide +kernel⟩⟩

theorem witness_DomainReads :
    (∃ (t : Nat) (d : Fin 16) (s : State) (z : State), z = s.upTo t ∧ Reads (pDom d) s) ∧
    (∃ (t : Nat) (d : Fin 16) (s : State) (z : State), z = s.upTo t ∧ Reads (pDom d) s) ∧
    (∃ (t : Nat) (a : Agent) (d : Fin 16) (v : Word) (s : State) (z : State), z = s.upTo t ∧ Opens a (pDom d) s
      ∧ bit v 0 = true) ∧
    (∃ (t : Nat) (d : Fin 16) (k : Fin 4) (s : State), Reads (pDom d) s) ∧
    (∃ (t : Nat) (a : Agent) (d : Fin 16) (v : Word) (s : State), Opens a (pDom d) s ∧ s.enZero (pDom d) = true
      ∧ bit v 0 = true) ∧
    (∃ (t : Nat) (a : Agent) (d : Fin 16) (v : Word) (s : State), Opens a (pDom d) s ∧ s.enZero (pDom d) =
      false) ∧
    (∃ (t : Nat) (d : Fin 16) (o : Nat) (s : State), Reads (pDom d) s ∧ (o = 0x054 ∨ o = 0x058 ∨ o = 0x064)) :=
  ⟨⟨0, 0, (on.setUnitState (pDom 0) 2), _, rfl, by decide +kernel⟩,
   ⟨0, 0, (on.setUnitState (pDom 0) 2), _, rfl, by decide +kernel⟩,
   ⟨0, .host, 0, 1, (on.setUnitState (pDom 0) 2), _, rfl, by decide +kernel⟩,
   ⟨0, 0, 0, (on.setUnitState (pDom 0) 2), by decide +kernel⟩,
   ⟨0, .host, 0, 1, on.wr (reg (pDom 0) 0x070) 77, by decide +kernel⟩,
   ⟨0, .host, 0, 0, (on.setUnitState (pDom 0) 2), by decide +kernel⟩,
   ⟨0, 0, 0x058, sets [(dreg 0 0x058, 7)] (on.setUnitState (pDom 0) 2), by decide +kernel⟩⟩

theorem witness_DomainMarks :
    (∃ (t : Nat) (a : Agent) (d : Fin 16) (m : Fin 64) (v : Word) (s : State), Opens a (pDom d) s ∧ Prevails a
      (pDom d) (0x400 + 16 * m + 0) (s.upTo t) ∧ s.armed d m = false) ∧
    (∃ (t : Nat) (a : Agent) (d : Fin 16) (m : Fin 64) (v : Word) (s : State), Opens a (pDom d) s ∧ Prevails a
      (pDom d) (0x400 + 16 * m + 4) (s.upTo t) ∧ s.armed d m = false) ∧
    (∃ (t : Nat) (a : Agent) (d : Fin 16) (m : Fin 64) (v : Word) (s : State), Opens a (pDom d) s ∧ Prevails a
      (pDom d) (0x400 + 16 * m + 12) (s.upTo t) ∧ s.armed d m = false) ∧
    (∃ (t : Nat) (a : Agent) (d : Fin 16) (m : Fin 64) (v : Word) (s : State) (z : State), z = s.upTo t ∧ Opens
      a (pDom d) s ∧ Prevails a (pDom d) (0x400 + 16 * m + 8) z ∧ bit v 0 = true ∧ fld v 2 1 < 2 ∧ bit v 12 =
      false ∧ s.markPos d m < s.mod4096 d) ∧
    (∃ (t : Nat) (a : Agent) (d : Fin 16) (m : Fin 64) (v : Word) (s : State), Opens a (pDom d) s ∧ Prevails a
      (pDom d) (0x400 + 16 * m + 8) (s.upTo t) ∧ bit v 0 = true ∧ s.mod4096 d ≤ s.markPos d m) ∧
    (∃ (t : Nat) (d : Fin 16) (m : Fin 64) (up : Int) (s : State) (z : State), z = s.upTo t ∧ s.isOn (pDom d) =
      true ∧ s.homedOk d = true ∧ s.armed d m = true ∧ (fld (s.markCtrl d m) 2 1 = 0 → (s.dom d).committed.any
      (·.mark = m.val) = false) ∧ bit (s.markCtrl d m) 3 = false ∧ fld (s.markCtrl d m) 31 16 = 0 ∧ up =
      crossingOf z d m ∧ up ≤ z.reachUp d) ∧
    (∃ (t : Nat) (d : Fin 16) (m : Fin 64) (up : Int) (s : State) (z : State), z = s.upTo t ∧ s.isOn (pDom d) =
      true ∧ s.homedOk d = true ∧ s.armed d m = true ∧ (fld (s.markCtrl d m) 2 1 = 0 → (s.dom d).committed.any
      (·.mark = m.val) = false) ∧ bit (s.markCtrl d m) 3 = false ∧ 0 < fld (s.markCtrl d m) 31 16 ∧ up =
      crossingOf z d m ∧ up ≤ z.reachUp d) ∧
    (∃ (t : Nat) (d : Fin 16) (m : Fin 64) (f : Firing) (s : State), (s.upTo t).firingDue d m = some f ∧ fld
      f.ctrl 12 8 = 0) ∧
    (∃ (t : Nat) (d : Fin 16) (s : State) (z : State), z = s.upTo t ∧ s.isOn (pDom d) = true ∧ (s.dom d).wraps
      < z.totalAt d z.now / s.modFine d) ∧
    (∃ (t : Nat) (d : Fin 16) (s : State) (z : State), z = s.upTo t ∧ s.isOn (pDom d) = true ∧ z.totalAt d
      z.now / s.modFine d < (s.dom d).wraps) :=
  ⟨⟨0, .host, 0, 3, 7, on, by decide +kernel⟩,
   ⟨0, .host, 0, 3, 0xFFFFFFFF, on, by decide +kernel⟩,
   ⟨0, .host, 0, 3, 0xFFFFFFFF, on, by decide +kernel⟩,
   ⟨0, .host, 0, 3, 0xFFFF0F0B, on, _, rfl, by decide +kernel⟩,
   ⟨0, .host, 0, 3, 1, sets [(dreg 0 0x048, 4096), (mreg 0 3 0, 4096)] on, by decide +kernel⟩,
   ⟨0, 0, 3, crossingOf
     ((sets [(mreg 0 3 8, 1), (dreg 0 0x048, 4096)] (domOn 5 { traj := { w := 1000000000 * velUnit }  })).upTo 0)
     0 3, sets [(mreg 0 3 8, 1), (dreg 0 0x048, 4096)] (domOn 5 { traj := { w := 1000000000 * velUnit }  }), _,
     rfl, by decide +kernel⟩,
   ⟨0, 0, 3, crossingOf
     ((sets [(mreg 0 3 8, 0x10001), (dreg 0 0x048, 4096)] (domOn 5 { traj := { w := 1000000000 * velUnit }  })).upTo 0)
     0 3, sets [(mreg 0 3 8, 0x10001), (dreg 0 0x048, 4096)]
     (domOn 5 { traj := { w := 1000000000 * velUnit }  }), _, rfl, by decide +kernel⟩,
   ⟨0, 0, 3, { mark := 3, due := 1024000000, late := false, ctrl := 1 }, sets
     [(mreg 0 3 8, 1), (dreg 0 0x048, 4096)]
     (domOn 5 { traj := { w := 1000000000 * velUnit } , committed := [{ mark := 3, due := 1024000000, late := false, ctrl := 1 }] }),
     by decide +kernel⟩,
   ⟨0, 0, sets [(dreg 0 0x048, 4096)] (domOn 5 { traj := { p0 := 4096 * posUnit }, wraps := 0 }), _, rfl,
     by decide +kernel⟩,
   ⟨0, 0, sets [(dreg 0 0x048, 4096)] (domOn 5 { traj := { p0 := -4096 * posUnit }, wraps := 0 }), _, rfl,
     by decide +kernel⟩⟩

theorem witness_DomainSources :
    (∃ (t : Nat) (inp : Fin 16) (d : Fin 16) (la : Bool) (lb : Bool) (li : Bool) (sa : Nat) (sb : Nat)
      (si : Nat) (s : State), s.isOn (pDom d) = true ∧ s.srcType d = 1 ∧ s.srcInput d = inp ∧
      (s.dom d).enc.sampled = false) ∧
    (∃ (t : Nat) (inp : Fin 16) (d : Fin 16) (li : Bool) (sa : Nat) (sb : Nat) (si : Nat) (s : State), s.isOn
      (pDom d) = true ∧ s.srcType d = 1 ∧ s.srcInput d = inp ∧ (s.dom d).enc.sampled = true ∧
      (s.dom d).enc.la.level = false ∧ (s.dom d).enc.lb.level = false ∧ (s.dom d).enc.li.level = li ∧
      (s.dom d).enc.idx = false ∧ (s.dom d).enc.la.n = 0 ∧ (s.dom d).enc.accum = 0 ∧ s.rf (dreg d 0x080) 11 8 =
      0 ∧ s.rf (dreg d 0x080) 2 0 = 0 ∧ s.rf (dreg d 0x080) 23 16 = 0) ∧
    (∃ (t : Nat) (r : Fin 96) (d : Fin 16) (inc : BitVec 24) (s : State) (z : State), z = s.upTo t ∧
      s.regionParked r = false ∧ z.portBusy r 1 = false ∧ s.isOn (pDom d) = true ∧ s.srcType d = 5 ∧
      s.srcRegion d = r ∧ inc ≠ 0) ∧
    (∃ (t : Nat) (d : Fin 16) (at_ : Nat) (g : Traj) (rest : List (Nat × Traj)) (s : State) (z : State), z =
      s.upTo t ∧ (s.dom d).segs = (at_, g) :: rest ∧ at_ ≤ z.now ∧ s.isOn (pDom d) = true) ∧
    (∃ (t : Nat) (d : Fin 16) (s : State) (z : State), z = s.upTo t ∧ s.isOn (pDom d) = true ∧
      (s.srcType d = 1 ∨ s.srcType d = 5) ∧ (s.dom d).stopped = false ∧ (s.dom d).lastCount + ns
      (10 * (s.rd (dreg d 0x068)).toNat) ≤ z.now) ∧
    (∃ (t : Nat) (a : Agent) (d : Fin 16) (v : Word) (s : State) (z : State), z = s.upTo t ∧ Opens a (pDom d) s
      ∧ bit v 3 = true ∧ s.srcType d = 2 ∧ s.isOn (pDom d) = true ∧ s.presetRate d (fld v 2 0) ≤ maxRate ∧
      s.presetRamp d (fld v 2 0) = 0 ∧ (s.dom d).req.all (fun r => r.cycle != z.now / pinCycle) = true) ∧
    (∃ (t : Nat) (a : Agent) (d : Fin 16) (v : Word) (s : State), Opens a (pDom d) s ∧ bit v 3 = true ∧
      s.srcType d = 2 ∧ s.isOn (pDom d) = true ∧ maxRate < s.presetRate d (fld v 2 0)) ∧
    (∃ (t : Nat) (d : Fin 16) (s : State), s.isOn (pDom d) = true ∧ (s.dom d).ramp.owed = true ∧
      (s.dom d).ramp.ramping = false) ∧
    (∃ (t : Nat) (d : Fin 16) (s : State) (z : State), z = s.upTo t ∧ s.isOn (pDom d) = true ∧
      (s.dom d).ramp.owed = true ∧ (s.dom d).ramp.ramping = true ∧ capped (s.dom d).traj (s.dom d).ramp.target
      z.now = true) :=
  ⟨⟨0, 0, 0, true, false, false, 0, 0, 0, domOn 1 {}, by decide +kernel⟩,
   ⟨0, 0, 0, false, 77, 0, 0, sets [(dreg 0 0x080, 0)] (domOn 1 { enc := { sampled := true } }),
     by decide +kernel⟩,
   ⟨0, 0, 0, 0xFFFFFF, (domOn 5 {}).setUnitState (pReg 0) 2, _, rfl, by decide +kernel⟩,
   ⟨0, 0, 5, { w := 9 }, [], domOn 1 { segs := [(5, { w := 9 })] }, _, rfl, by decide +kernel⟩,
   ⟨5000000000, 0, domOn 1 { stopped := false, counts := [(3, 4)] }, _, rfl, by decide +kernel⟩,
   ⟨0, .host, 0, 9, sets [(dreg 0 0x110, 500)] (domOn 2 {}), _, rfl, by decide +kernel⟩,
   ⟨0, .host, 0, 9, sets [(dreg 0 0x114, 0xFF)] (domOn 2 {}), by decide +kernel⟩,
   ⟨0, 0, domOn 2 { ramp := { owed := true } }, by decide +kernel⟩,
   ⟨0, 0, domOn 2
     { ramp := { owed := true, ramping := true, target := 5 }, traj := { lim := some 7, acc := 1 } }, _, rfl,
     by decide +kernel⟩⟩

theorem witness_DomainTracking :
    (∃ (t : Nat) (c : MainsCycle) (d : Fin 16) (s : State) (z : State), z = s.upTo t ∧ s.isOn (pDom d) = true ∧
      s.srcType d = 3 ∧ s.srcInput d = c.sense ∧ (s.dom d).tracker.last = none) ∧
    (∃ (t : Nat) (c : MainsCycle) (d : Fin 16) (t0 : Nat) (s : State) (z : State), z = s.upTo t ∧ s.isOn
      (pDom d) = true ∧ s.srcType d = 3 ∧ s.srcInput d = c.sense ∧ (s.dom d).tracker.last = some t0 ∧
      (s.dom d).tracker.locked = true ∧ (mainsFreq (lockedPeriod (s.dom d).tracker (z.now - t0)) < 40000 ∨
      70000 < mainsFreq (lockedPeriod (s.dom d).tracker (z.now - t0)))) ∧
    (∃ (t : Nat) (c : MainsCycle) (d : Fin 16) (t0 : Nat) (n : Nat) (s : State) (z : State), z = s.upTo t ∧
      s.isOn (pDom d) = true ∧ s.srcType d = 3 ∧ s.srcInput d = c.sense ∧ (s.dom d).tracker.last = some t0 ∧
      (s.dom d).tracker.locked = true ∧ n = lockedPeriod (s.dom d).tracker (z.now - t0) ∧ 40000 ≤ mainsFreq n ∧
      mainsFreq n ≤ 70000) ∧
    (∃ (t : Nat) (c : MainsCycle) (d : Fin 16) (t0 : Nat) (s : State) (z : State), z = s.upTo t ∧ s.isOn
      (pDom d) = true ∧ s.srcType d = 3 ∧ s.srcInput d = c.sense ∧ (∀ e, e < d.val →
      ¬(s.isOn (pDom e) = true ∧ s.srcType e = 3 ∧ s.srcInput e = c.sense)) ∧ (s.dom d).tracker.last = some t0
      ∧ (s.dom d).tracker.locked = false ∧ (s.dom d).tracker.good = 7 ∧ 40000 ≤ mainsFreq (z.now - t0) ∧
      mainsFreq (z.now - t0) ≤ 70000) ∧
    (∃ (t : Nat) (d : Fin 16) (s : State) (z : State), z = s.upTo t ∧ s.isOn (pDom d) = true ∧ s.srcType d = 3
      ∧ (s.dom d).tracker.locked = true ∧ 2 * (s.dom d).tracker.last.getD 0 + 5 * (s.dom d).tracker.period ≤ 2
      * z.now) ∧
    (∃ (t : Nat) (d : Fin 16) (h : Nat) (s : State) (z : State), z = s.upTo t ∧ s.isOn (pDom d) = true ∧
      s.srcType d = 3 ∧ (s.dom d).tracker.holdEnd = some h ∧ h ≤ z.now) ∧
    (∃ (t : Nat) (d : Fin 16) (s : State) (z : State), z = s.upTo t ∧ s.isOn (pDom d) = true ∧ s.srcType d = 4
      ∧ (s.dom d).stopped = false ∧ (s.dom d).lastUpd + us (s.rf (dreg d 0x0E0) 15 0) ≤ z.now) ∧
    (∃ (t : Nat) (d : Fin 16) (s : State) (z : State), z = s.upTo t ∧ s.isOn (pDom d) = true ∧ s.srcType d = 4
      ∧ (s.dom d).stopped = true ∧ ((s.dom d).current = true ∨ (s.dom d).holdover = true) ∧ (s.dom d).lastUpd +
      us (s.rf (dreg d 0x0E0) 15 0) ≤ z.now) :=
  ⟨⟨0, { sense := 0, peak := 0 }, 0, domOn 3 {}, _, rfl, by decide +kernel⟩,
   ⟨0, { sense := 0, peak := 0 }, 0, 1023000000, domOn 3
     { tracker := { last := some 1023000000, locked := true } }, _, rfl, by decide +kernel⟩,
   ⟨21483520000, { sense := 0, peak := 0 }, 0, 1003520000, 20480000000, domOn 3
     { tracker := { last := some 1003520000, locked := true } }, _, rfl, by decide +kernel⟩,
   ⟨21483520000, { sense := 0, peak := 0 }, 0, 1003520000, domOn 3
     { tracker := { last := some 1003520000, good := 7 } }, _, rfl, by decide +kernel⟩,
   ⟨0, 0, domOn 3 { tracker := { last := some 0, locked := true, period := 5 } }, _, rfl, by decide +kernel⟩,
   ⟨0, 0, 1024000000, domOn 3 { tracker := { holdEnd := some 1024000000 }, stopped := false }, _, rfl,
     by decide +kernel⟩,
   ⟨2000000000, 0, domOn 4 { stopped := false, current := true }, _, rfl, by decide +kernel⟩,
   ⟨4000000000, 0, sets [(dreg 0 0x0E0, 5)] (domOn 4 { stopped := true, current := true }), _, rfl,
     by decide +kernel⟩⟩

theorem witness_PinTiming :
    (∃ (t : Nat) (a : Agent) (g : Fin 48) (v : Word) (pin : Nat) (set : Nat) (w : Nat) (s : State), Opens a
      (pGrp g) s ∧ pin = s.rf (greg g 0x048) 13 8 ∧ set = s.rf (greg g 0x048) 7 3 ∧ w = s.rf (greg g 0x048) 2 0
      ∧ w ≠ 7 ∧ tsOk w v = true) ∧
    (∃ (t : Nat) (a : Agent) (g : Fin 48) (v : Word) (s : State), Opens a (pGrp g) s ∧ s.rf (greg g 0x048) 2 0
      = 6 ∧ tsOk 6 v = false) ∧
    (∃ (t : Nat) (g : Fin 48) (s : State), Reads (pGrp g) s) ∧
    (∃ (t : Nat) (i : Fin 3072) (e : Edge) (at_ : Nat) (s : State) (z : State), z = s.upTo t ∧ z.firstDue
      (s.pin i).edges = some (e, at_) ∧ e.at_ = none ∧ (edgeCompares e.act = true ∨ s.owner i = e.own) ∧ s.rf
      (cfgReg i) 9 8 ≠ 1 ∧ e.act ≠ .bit ∧ s.inSelftest (pGrp (i / 64)) = false) ∧
    (∃ (t : Nat) (i : Fin 3072) (e : Edge) (c : Nat) (at_ : Nat) (oe : Bool) (lvl : Bool) (s : State)
      (z : State), z = s.upTo t ∧ z.firstDue (s.pin i).edges = some (e, at_) ∧ e.at_ = some c ∧ e.act = .both
      oe lvl ∧ s.owner i = e.own ∧ s.rf (cfgReg i) 9 8 ≠ 1) ∧
    (∃ (t : Nat) (i : Fin 3072) (e : Edge) (at_ : Nat) (s : State) (z : State), z = s.upTo t ∧ z.firstDue
      (s.pin i).edges = some (e, at_) ∧ edgeCompares e.act = false ∧ s.owner i ≠ e.own) ∧
    (∃ (t : Nat) (i : Fin 3072) (q : QEdge) (r : List QEdge) (s : State) (z : State), z = s.upTo t ∧
      (s.pin i).queue = q :: r ∧ q.due / pinCycle * pinCycle ≤ z.now ∧ z.beyondSwitch (s.pin i) q = false) ∧
    (∃ (t : Nat) (i : Fin 3072) (q : QEdge) (r : List QEdge) (s : State), (s.pin i).queue = q :: r ∧
      s.beyondSwitch (s.pin i) q = true) :=
  ⟨⟨0, .host, 0, 0x12, 3, 2, 6, sets [(greg 0 0x048, 0x80000316)] on, by decide +kernel⟩,
   ⟨0, .host, 0, 0xFFFFFFFF, sets [(greg 0 0x048, 6)] on, by decide +kernel⟩,
   ⟨0, 0, sets [(greg 0 0x048, 0x80000316)] on, by decide +kernel⟩,
   ⟨0, 5, { due := .time 1024000005, act := .on, own := 0 }, 1024000005, sets [(reg (pGrp 0) oStatus, 2)]
     (on.setPin 5 { edges := [{ due := .time 1024000005, act := .on, own := 0 }] }), _, rfl, by decide +kernel⟩,
   ⟨0, 5, { due := .time 1024000005, act := .both true true, own := 0, at_ := some 1024000000 }, 1024000000,
     1024000005, true, true, sets [(reg (pGrp 0) oStatus, 2)]
     (on.setPin 5 { edges := [{ due := .time 1024000005, act := .both true true, own := 0, at_ := some 1024000000 }] }),
     _, rfl, by decide +kernel⟩,
   ⟨0, 5, { due := .time 1024000005, act := .on, own := 2 }, 1024000005, sets [(reg (pGrp 0) oStatus, 2)]
     (on.setPin 5 { edges := [{ due := .time 1024000005, act := .on, own := 2 }] }), _, rfl, by decide +kernel⟩,
   ⟨0, 5, { due := 1024000005, act := .onLevel true, own := 0 }, [], sets [(reg (pGrp 0) oStatus, 2)]
     (on.setPin 5 { queue := [{ due := 1024000005, act := .onLevel true, own := 0 }] }), _, rfl,
     by decide +kernel⟩,
   ⟨0, 5, { due := 1024009000, act := .onLevel true, own := 0 }, [], sets [(reg (pGrp 0) oStatus, 2)]
     (on.setPin 5 { queue := [{ due := 1024009000, act := .onLevel true, own := 0 }], switch := some { owner := some 0x30, bound := some 1024005120 } }),
     by decide +kernel⟩⟩

theorem witness_PinResultsAndSnareRing :
    (∃ (t : Nat) (i : Fin 3072) (j : Judge) (at_ : Nat) (b : Option Nat) (s : State) (z : State), z = s.upTo t
      ∧ z.judgeDue (s.pin i).judges = some (j, at_, b) ∧ j.code ≠ 10 ∧ z.judgeFail i j at_ b = some true ∧ fld
      (z.cfgNow i) 18 16 ≠ 4 ∧ s.inSelftest (pGrp (i / 64)) = false) ∧
    (∃ (t : Nat) (i : Fin 3072) (j : Judge) (at_ : Nat) (b : Option Nat) (s : State) (z : State), z = s.upTo t
      ∧ z.judgeDue (s.pin i).judges = some (j, at_, b) ∧ j.code = 10 ∧ fld (z.cfgNow i) 18 16 = 1 ∧ s.rf
      (cfgReg i) 9 8 = 0 ∧ (s.pin i).fifo.length < 8 ∧ s.rd (captReg i) = 0) ∧
    (∃ (t : Nat) (i : Fin 3072) (uv : BitVec 22) (hi : Bool) (lo : Bool) (s : State) (z : State), z = s.upTo t
      ∧ s.cmpRuns i = true) ∧
    (∃ (t : Nat) (i : Fin 3072) (uv : BitVec 22) (hi : Bool) (lo : Bool) (θ : Int) (s : State) (z : State), z =
      s.upTo t ∧ s.cmpRuns i = true ∧ s.trimmed i = false ∧ θ = s.threshUv i (s.rf (threshReg i) 25 16) ∧
      (cmpHeld (s.pin i) z.now).1 = false ∧ (s.pin i).uv < uv.toNat ∧ θ + z.hystHalf i z.now + s.threshAcc i <
      uv.toNat * 1024) ∧
    (∃ (t : Nat) (i : Fin 3072) (uv : BitVec 22) (hi : Bool) (lo : Bool) (θ : Int) (s : State) (z : State), z =
      s.upTo t ∧ s.cmpRuns i = true ∧ s.trimmed i = false ∧ θ = s.threshUv i (s.rf (threshReg i) 25 16) ∧
      (cmpHeld (s.pin i) z.now).1 = true ∧ uv.toNat < (s.pin i).uv ∧ (uv.toNat * 1024 : Int) < θ - z.hystHalf i
      z.now - s.threshAcc i) ∧
    (∃ (t : Nat) (i : Fin 3072) (uv : BitVec 22) (hi : Bool) (lo : Bool) (s : State), s.cmpRuns i = false) ∧
    (∃ (t : Nat) (g : Fin 48) (i : Nat) (s : State), snareTurn s g = some i ∧ 0 < s.rf (greg g 0x054) 7 0 ∧
      s.isOn (pGrp g) = true ∧ ringNext s g ≠ s.rf (greg g 0x05C) 16 0) ∧
    (∃ (t : Nat) (g : Fin 48) (i : Nat) (k : Nat) (s : State), snareTurn s g = some i ∧ 0 < s.rf (greg g 0x054)
      7 0 ∧ s.isOn (pGrp g) = true ∧ ringNext s g ≠ s.rf (greg g 0x05C) 16 0 ∧ s.isOn (pSeq g) = false ∧ k <
      ((s.pin i).fifo.headD []).length) ∧
    (∃ (t : Nat) (g : Fin 48) (i : Nat) (s : State), snareTurn s g = some i ∧ 0 < s.rf (greg g 0x054) 7 0 ∧
      s.isOn (pGrp g) = true ∧ ringNext s g = s.rf (greg g 0x05C) 16 0 ∧ s.rb (greg g 0x060) 0 = false ∧
      (s.grp g).full = false) ∧
    (∃ (t : Nat) (a : Agent) (g : Fin 48) (v : Word) (s : State), Opens a (pGrp g) s ∧ Prevails a (pGrp g)
      0x05C (s.upTo t) ∧ fld v 16 0 % 32 = 0 ∧ fld v 16 0 < s.rf (greg g 0x054) 7 0 * 1024) ∧
    (∃ (t : Nat) (a : Agent) (g : Fin 48) (v : Word) (s : State), Opens a (pGrp g) s ∧ Prevails a (pGrp g)
      0x05C (s.upTo t) ∧ (fld v 16 0 % 32 ≠ 0 ∨ s.rf (greg g 0x054) 7 0 * 1024 ≤ fld v 16 0)) :=
  ⟨⟨1024300000, 5, { code := 3, seq := 0, vec := 1, open_ := .time 1024000000 }, 1024000000, none, sets
     [(reg (pGrp 0) oStatus, 2)]
     (on.setPin 5 { judges := [{ code := 3, seq := 0, vec := 1, open_ := .time 1024000000 }] }), _, rfl,
     by decide +kernel⟩,
   ⟨1024300000, 5, { code := 10, seq := 0, vec := 1, open_ := .time 1024000000 }, 1024000000, none, sets
     [(reg (pGrp 0) oStatus, 2), (cfgReg 5, 0x10000)]
     (on.setPin 5 { judges := [{ code := 10, seq := 0, vec := 1, open_ := .time 1024000000 }] }), _, rfl,
     by decide +kernel⟩,
   ⟨0, 5, 0, true, false, sets [(reg (pGrp 0) oStatus, 2)] (on.setPin 5 {}), _, rfl, by decide +kernel⟩,
   ⟨0, 5, 1100000, false, false, 512 * 1200000, sets [(reg (pGrp 0) oStatus, 2), (threshReg 5, 0x02000200)]
     (on.setPin 5 {}), _, rfl, by decide +kernel⟩,
   ⟨0, 5, 0, false, false, 512 * 1200000, sets [(reg (pGrp 0) oStatus, 2), (threshReg 5, 0x02000200)]
     (on.setPin 5 { cmph := true, uv := 1100000 }), _, rfl, by decide +kernel⟩,
   ⟨0, 5, 0, true, false, on, by decide +kernel⟩,
   ⟨0, 0, 5, sets [(reg (pGrp 0) oStatus, 2), (greg 0 0x054, 1)] (on.setPin 5 { fifo := [[1, 2]] }),
     by decide +kernel⟩,
   ⟨0, 0, 5, 1, sets [(reg (pGrp 0) oStatus, 2), (greg 0 0x054, 1)] (on.setPin 5 { fifo := [[1, 2]] }),
     by decide +kernel⟩,
   ⟨0, 0, 5, sets [(reg (pGrp 0) oStatus, 2), (greg 0 0x054, 1), (greg 0 0x05C, 32)]
     (on.setPin 5 { fifo := [[1, 2]] }), by decide +kernel⟩,
   ⟨0, .host, 0, 32, sets [(reg (pGrp 0) oStatus, 2), (greg 0 0x054, 1)] (on.setPin 5 {}), by decide +kernel⟩,
   ⟨0, .host, 0, 33, sets [(reg (pGrp 0) oStatus, 2), (greg 0 0x054, 1)] (on.setPin 5 {}), by decide +kernel⟩⟩

theorem witness_PinRegisters :
    (∃ (t : Nat) (a : Agent) (i : Fin 3072) (v : Word) (s : State), Opens a (pGrp (i / 64)) s ∧ Prevails a
      (pGrp (i / 64)) (0x300 + 4 * (i % 64)) (s.upTo t)) ∧
    (∃ (t : Nat) (a : Agent) (i : Fin 3072) (v : Word) (s : State) (z : State), z = s.upTo t ∧ Opens a
      (pGrp (i / 64)) s ∧ Prevails a (pGrp (i / 64)) (0x200 + 4 * (i % 64)) z ∧
      (s.isOn (pGrp (i / 64)) = true → fld v 9 0 ≤ fld v 25 16)) ∧
    (∃ (t : Nat) (a : Agent) (i : Fin 3072) (v : Word) (s : State), Opens a (pGrp (i / 64)) s ∧ Prevails a
      (pGrp (i / 64)) (0x200 + 4 * (i % 64)) (s.upTo t) ∧ s.isOn (pGrp (i / 64)) = true ∧ fld v 25 16 < fld v 9
      0) ∧
    (∃ (t : Nat) (a : Agent) (i : Fin 3072) (v : Word) (s : State) (z : State), z = s.upTo t ∧ Opens a
      (pGrp (i / 64)) s ∧ Prevails a (pGrp (i / 64)) (0x100 + 4 * (i % 64)) z ∧ s.pinCfgCheck a i v = none ∧
      fld v 9 8 = s.rf (cfgReg i) 9 8) ∧
    (∃ (t : Nat) (a : Agent) (i : Fin 3072) (v : Word) (s : State) (z : State), z = s.upTo t ∧ Opens a
      (pGrp (i / 64)) s ∧ Prevails a (pGrp (i / 64)) (0x100 + 4 * (i % 64)) z ∧ s.pinCfgCheck a i v = none ∧
      fld v 9 8 ≠ s.rf (cfgReg i) 9 8 ∧ z.swBeaten (swRank a) i = false) ∧
    (∃ (t : Nat) (a : Agent) (i : Fin 3072) (v : Word) (s : State) (z : State), z = s.upTo t ∧ Opens a
      (pGrp (i / 64)) s ∧ Prevails a (pGrp (i / 64)) (0x100 + 4 * (i % 64)) z ∧ s.pinCfgCheck a i v = none ∧
      fld v 9 8 ≠ s.rf (cfgReg i) 9 8 ∧ z.swBeaten (swRank a) i = true) ∧
    (∃ (t : Nat) (g : Fin 48) (mv : BitVec 16) (s : State), s.inBand g mv.toNat = false ∧ s.isOn (pGrp g) =
      true ∧ s.inBand g (s.rf (greg g 0x064) 15 0) = true) ∧
    (∃ (t : Nat) (g : Fin 48) (mv : BitVec 16) (s : State), s.inBand g mv.toNat = true) ∧
    (∃ (t : Nat) (g : Fin 48) (b : Nat) (s : State) (z : State), z = s.upTo t ∧ (s.grp g).padsOff = true ∧
      (s.grp g).inBand = some b ∧ b + us 100 ≤ z.now) ∧
    (∃ (t : Nat) (g : Fin 48) (mv : BitVec 16) (s : State), s.pwr.phase ≠ .reset ∧ s.pwr.phase ≠ .fault) ∧
    (∃ (t : Nat) (g : Fin 48) (mv : BitVec 16) (s : State), (s.pwr.phase = .reset ∨ s.pwr.phase = .fault)) :=
  ⟨⟨0, .host, 5, 0xFFFFFFFF, on, by decide +kernel⟩,
   ⟨0, .host, 5, 0xFFFFFFFF, sets [(reg (pGrp 0) oStatus, 2)] (on.setPin 5 {}), _, rfl, by decide +kernel⟩,
   ⟨0, .host, 5, 0x3FF, sets [(reg (pGrp 0) oStatus, 2)] (on.setPin 5 {}), by decide +kernel⟩,
   ⟨0, .host, 5, 0x10, sets [(reg (pGrp 0) oStatus, 2)] (on.setPin 5 {}), _, rfl, by decide +kernel⟩,
   ⟨0, .host, 5, 0x100, sets [(reg (pAna 0) oStatus, 2)] (sets [(reg (pGrp 0) oStatus, 2)] (on.setPin 5 {})),
     _, rfl, by decide +kernel⟩,
   ⟨0, .host, 5, 0x100,
     (sets [(reg (pAna 0) oStatus, 2)] (sets [(reg (pGrp 0) oStatus, 2)] (on.setPin 5 {}))).setPin 5
     { swLast := some (1024000000 / pageCycle, 200) }, _, rfl, by decide +kernel⟩,
   ⟨0, 0, 5000, sets [(reg (pGrp 0) oStatus, 2), (greg 0 0x064, 1200), (greg 0 0x040, 0)] (on.setPin 5 {}),
     by decide +kernel⟩,
   ⟨0, 0, 1200, sets [(greg 0 0x040, 0)] on, by decide +kernel⟩,
   ⟨1900000000, 0, 1000000000, on.setGrp 0 { padsOff := true, inBand := some 1000000000 }, _, rfl,
     by decide +kernel⟩,
   ⟨0, 0, 3300, on, by decide +kernel⟩,
   ⟨0, 0, 1200, { on with pwr := { phase := .reset } }, by decide +kernel⟩⟩

theorem witness_SerialAndReflex :
    (∃ (t : Nat) (a : Agent) (g : Fin 48) (v : Word) (i : Nat) (s : State), Opens a (pGrp g) s ∧ i = 64 * g +
      s.rf (greg g 0x070) 5 0 ∧ (s.pin i).tx.length < 16) ∧
    (∃ (t : Nat) (a : Agent) (g : Fin 48) (v : Word) (i : Nat) (s : State), Opens a (pGrp g) s ∧ i = 64 * g +
      s.rf (greg g 0x070) 5 0 ∧ 16 ≤ (s.pin i).tx.length) ∧
    (∃ (t : Nat) (a : Agent) (g : Fin 48) (i : Nat) (w : BitVec 64) (r : List (BitVec 64)) (s : State), Reads
      (pGrp g) s ∧ i = 64 * g + s.rf (greg g 0x070) 5 0 ∧ (s.pin i).rx = w :: r) ∧
    (∃ (t : Nat) (a : Agent) (g : Fin 48) (k : Fin 16) (v : Word) (s : State) (z : State), z = s.upTo t ∧ Opens
      a (pGrp g) s ∧ Prevails a (pGrp g) (0x40C + 16 * k) z ∧ s.rfxEn g k = false ∧ bit v 0 = true ∧ s.rf
      (greg g (0x408 + 16 * k)) 10 0 ≤ 1664 ∧ s.rf (greg g (0x408 + 16 * k)) 29 28 ≠ 3 ∧ s.isOn (pGrp g) = true
      ∧ (∀ j, j < 16 → j ≠ k.val → s.rfxEn g j = true → s.rf (greg g (0x408 + 16 * j)) 21 16 ≠ s.rf
      (greg g (0x408 + 16 * k)) 21 16)) ∧
    (∃ (t : Nat) (a : Agent) (g : Fin 48) (k : Fin 16) (v : Word) (s : State), Opens a (pGrp g) s ∧ Prevails a
      (pGrp g) (0x40C + 16 * k) (s.upTo t) ∧ s.rfxEn g k = false ∧ bit v 0 = true ∧ 1664 < s.rf
      (greg g (0x408 + 16 * k)) 10 0) ∧
    (∃ (t : Nat) (a : Agent) (g : Fin 48) (k : Fin 16) (v : Word) (s : State) (z : State), z = s.upTo t ∧ Opens
      a (pGrp g) s ∧ Prevails a (pGrp g) (0x404 + 16 * k) z) ∧
    (∃ (t : Nat) (g : Fin 48) (k : Fin 16) (at_ : Nat) (o : Bool) (r : List (Nat × Bool)) (s : State)
      (z : State), z = s.upTo t ∧ (s.rfx g k).path = (at_, o) :: r ∧ at_ + 5018 + s.rf
      (greg g (0x408 + 16 * k)) 10 0 * timeStep ≤ z.now) :=
  ⟨⟨0, .host, 0, 3, 5, sets [(greg 0 0x070, 5)] on, by decide +kernel⟩,
   ⟨0, .host, 0, 3, 5, sets [(greg 0 0x070, 5)] (on.setPin 5 { tx := List.replicate 16 0 }), by decide +kernel⟩,
   ⟨0, .host, 0, 5, 0x500000003, [], sets [(greg 0 0x070, 5)] (on.setPin 5 { rx := [0x500000003] }),
     by decide +kernel⟩,
   ⟨0, .host, 0, 2, 1, sets [(greg 0 (0x408 + 32), 0x10680)]
     (sets [(reg (pGrp 0) oStatus, 2)] (on.setPin 5 {})), _, rfl, by decide +kernel⟩,
   ⟨0, .host, 0, 2, 1, sets [(greg 0 (0x408 + 32), 0x10681)]
     (sets [(reg (pGrp 0) oStatus, 2)] (on.setPin 5 {})), by decide +kernel⟩,
   ⟨0, .host, 0, 2, 7, on, _, rfl, by decide +kernel⟩,
   ⟨0, 0, 2, 7, true, [], (on.setRfx 0 2 { path := [(7, true)] }).setUnitState (pGrp 0) 2, _, rfl,
     by decide +kernel⟩⟩

theorem witness_AnalogConverters :
    (∃ (t : Nat) (a : Agent) (g : Fin 48) (j : Fin 2) (v : Word) (s : State) (z : State), z = s.upTo t ∧ Opens
      a (pAna g) s ∧ bit v j = true ∧ fld (s.adcCfg g j) 9 8 = 0 ∧ bit (s.adcCfg g j) 0 = true ∧ s.isOn
      (pAna g) = true ∧ (s.adc g j).busy = none) ∧
    (∃ (t : Nat) (g : Fin 48) (j : Fin 2) (code : BitVec 16) (b : Nat) (s : State) (z : State), z = s.upTo t ∧
      (s.adc g j).busy = some b ∧ b ≤ z.now ∧ (s.adc g j).fifo.length < 256 ∧ s.inSelftest (pAna g) = false) ∧
    (∃ (t : Nat) (g : Fin 48) (j : Fin 2) (code : BitVec 16) (b : Nat) (s : State) (z : State), z = s.upTo t ∧
      (s.adc g j).busy = some b ∧ b ≤ z.now ∧ 256 ≤ (s.adc g j).fifo.length ∧ s.inSelftest (pAna g) = false) ∧
    (∃ (t : Nat) (g : Fin 48) (j : Fin 2) (s : State), Reads (pAna g) s) ∧
    (∃ (t : Nat) (a : Agent) (g : Fin 48) (j : Fin 2) (c : BitVec 16) (r : List (BitVec 16)) (s : State), Reads
      (pAna g) s ∧ (s.adc g j).fifo = c :: r) ∧
    (∃ (t : Nat) (a : Agent) (g : Fin 48) (j : Fin 2) (s : State), Reads (pAna g) s ∧ (s.adc g j).fifo = []) :=
  ⟨⟨0, .host, 0, 0, 1, sets [(reg (pAna 0) oStatus, 2), (areg 0 0x040, 1)] on, _, rfl, by decide +kernel⟩,
   ⟨0, 0, 0, 9, 7, sets [(reg (pAna 0) oStatus, 2)] (on.setAdc 0 0 { busy := some 7 }), _, rfl,
     by decide +kernel⟩,
   ⟨0, 0, 0, 9, 7, sets [(reg (pAna 0) oStatus, 2)]
     (on.setAdc 0 0 { busy := some 7, fifo := List.replicate 256 0 }), _, rfl, by set_option maxRecDepth 8000
     in decide⟩,
   ⟨0, 0, 0, on, by decide +kernel⟩,
   ⟨0, .host, 0, 0, 0x7, [8], on.setAdc 0 0 { fifo := [7, 8] }, by decide +kernel⟩,
   ⟨0, .host, 0, 0, on, by decide +kernel⟩⟩

theorem witness_AnalogSources :
    (∃ (t : Nat) (a : Agent) (g : Fin 48) (j : Fin 2) (v : Word) (s : State), Opens a (pAna g) s ∧ Prevails a
      (pAna g) (0x070 + 4 * j) (s.upTo t) ∧ (dacForces v = true → ¬(dacForces (s.rd (areg g (0x074 - 4 * j))) =
      true ∧ dacBus (s.rd (areg g (0x074 - 4 * j))) = dacBus v) ∧ ¬(pmuForces (s.rd (areg g 0x080)) = true ∧
      pmuBus (s.rd (areg g 0x080)) = dacBus v))) ∧
    (∃ (t : Nat) (a : Agent) (g : Fin 48) (j : Fin 2) (v : Word) (s : State), Opens a (pAna g) s ∧ Prevails a
      (pAna g) (0x070 + 4 * j) (s.upTo t) ∧ dacForces v = true ∧ (dacForces (s.rd (areg g (0x074 - 4 * j))) =
      true ∧ dacBus (s.rd (areg g (0x074 - 4 * j))) = dacBus v ∨ pmuForces (s.rd (areg g 0x080)) = true ∧
      pmuBus (s.rd (areg g 0x080)) = dacBus v)) ∧
    (∃ (t : Nat) (a : Agent) (g : Fin 48) (v : Word) (s : State), Opens a (pAna g) s ∧ Prevails a (pAna g)
      (0x080) (s.upTo t) ∧ fld v 2 1 ≠ 3 ∧ (bit v 0 = true ∨ s.rb (areg g 0x080) 0 = true → clampEmpty v
      (s.rd (areg g 0x088)) = false) ∧ (pmuForces v = true → ∀ j, j < 2 → dacForces
      (s.rd (areg g (0x070 + 4 * j))) = true → dacBus (s.rd (areg g (0x070 + 4 * j))) ≠ pmuBus v)) ∧
    (∃ (t : Nat) (a : Agent) (g : Fin 48) (v : Word) (s : State), Opens a (pAna g) s ∧ Prevails a (pAna g)
      (0x080) (s.upTo t) ∧ fld v 2 1 ≠ 3 ∧ (bit v 0 = true ∨ s.rb (areg g 0x080) 0 = true) ∧ clampEmpty v
      (s.rd (areg g 0x088)) = true) ∧
    (∃ (t : Nat) (a : Agent) (g : Fin 48) (v : Word) (s : State), Opens a (pAna g) s ∧ Prevails a (pAna g)
      (0x080) (s.upTo t) ∧ fld v 2 1 = 3) ∧
    (∃ (t : Nat) (a : Agent) (g : Fin 48) (v : Word) (s : State), Opens a (pAna g) s ∧ Prevails a (pAna g)
      (0x084) (s.upTo t) ∧ s.forceBad g (s.rd (areg g 0x080)) v = false) ∧
    (∃ (t : Nat) (a : Agent) (g : Fin 48) (v : Word) (s : State), Opens a (pAna g) s ∧ Prevails a (pAna g)
      (0x084) (s.upTo t) ∧ s.forceBad g (s.rd (areg g 0x080)) v = true) ∧
    (∃ (t : Nat) (a : Agent) (g : Fin 48) (v : Word) (s : State), Opens a (pAna g) s ∧ Prevails a (pAna g)
      (0x088) (s.upTo t) ∧ (s.rb (areg g 0x080) 0 = true → clampEmpty (s.rd (areg g 0x080)) v = false)) ∧
    (∃ (t : Nat) (a : Agent) (g : Fin 48) (v : Word) (s : State), Opens a (pAna g) s ∧ Prevails a (pAna g)
      (0x088) (s.upTo t) ∧ s.rb (areg g 0x080) 0 = true ∧ clampEmpty (s.rd (areg g 0x080)) v = true) ∧
    (∃ (t : Nat) (g : Fin 48) (s : State), s.rb (areg g 0x090) 0 = true ∧ s.rb (areg g 0x090) 1 = false ∧
      s.inSelftest (pAna g) = false) :=
  ⟨⟨0, .host, 0, 0, 0x80000000, on, by decide +kernel⟩,
   ⟨0, .host, 0, 0, 0x80000000, sets [(areg 0 0x074, 0x80000000)] on, by decide +kernel⟩,
   ⟨0, .host, 0, 5, on, by decide +kernel⟩,
   ⟨0, .host, 0, 3, sets [(areg 0 0x088, 0x00010005)] on, by decide +kernel⟩,
   ⟨0, .host, 0, 6, on, by decide +kernel⟩,
   ⟨0, .host, 0, 0x10, sets [(areg 0 0x080, 4)] on, by decide +kernel⟩,
   ⟨0, .host, 0, 0x8000, sets [(areg 0 0x080, 4)] on, by decide +kernel⟩,
   ⟨0, .host, 0, 0x00010000, on, by decide +kernel⟩,
   ⟨0, .host, 0, 0x00010002, sets [(areg 0 0x080, 5)] on, by decide +kernel⟩,
   ⟨0, 0, sets [(areg 0 0x090, 1)] on, by decide +kernel⟩⟩

theorem witness_OwnershipWrites :
    (∃ (t : Nat) (a : Agent) (i : Fin 3072) (v : Word) (m : Word) (s : State), Opens a (pGrp (i / 64)) s ∧
      Prevails a (pGrp (i / 64)) (0x600 + 4 * (i % 64)) (s.upTo t) ∧ s.pinOwnCheck a i v = none ∧ m =
      (if i.val % 2 = 1 then 0x00FFFFC0 else 0x00FFFF80)) ∧
    (∃ (t : Nat) (a : Agent) (i : Fin 3072) (v : Word) (r : Reason) (s : State), Opens a (pGrp (i / 64)) s ∧
      Prevails a (pGrp (i / 64)) (0x600 + 4 * (i % 64)) (s.upTo t) ∧ s.pinOwnCheck a i v = some r) ∧
    (∃ (t : Nat) (a : Agent) (g : Fin 48) (hi : Bool) (v : Word) (s : State), privileged a = true ∧ Opens a
      (pGrp g) s) ∧
    (∃ (t : Nat) (a : Agent) (g : Fin 48) (hi : Bool) (v : Word) (s : State), Opens a (pGrp g) s ∧ Prevails a
      (pGrp g) (0x710 + 4 * b2n hi) (s.upTo t)) ∧
    (∃ (t : Nat) (a : Agent) (g : Fin 48) (hi : Bool) (v : Word) (s : State), Opens a (pGrp g) s ∧ Prevails a
      (pGrp g) (0x718 + 4 * b2n hi) (s.upTo t)) :=
  ⟨⟨0, .host, 5, 0x0000FD40, 0x00FFFFC0, on, by decide +kernel⟩,
   ⟨0, .host, 5, 0x300, .range, on, by decide +kernel⟩,
   ⟨0, .host, 0, false, 5, on, by decide +kernel⟩,
   ⟨0, .host, 0, false, 5, on, by decide +kernel⟩,
   ⟨0, .host, 0, true, 5, on, by decide +kernel⟩⟩

theorem witness_FunctionSwitches :
    (∃ (t : Nat) (a : Agent) (g : Fin 48) (v : Word) (s : State) (z : State), z = s.upTo t ∧ Opens a (pGrp g) s
      ∧ bit v 23 = true ∧ bit v 22 = false ∧ s.swMask g ≠ [] ∧ ownerCodeOk (fld v 31 24) = true ∧ fld v 21 20 <
      2 ∧ s.swRefusal a (s.swMask g) = none ∧ (∀ i, i ∈ s.swMask g → z.swBeaten (swRank a) i = false)) ∧
    (∃ (t : Nat) (a : Agent) (g : Fin 48) (v : Word) (n : Nat) (r : Reason) (s : State), Opens a (pGrp g) s ∧
      bit v 23 = true ∧ bit v 22 = false ∧ s.swMask g ≠ [] ∧ ownerCodeOk (fld v 31 24) = true ∧ fld v 21 20 < 2
      ∧ s.swRefusal a (s.swMask g) = some (n, r)) ∧
    (∃ (t : Nat) (a : Agent) (g : Fin 48) (v : Word) (s : State) (z : State), z = s.upTo t ∧ Opens a (pGrp g) s
      ∧ bit v 22 = true ∧ bit v 23 = false ∧ s.swMask g ≠ [] ∧ ownerCodeOk (fld v 31 24) = true ∧ fld v 21 20 <
      2 ∧ s.swRefusal a (s.swMask g) = none ∧ (∀ i, i ∈ s.swMask g → z.swBeaten (swRank a) i = false)) ∧
    (∃ (t : Nat) (g : Fin 48) (i : Nat) (b : Nat) (c : Nat) (w : Switch) (s : State) (z : State), z = s.upTo t
      ∧ i / 64 = g.val ∧ (s.pin i).switch = some w ∧ w.bound = some b ∧ b ≤ z.now ∧ w.owner = some c ∧ c < 256
      ∧ s.isOn (pGrp g) = true) ∧
    (∃ (t : Nat) (i : Fin 3072) (b : Nat) (x : Bool × Bool) (s : State) (z : State), z = s.upTo t ∧
      (s.pin i).frozen = some (b, x) ∧ b + 2 * pinCycle ≤ z.now) ∧
    (∃ (t : Nat) (i : Fin 3072) (e : Nat) (s : State) (z : State), z = s.upTo t ∧ (s.pin i).brk = some e ∧ e ≤
      z.now ∧ (s.pin i).switch.all (fun w => w.bound.all (e < ·)) = true) ∧
    (∃ (t : Nat) (i : Fin 3072) (e : Nat) (b : Nat) (w : Switch) (s : State), (s.pin i).brk = some e ∧
      (s.pin i).switch = some w ∧ w.bound = some b ∧ b ≤ e) ∧
    (∃ (t : Nat) (i : Fin 3072) (e : Nat) (s : State) (z : State), z = s.upTo t ∧ (s.pin i).after = some e ∧ e
      ≤ z.now) ∧
    (∃ (t : Nat) (p : Fin 512) (s : State), s.isOn p = true ∧ s.quiet p = true ∧ s.quietNow p = false) :=
  ⟨⟨0, .host, 0, 0x10800000, sets [(greg 0 0x700, 0x21)] (sets [(reg (pGrp 0) oStatus, 2)] (on.setPin 5 {})),
     _, rfl, by decide +kernel⟩,
   ⟨0, .host, 0, 0x01800000, 5, .locked, sets [(greg 0 0x700, 0x20), (greg 0 0x720, 0x20)]
     (sets [(reg (pGrp 0) oStatus, 2)] (on.setPin 5 {})), by decide +kernel⟩,
   ⟨0, .host, 0, 0x00400000, sets [(greg 0 0x700, 0x21)]
     (sets [(reg (pGrp 0) oStatus, 2)] (on.setPin 5 { switch := some { owner := some 1, since := 0 } })), _,
     rfl, by decide +kernel⟩,
   ⟨0, 0, 5, 7, 1, { owner := some 1, bound := some 7, since := 0 }, sets [(reg (pGrp 0) oStatus, 2)]
     (on.setPin 5 { switch := some { owner := some 1, bound := some 7, since := 0 } }), _, rfl,
     by decide +kernel⟩,
   ⟨0, 5, 7, (true, false), sets [(reg (pGrp 0) oStatus, 2)]
     (on.setPin 5 { frozen := some (7, (true, false)) }), _, rfl, by decide +kernel⟩,
   ⟨0, 5, 7, sets [(reg (pGrp 0) oStatus, 2)] (on.setPin 5 { brk := some 7 }), _, rfl, by decide +kernel⟩,
   ⟨0, 5, 9, 7, { owner := some 1, bound := some 7, since := 0 }, sets [(reg (pGrp 0) oStatus, 2)]
     (on.setPin 5 { brk := some 9, switch := some { owner := some 1, bound := some 7, since := 0 } }),
     by decide +kernel⟩,
   ⟨0, 5, 7, sets [(reg (pGrp 0) oStatus, 2)] (on.setPin 5 { after := some 7 }), _, rfl, by decide +kernel⟩,
   ⟨0, 0x070, sets [(reg 0x070 oStatus, 2), (reg 0x070 0x04C, 0x80000000)] on, by decide +kernel⟩⟩

theorem witness_EventCounters :
    (∃ (t : Nat) (s : State) (w : State), w = (s.upTo t).rxAll) ∧
    (∃ (t : Nat) (a : Agent) (v : Word) (s : State), Opens a pCnt s ∧ assigned (fld v 15 0) = true) ∧
    (∃ (t : Nat) (a : Agent) (v : Word) (s : State), Opens a pCnt s ∧ assigned (fld v 15 0) = false) ∧
    (∃ (t : Nat) (a : Agent) (s : State) (w : State), w = (s.upTo t).rxAll ∧ Reads pCnt s ∧ assigned s.cntSel =
      true) ∧
    (∃ (t : Nat) (a : Agent) (s : State), Reads pCnt s ∧ assigned s.cntSel = true) ∧
    (∃ (t : Nat) (a : Agent) (v : Word) (s : State) (y : State), y = ((s.upTo t).answer .ok).counterSync ∧
      Opens a pCnt s ∧ assigned s.cntSel = true ∧ bit v 31 = true) ∧
    (∃ (t : Nat) (a : Agent) (v : Word) (s : State) (y : State), y = ((s.upTo t).answer .ok).countBy
      (max s.now t / seqCycle - 1) ∧ privileged a = true ∧ Opens a pCnt s ∧ assigned s.cntSel = true ∧ bit v 0
      = true) :=
  ⟨⟨1024000000,
     { on with ctr := { counts := [(0x210, 0xFFFFFFFFFFFF)], raisings := [(1000, 0x210), (2000, 0x210)] } }, _,
     rfl⟩,
   ⟨0, .host, 0xFFFF0200, on, by decide +kernel⟩,
   ⟨0, .host, 0x1EFF, on, by decide +kernel⟩,
   ⟨1024000000, .host,
     { sets [(creg 0x040, 0x200)] on with ctr := { counts := [(0x200, 0xFFFFFFFFFFFF)], raisings := [(1000, 0x200), (2000, 0x200)] } },
     _, rfl, by decide +kernel⟩,
   ⟨0, .host, { sets [(creg 0x040, 0x80000200)] on with ctr := { shadows := [(0, 77)] } }, by decide +kernel⟩,
   ⟨0, .host, 0x80000000,
     { sets [(creg 0x040, 0x200)] on with ctr := { ovf := [(0x200, true), (0x201, true)] } }, _, rfl,
     by decide +kernel⟩,
   ⟨0, .host, 1, sets [(creg 0x040, 0x200), (creg 0x04C, 5), (creg 0x050, 6)] on, _, rfl, by decide +kernel⟩⟩

theorem witness_CounterDumps :
    (∃ (t : Nat) (a : Agent) (c : Fin 4) (v : Word) (s : State) (z : State), z = s.upTo t ∧ Opens a pCnt s ∧
      s.rb (dumpReg c 0) 31 = false ∧ bit v 31 = true ∧ (s.wr (dumpReg c 0) (v &&& 0x780F0F3F)).dumpCheck c =
      none) ∧
    (∃ (t : Nat) (a : Agent) (c : Fin 4) (v : Word) (r : Reason) (s : State), Opens a pCnt s ∧ s.rb
      (dumpReg c 0) 31 = false ∧ bit v 31 = true ∧ (s.wr (dumpReg c 0) (v &&& 0x780F0F3F)).dumpCheck c = some
      r) ∧
    (∃ (t : Nat) (a : Agent) (c : Fin 4) (v : Word) (at_ : Nat) (s : State) (w : State), w =
      ((s.upTo t).answer .ok).rxAll ∧ at_ = nextAfter seqCycle w.now ∧ Opens a pCnt s ∧ bit v 0 = true ∧ s.rf
      (dumpReg c 0) 29 28 = 2 ∧ s.isOn pCnt = true ∧ s.rb (dumpReg c 0) 31 = true ∧ (s.dumpOf c).cap = none ∧
      s.dumpOverlap c (at_ / seqCycle) = false ∧ s.dumpFull c = false) ∧
    (∃ (t : Nat) (a : Agent) (c : Fin 4) (v : Word) (s : State), Opens a pCnt s ∧ bit v 0 = true ∧ s.rf
      (dumpReg c 0) 29 28 = 2 ∧ s.isOn pCnt = true ∧ s.rb (dumpReg c 0) 31 = true ∧ (s.dumpOf c).cap.isSome =
      true) ∧
    (∃ (t : Nat) (c : Fin 4) (at_ : Nat) (s : State) (z : State) (w : State), z = s.upTo t ∧ w = z.rxAll ∧ at_
      = atOrAfter seqCycle z.now ∧ s.rf (dumpReg c 0) 29 28 = 0 ∧ s.rb (dumpReg c 0) 31 = true ∧
      (s.dumpOf c).nextAt ≤ z.now ∧ s.isOn pCnt = true ∧ (s.dumpOf c).cap = none ∧ s.dumpOverlap c
      (at_ / seqCycle) = false ∧ s.dumpFull c = false) ∧
    (∃ (t : Nat) (c : Fin 4) (k : Capture) (s : State), (s.dumpOf c).cap = some k ∧
      (∀ e, e < 4 → e ≠ c.val → (s.dumpOf e).cap = none) ∧ s.busReady = true ∧ bit k.cfg 30 = true ∧
      s.inSelftest pCnt = false) ∧
    (∃ (t : Nat) (c : Fin 4) (k : Capture) (dp : Nat) (b : Nat) (s : State), (s.dumpOf c).cap = some k ∧
      (∀ e, e < 4 → e ≠ c.val → (s.dumpOf e).cap = none) ∧ bit k.cfg 30 = false ∧ dp = fld k.cfg 19 16 ∧
      s.deepHeld dp = false ∧ (∀ e, e ∈ s.deepLast → e.1 ≠ deepKey dp false) ∧ s.inSelftest pCnt = false ∧ b =
      k.base % 2 ^ 19 + k.dwr ∧ b % 8 = 0 ∧ (s.recordBytes c k).length = recLen k.range) ∧
    (∃ (t : Nat) (c : Fin 4) (k : Capture) (s : State), (s.dumpOf c).cap = some k ∧
      (∀ e, e < 4 → e ≠ c.val → (s.dumpOf e).cap = none) ∧ bit k.cfg 30 = false ∧ 8 * k.wrote < recLen k.range
      ∧ s.deepHeld (fld k.cfg 19 16) = true ∧ s.inSelftest pCnt = false) ∧
    (∃ (t : Nat) (c : Fin 4) (e : Nat) (s : State) (y : State), y = (s.upTo t).dumpSync ∧ e < c.val ∧
      (y.dumpOf e).cap.isSome = true) ∧
    (∃ (t : Nat) (a : Agent) (c : Fin 4) (v : Word) (s : State), Opens a pCnt s ∧ v.toNat % s.recBytes c = 0 ∧
      v.toNat < s.ringBytes c) ∧
    (∃ (t : Nat) (a : Agent) (c : Fin 4) (v : Word) (s : State), Opens a pCnt s ∧
      (v.toNat % s.recBytes c ≠ 0 ∨ s.ringBytes c ≤ v.toNat)) :=
  ⟨⟨0, .host, 1, 0x80000000,
     { sets [(reg pCnt oStatus, 2), (dumpReg 1 4, 0x02010200), (dumpReg 1 8, 9), (dumpReg 1 0x14, 2)] on with ctr := { dumps := [(1, { seq := 3 })] } },
     _, rfl, by decide +kernel⟩,
   ⟨0, .host, 1, 0xB0000000, .range,
     { sets [(reg pCnt oStatus, 2), (dumpReg 1 4, 0x02010200), (dumpReg 1 8, 9), (dumpReg 1 0x14, 2)] on with ctr := { dumps := [(1, { seq := 3 })] } },
     by decide +kernel⟩,
   ⟨0, .host, 1, 1, nextAfter seqCycle 1024000000,
     { sets [(reg pCnt oStatus, 2), (dumpReg 1 4, 0x02010200), (dumpReg 1 8, 9), (dumpReg 1 0x14, 2), (dumpReg 1 0, 0xA0000000)] on with ctr := { dumps := [(1, { seq := 3 })] } },
     _, rfl, by decide +kernel⟩,
   ⟨0, .host, 1, 1,
     { sets [(reg pCnt oStatus, 2), (dumpReg 1 4, 0x02010200), (dumpReg 1 8, 9), (dumpReg 1 0x14, 2), (dumpReg 1 0, 0xA0000000)] on with ctr := { dumps := [(1, { cap := some { time := 1000, ltime := none, late := false, trig := 2, skipped := 3, seq := 4, entries := [(0x200, false, true, 5), (0x201, true, true, 6)] } })] } },
     by decide +kernel⟩,
   ⟨0, 1, atOrAfter seqCycle 1024000000,
     { sets [(reg pCnt oStatus, 2), (dumpReg 1 4, 0x02010200), (dumpReg 1 8, 9), (dumpReg 1 0x14, 2), (dumpReg 1 0, 0x80000000)] on with ctr := { dumps := [(1, { nextAt := 5 })] } },
     _, _, rfl, rfl, by decide +kernel⟩,
   ⟨0, 1,
     { time := 1000, ltime := none, late := false, trig := 2, skipped := 3, seq := 4, entries := [(0x200, false, true, 5), (0x201, true, true, 6)] , cfg := 0xE0000000, range := 0x02010200, base := 0x40, ring := 128, dwr := 0 },
     { sets [(reg pCnt oStatus, 2), (dumpReg 1 4, 0x02010200), (dumpReg 1 8, 9), (dumpReg 1 0x14, 2), (dumpReg 1 0, 0xE0000000)] { on with ep := { busMaster := true } } with ctr := { dumps := [(1, { cap := some { time := 1000, ltime := none, late := false, trig := 2, skipped := 3, seq := 4, entries := [(0x200, false, true, 5), (0x201, true, true, 6)] , cfg := 0xE0000000, range := 0x02010200, base := 0x40, ring := 128, dwr := 0 } })] } },
     by decide +kernel⟩,
   ⟨0, 1,
     { time := 1000, ltime := none, late := false, trig := 2, skipped := 3, seq := 4, entries := [(0x200, false, true, 5), (0x201, true, true, 6)] , cfg := 0xA0000000, range := 0x02010200, base := 0x40, ring := 128, dwr := 0 },
     0, 0x40,
     { sets [(reg pCnt oStatus, 2), (dumpReg 1 4, 0x02010200), (dumpReg 1 8, 9), (dumpReg 1 0x14, 2), (dumpReg 1 0, 0xA0000000)] on with ctr := { dumps := [(1, { cap := some { time := 1000, ltime := none, late := false, trig := 2, skipped := 3, seq := 4, entries := [(0x200, false, true, 5), (0x201, true, true, 6)] , cfg := 0xA0000000, range := 0x02010200, base := 0x40, ring := 128, dwr := 0 } })] } },
     by decide +kernel⟩,
   ⟨0, 1,
     { time := 1000, ltime := none, late := false, trig := 2, skipped := 3, seq := 4, entries := [(0x200, false, true, 5), (0x201, true, true, 6)] , cfg := 0xA0000000, range := 0x02010200, base := 0x40, ring := 128, dwr := 0 },
     ({ sets [(reg pCnt oStatus, 2), (dumpReg 1 4, 0x02010200), (dumpReg 1 8, 9), (dumpReg 1 0x14, 2)] on with ctr := { dumps := [(1, { cap := some { time := 1000, ltime := none, late := false, trig := 2, skipped := 3, seq := 4, entries := [(0x200, false, true, 5), (0x201, true, true, 6)] , cfg := 0xA0000000, range := 0x02010200, base := 0x40, ring := 128, dwr := 0 } })] } }).setUnitState
     (pReg (deepHost 0)) 4, by decide +kernel⟩,
   ⟨0, 1, 0,
     { sets [(reg pCnt oStatus, 2)] on with ctr := { dumps := [(0, { cap := some { time := 1000, ltime := none, late := false, trig := 2, skipped := 3, seq := 4, entries := [(0x200, false, true, 5), (0x201, true, true, 6)] , cfg := 0xE0000000, range := 0x02010200, base := 0x40, ring := 128, dwr := 0 } }), (1, { cap := some { time := 1000, ltime := none, late := false, trig := 2, skipped := 3, seq := 4, entries := [(0x200, false, true, 5), (0x201, true, true, 6)] , cfg := 0xA0000000, range := 0x02010200, base := 0x40, ring := 128, dwr := 0 } })], dumpAt := 1024000000 } },
     _, rfl, by decide +kernel⟩,
   ⟨0, .host, 1, 64,
     { sets [(reg pCnt oStatus, 2), (dumpReg 1 4, 0x02010200), (dumpReg 1 8, 9), (dumpReg 1 0x14, 2)] on with ctr := { dumps := [(1, {})] } },
     by decide +kernel⟩,
   ⟨0, .host, 1, 128,
     { sets [(reg pCnt oStatus, 2), (dumpReg 1 4, 0x02010200), (dumpReg 1 8, 9), (dumpReg 1 0x14, 2)] on with ctr := { dumps := [(1, {})] } },
     by decide +kernel⟩⟩

theorem witness_SamplingPresets :
    (∃ (t : Nat) (a : Agent) (k : Fin 16) (v : Word) (s : State), Opens a pCnt s ∧ s.rb (sampReg k 0) 31 =
      false ∧ bit v 31 = true ∧ assigned (fld v 15 0) = true ∧ s.rd (sampReg k 4) ≠ 0 ∧ s.isOn pCnt = true) ∧
    (∃ (t : Nat) (a : Agent) (k : Fin 16) (v : Word) (s : State), Opens a pCnt s ∧ s.rb (sampReg k 0) 31 =
      false ∧ bit v 31 = true ∧ (assigned (fld v 15 0) = false ∨ s.rd (sampReg k 4) = 0)) ∧
    (∃ (t : Nat) (k : Fin 16) (h : Nat) (x : Preset) (s : State) (y : State), y = (s.upTo t).countBy
      (max s.now t / seqCycle - 1) ∧ x = tabGet {} y.ctr.presets k ∧ s.rb (sampReg k 0) 31 = true ∧ x.hitAt =
      some h ∧ h ≤ y.now ∧ x.rem ≤ 0 ∧ s.rd (sampReg k 4) ≠ 0 ∧ s.inSelftest pCnt = false) :=
  ⟨⟨0, .host, 2, 0x80000200, sets [(reg pCnt oStatus, 2), (sampReg 2 4, 5)] on, by decide +kernel⟩,
   ⟨0, .host, 2, 0x80000200, on, by decide +kernel⟩,
   ⟨0, 2, 7, { rem := -7, hitAt := some 7 },
     { sets [(sampReg 2 0, 0x80000500), (sampReg 2 4, 5)] on with ctr := { presets := [(2, { rem := -7, hitAt := some 7 })] } },
     _, rfl, by decide +kernel⟩⟩

theorem witness_SequencerComputation :
    (∃ (t : Nat) (q : Fin 48) (w : Nat) (s : State) (z : State), z = s.upTo t ∧ Executes q 0x18 w z) ∧
    (∃ (t : Nat) (q : Fin 48) (w : Nat) (r : Word) (s : State) (z : State), z = s.upTo t ∧ Executes q 0x19 w z
      ∧ r = (fun (a x : Word) => a + x) (s.gpr q (iA w)) (s.aluX q w)) ∧
    (∃ (t : Nat) (q : Fin 48) (w : Nat) (r : Word) (s : State) (z : State), z = s.upTo t ∧ Executes q 0x1A w z
      ∧ r = (fun (a x : Word) => a - x) (s.gpr q (iA w)) (s.aluX q w)) ∧
    (∃ (t : Nat) (q : Fin 48) (w : Nat) (r : Word) (s : State) (z : State), z = s.upTo t ∧ Executes q 0x1B w z
      ∧ r = (fun (a x : Word) => a &&& x) (s.gpr q (iA w)) (s.aluX q w)) ∧
    (∃ (t : Nat) (q : Fin 48) (w : Nat) (r : Word) (s : State) (z : State), z = s.upTo t ∧ Executes q 0x1C w z
      ∧ r = (fun (a x : Word) => a ||| x) (s.gpr q (iA w)) (s.aluX q w)) ∧
    (∃ (t : Nat) (q : Fin 48) (w : Nat) (r : Word) (s : State) (z : State), z = s.upTo t ∧ Executes q 0x1D w z
      ∧ r = (fun (a x : Word) => a ^^^ x) (s.gpr q (iA w)) (s.aluX q w)) ∧
    (∃ (t : Nat) (q : Fin 48) (w : Nat) (r : Word) (s : State) (z : State), z = s.upTo t ∧ Executes q 0x1E w z
      ∧ r = (fun (a x : Word) => a <<< (x.toNat % 32)) (s.gpr q (iA w)) (s.aluX q w)) ∧
    (∃ (t : Nat) (q : Fin 48) (w : Nat) (r : Word) (s : State) (z : State), z = s.upTo t ∧ Executes q 0x1F w z
      ∧ r = (fun (a x : Word) => a >>> (x.toNat % 32)) (s.gpr q (iA w)) (s.aluX q w)) ∧
    (∃ (e : (Nat → Fin 48 → Instr) × Nat) (t : Nat) (q : Fin 48) (w : Nat) (d : Bool) (s : State) (z : State),
      z = s.upTo t ∧ True ∧ z.canExec q = true ∧ (s.sq q).armed = none ∧ (s.sq q).step = false ∧
      (s.sq q).spanFault = false ∧ z.fetch q = .word w d ∧ iOp w = e.2 ∧ z.condition q (iCond w) = .no) ∧
    (∃ (e : (Nat → Fin 48 → Instr) × Nat) (t : Nat) (q : Fin 48) (w : Nat) (d : Bool) (s : State) (z : State),
      z = s.upTo t ∧ True ∧ z.canExec q = true ∧ (s.sq q).armed = none ∧ z.fetch q = .word w d ∧ iOp w = e.2 ∧
      z.condition q (iCond w) = .wait) ∧
    (∃ (t : Nat) (q : Fin 48) (w : Nat) (s : State) (z : State) (e : (Nat → Fin 48 → Instr) × Nat), z = s.upTo
      t ∧ z.canExec q = true ∧ (s.sq q).armed = none ∧ (s.sq q).step = false ∧ (s.sq q).spanFault = false ∧
      z.fetch q = .word w true ∧ True ∧ True ∧ True ∧ True) ∧
    (∃ (t : Nat) (q : Fin 48) (w : Nat) (d : Bool) (s : State) (z : State), z = s.upTo t ∧ z.canExec q = true ∧
      (s.sq q).armed = none ∧ (s.sq q).step = true ∧ (s.sq q).spanFault = false ∧ z.fetch q = .word w d ∧ iOp w
      = 0x01 ∧ z.condition q (iCond w) = .yes) ∧
    (∃ (t : Nat) (q : Fin 48) (w : Nat) (d : Bool) (s : State) (z : State), z = s.upTo t ∧ z.canExec q = true ∧
      (s.sq q).armed = none ∧ z.fetch q = .word w d ∧ (opKnown (iOp w) = false ∨ z.condition q (iCond w) = .bad
      ∨ iOp w = 0x29 ∧ bits w 1 0 = 3 ∧ z.condition q (iCond w) = .yes)) ∧
    (∃ (t : Nat) (q : Fin 48) (s : State) (z : State), z = s.upTo t ∧ z.canExec q = true ∧ (s.sq q).armed =
      none ∧ z.fetch q = .fault) ∧
    (∃ (t : Nat) (q : Fin 48) (w : Nat) (s : State) (z : State), z = s.upTo t ∧ Executes q 0x00 w z) ∧
    (∃ (t : Nat) (q : Fin 48) (s : State), (s.sq q).busy = .halt ∧ (s.sq q).fifo = [] ∧ (s.sq q).spanFault =
      false ∧ s.inSelftest (pSeq q) = false) :=
  ⟨⟨0, 3, 0x60090000ffffffff, seqOn 0x60090000ffffffff {}, _, rfl, by decide +kernel⟩,
   ⟨0, 3, 0x6409000100000000, 0x80000022, sets
     [(qreg 3 (0x100 + 4 * 2), 0x80000001), (qreg 3 (0x100 + 4 * 4), 33)] (seqOn 0x6409000100000000 {}), _,
     rfl, by decide +kernel⟩,
   ⟨0, 3, 0x6809000100000000, 0x7FFFFFE0, sets
     [(qreg 3 (0x100 + 4 * 2), 0x80000001), (qreg 3 (0x100 + 4 * 4), 33)] (seqOn 0x6809000100000000 {}), _,
     rfl, by decide +kernel⟩,
   ⟨0, 3, 0x6c09000100000000, 1, sets [(qreg 3 (0x100 + 4 * 2), 0x80000001), (qreg 3 (0x100 + 4 * 4), 33)]
     (seqOn 0x6c09000100000000 {}), _, rfl, by decide +kernel⟩,
   ⟨0, 3, 0x7009000100000000, 0x80000021, sets
     [(qreg 3 (0x100 + 4 * 2), 0x80000001), (qreg 3 (0x100 + 4 * 4), 33)] (seqOn 0x7009000100000000 {}), _,
     rfl, by decide +kernel⟩,
   ⟨0, 3, 0x7409000100000000, 0x80000020, sets
     [(qreg 3 (0x100 + 4 * 2), 0x80000001), (qreg 3 (0x100 + 4 * 4), 33)] (seqOn 0x7409000100000000 {}), _,
     rfl, by decide +kernel⟩,
   ⟨0, 3, 0x7809000100000000, 2, sets [(qreg 3 (0x100 + 4 * 2), 0x80000001), (qreg 3 (0x100 + 4 * 4), 33)]
     (seqOn 0x7809000100000000 {}), _, rfl, by decide +kernel⟩,
   ⟨0, 3, 0x7c09000100000000, 0x40000000, sets
     [(qreg 3 (0x100 + 4 * 2), 0x80000001), (qreg 3 (0x100 + 4 * 4), 33)] (seqOn 0x7c09000100000000 {}), _,
     rfl, by decide +kernel⟩,
   ⟨(.nop, 1), 0, 3, 0x4c9000000000000, false, seqOn 0x4c9000000000000 {}, _, rfl, by decide +kernel⟩,
   ⟨(.nop, 1), 0, 3, 0x449000000000000, false, seqOn 0x449000000000000
     { fifo := [{ addr := 0, left := 1, rep := false, tset := 0, caddr := 0 }] }, _, rfl, by decide +kernel⟩,
   ⟨0, 3, (seqOn 0 { torn := [(5, true)] }).freeNat % 2 ^ 64, seqOn 0 { torn := [(5, true)] }, _, (.halt, 0),
     rfl, by decide +kernel, by decide +kernel, by decide +kernel, by decide +kernel, rfl, trivial, trivial,
     trivial, trivial⟩,
   ⟨0, 3, 0x409000000000000, false, seqOn 0x409000000000000 { step := true }, _, rfl, by decide +kernel⟩,
   ⟨0, 3, 0xfc09000000000000, false, seqOn 0xfc09000000000000 {}, _, rfl, by decide +kernel⟩,
   ⟨0, 3, sets [(qreg 3 0x060, 0x2000)] (seqOn 0 {}), _, rfl, by decide +kernel⟩,
   ⟨0, 3, 0x900000000ffff, seqOn 0x900000000ffff {}, _, rfl, by decide +kernel⟩,
   ⟨0, 3, seqOn 0 { busy := .halt, issuing := true }, by decide +kernel⟩⟩

theorem witness_SequencerVectors :
    (∃ (t : Nat) (q : Fin 48) (w : Nat) (s : State) (z : State), z = s.upTo t ∧ Executes q 0x02 w z ∧
      (s.sq q).fifo.length < 32) ∧
    (∃ (t : Nat) (q : Fin 48) (w : Nat) (s : State) (z : State), z = s.upTo t ∧ Executes q 0x03 w z ∧
      (s.sq q).fifo.length < 32) ∧
    (∃ (t : Nat) (q : Fin 48) (w : Nat) (s : State) (z : State), z = s.upTo t ∧ Executes q 0x02 w z ∧ 32 ≤
      (s.sq q).fifo.length) ∧
    (∃ (t : Nat) (q : Fin 48) (w : Nat) (n : Nat) (s : State) (z : State), z = s.upTo t ∧ Executes q 0x05 w z ∧
      (s.sq q).fifo.length < 32 ∧ n = (if bits w 35 16 = 0 then 2 ^ 20 else bits w 35 16)) ∧
    (∃ (t : Nat) (q : Fin 48) (w : Nat) (s : State) (z : State), z = s.upTo t ∧ Executes q 0x28 w z) ∧
    (∃ (t : Nat) (q : Fin 48) (c : VCmd) (r : List VCmd) (n : Nat) (st : Nat) (late : Bool) (b : Option Int)
      (v : Vec) (s : State) (z : State), z = s.upTo t ∧ (s.sq q).armed = none ∧ s.isOn (pSeq q) = true ∧
      (s.sq q).issuing = true ∧ (s.sq q).regrid = none ∧ (∀ g, g ∈ s.spanGroups q → (s.grp g).stalled = false ∧
      s.inSelftest (pGrp g) = false) ∧ z.issuePoint q = some (n, late, b) ∧ (s.sq q).fifo = c :: r ∧ c.mat =
      false ∧ st = (match (s.sq q).lastS with | none => n | some l => max n (l + seqCycle)) ∧ v =
      { start := st, bpos := b, exact := !(late || decide (n < st)), dom := s.qdom q, tset := c.tset, vid := (s.sq q).vid }) ∧
    (∃ (t : Nat) (q : Fin 48) (n : Nat) (late : Bool) (b : Option Int) (s : State) (z : State), z = s.upTo t ∧
      (s.sq q).armed = none ∧ s.isOn (pSeq q) = true ∧ (s.sq q).issuing = true ∧ (∀ g, g ∈ s.spanGroups q →
      (s.grp g).stalled = false ∧ s.inSelftest (pGrp g) = false) ∧ z.issuePoint q = some (n, late, b) ∧
      (s.sq q).fifo = [] ∧ s.runOf q = 2 ∧ (s.sq q).busy = .idle) :=
  ⟨⟨0, 3, 0x809000000004007, sets [(qreg 3 (0x100 + 4 * 2), 0x3FFF)] (seqOn 0x809000000004007 {}), _, rfl,
     by decide +kernel⟩,
   ⟨0, 3, 0xc09000000024007, seqOn 0xc09000000024007 { capt := 3, tset := 5 }, _, rfl, by decide +kernel⟩,
   ⟨0, 3, 0x809000000000007, seqOn 0x809000000000007
     { fifo := List.replicate 32 { addr := 7, left := 2, rep := false, tset := 1, caddr := 4 } }, _, rfl,
     by decide +kernel⟩,
   ⟨0, 3, 0x1409000000000007, 0x100000, seqOn 0x1409000000000007 {}, _, rfl, by decide +kernel⟩,
   ⟨0, 3, 0xa009000000000041, seqOn 0xa009000000000041 { capt := 2 }, _, rfl, by decide +kernel⟩,
   ⟨0, 3, { addr := 7, left := 2, rep := false, tset := 1, caddr := 4 }, [], 1023005120, 1023005120, false,
     none, { start := 1023005120, bpos := none, exact := true, dom := 0, tset := 1, vid := 9 }, sets
     [(ownReg 200, 0x13000000), (reg (pGrp 3) oStatus, 2)]
     (seqOn 0 { fifo := [{ addr := 7, left := 2, rep := false, tset := 1, caddr := 4 }], issuing := true, vid := 9, k := 2, t0 := 1023000000 }),
     _, rfl, by decide +kernel⟩,
   ⟨0, 3, 1024000000, false, none, seqOn 0 { issuing := true, t0 := 1024000000 }, _, rfl, by decide +kernel⟩⟩

theorem witness_SequencerWaits :
    (∃ (t : Nat) (q : Fin 48) (w : Nat) (n : Nat) (s : State) (z : State), z = s.upTo t ∧ Executes q 0x11 w z ∧
      n = (if nbit w 32 then (s.gpr q (iB w)).toNat else bits w 31 0) ∧ n ≠ 0) ∧
    (∃ (t : Nat) (q : Fin 48) (w : Nat) (s : State) (z : State), z = s.upTo t ∧ Executes q 0x11 w z ∧
      (if nbit w 32 then (s.gpr q (iB w)).toNat else bits w 31 0) = 0) ∧
    (∃ (t : Nat) (q : Fin 48) (since : Nat) (n : Nat) (s : State) (z : State), z = s.upTo t ∧ Waits q
      (.waitT since n) s ∧ since + n * seqCycle ≤ z.now) ∧
    (∃ (t : Nat) (q : Fin 48) (since : Nat) (n : Nat) (s : State) (z : State), z = s.upTo t ∧ Waits q
      (.waitT since n) s ∧ z.now < since + n * seqCycle) ∧
    (∃ (t : Nat) (q : Fin 48) (w : Nat) (s : State) (z : State), z = s.upTo t ∧ Executes q 0x10 w z ∧ nbit w 11
      = false ∧ z.waitpEvent z.now (bits w 3 0) (bits w 9 4) none = none) ∧
    (∃ (t : Nat) (q : Fin 48) (since : Nat) (d : Nat) (m : Nat) (due : Nat) (rs : Bool) (late : Bool)
      (tmo : Option Nat) (s : State) (z : State), z = s.upTo t ∧ Waits q (.waitP since d m rs tmo) s ∧
      z.waitpEvent since d m tmo = some (due, late)) ∧
    (∃ (e : (Nat → Fin 48 → Instr) × Nat) (t : Nat) (q : Fin 48) (w : Nat) (s : State) (z : State), z = s.upTo
      t ∧ True ∧ Executes q 0x12 w z ∧ bits w 1 0 = e.2 ∧ nbit w 12 = false ∧ z.waiteEvent q z.now e.2
      (bits w 7 2) (bits w 11 8) none = false) ∧
    (∃ (e : (Nat → Fin 48 → Instr) × Nat) (t : Nat) (q : Fin 48) (w : Nat) (s : State) (z : State), z = s.upTo
      t ∧ True ∧ Executes q 0x12 w z ∧ bits w 1 0 = e.2 ∧ nbit w 12 = false ∧ z.waiteEvent q z.now e.2
      (bits w 7 2) (bits w 11 8) none = true) ∧
    (∃ (e : (Nat → Fin 48 → Instr) × Nat) (t : Nat) (q : Fin 48) (since : Nat) (p : Nat) (l : Nat)
      (tmo : Option Nat) (s : State) (z : State), z = s.upTo t ∧ True ∧ Waits q (.waitE since e.2 p l tmo) s ∧
      z.waiteEvent q since e.2 p l tmo = true) ∧
    (∃ (t : Nat) (q : Fin 48) (since : Nat) (k : Nat) (p : Nat) (l : Nat) (n : Nat) (s : State) (z : State), z
      = s.upTo t ∧ Waits q (.waitE since k p l (some n)) s ∧ since + n * seqCycle ≤ z.now ∧ z.waiteEvent q
      since k p l (some n) = false ∧ s.inSelftest (pSeq q) = false) ∧
    (∃ (t : Nat) (q : Fin 48) (since : Nat) (d : Nat) (m : Nat) (n : Nat) (rs : Bool) (s : State) (z : State),
      z = s.upTo t ∧ Waits q (.waitP since d m rs (some n)) s ∧ since + n * seqCycle ≤ z.now ∧ z.waitpEvent
      since d m (some n) = none ∧ s.inSelftest (pSeq q) = false) :=
  ⟨⟨0, 3, 0x4409000100000000, 9, sets [(qreg 3 (0x100 + 4 * 4), 9)] (seqOn 0x4409000100000000 {}), _, rfl,
     by decide +kernel⟩,
   ⟨0, 3, 0x4409000100000000, seqOn 0x4409000100000000 {}, _, rfl, by decide +kernel⟩,
   ⟨0, 3, 1023990000, 1, sets [(qreg 3 0x05C, 3)] (seqOn 0 { busy := .waitT 1023990000 1 }), _, rfl,
     by decide +kernel⟩,
   ⟨0, 3, 1024000000, 1, sets [(qreg 3 0x05C, 3)] (seqOn 0 { busy := .waitT 1024000000 1 }), _, rfl,
     by decide +kernel⟩,
   ⟨0, 3, 0x4009000000000412, seqOn 0x4009000000000412 {}, _, rfl, by decide +kernel⟩,
   ⟨0, 3, 1023000000, 2, 3, 1023500000, true, true, none,
     (sets [(qreg 3 0x05C, 3)] (seqOn 0 { busy := .waitP 1023000000 2 3 true none })).setDom 2
     { fired := [(3, [(1023500000, true)])] }, _, rfl, by decide +kernel⟩,
   ⟨(.waiteSeq, 2), 0, 3, 0x4809000000000116, seqOn 0x4809000000000116 {}, _, rfl, by decide +kernel⟩,
   ⟨(.waiteFlag, 3), 0, 3, 0x4809000000000203, sets [(qreg 3 0x064, 4)] (seqOn 0x4809000000000203 {}), _, rfl,
     by decide +kernel⟩,
   ⟨(.waiteDoorbell, 0), 0, 3, 1023000000, 0, 0, none, sets [(qreg 3 0x05C, 0x10003)]
     (seqOn 0 { busy := .waitE 1023000000 0 0 0 none }), _, rfl, by decide +kernel⟩,
   ⟨0, 3, 1023000000, 0, 0, 0, 5, sets [(qreg 3 0x05C, 3)]
     (seqOn 0 { busy := .waitE 1023000000 0 0 0 (some 5) }), _, rfl, by decide +kernel⟩,
   ⟨0, 3, 1023000000, 2, 3, 5, false, sets [(qreg 3 0x05C, 3)]
     (seqOn 0 { busy := .waitP 1023000000 2 3 false (some 5) }), _, rfl, by decide +kernel⟩⟩

theorem witness_SequencerLoadsAndStores :
    (∃ (t : Nat) (q : Fin 48) (w : Nat) (ea : Nat) (s : State) (z : State), z = s.upTo t ∧ Executes q 0x20 w z
      ∧ ea = s.effAddr q w ∧ bits w 26 24 = 0 ∧ s.addrBad q 0 ea = false) ∧
    (∃ (t : Nat) (q : Fin 48) (w : Nat) (ea : Nat) (s : State) (z : State), z = s.upTo t ∧ Executes q 0x20 w z
      ∧ ea = s.effAddr q w ∧ bits w 26 24 = 1 ∧ s.addrBad q 1 ea = false ∧ s.deepHeld (ea / 2 ^ 19) = false ∧
      z.deepClash (ea / 2 ^ 19) (ea % 2 ^ 19 / 8) true false = none ∧ s.deepUndef (ea / 2 ^ 19)
      (ea % 2 ^ 19 / 8) = false) ∧
    (∃ (t : Nat) (q : Fin 48) (w : Nat) (ea : Nat) (s : State) (z : State), z = s.upTo t ∧ Executes q 0x20 w z
      ∧ ea = s.effAddr q w ∧ bits w 26 24 = 2 ∧ s.addrBad q 2 ea = false ∧ s.reachesRead (.seq q) (ea / 4096) =
      false) ∧
    (∃ (t : Nat) (q : Fin 48) (w : Nat) (ea : Nat) (s : State) (z : State), z = s.upTo t ∧ Executes q 0x21 w z
      ∧ ea = s.effAddr q w ∧ bits w 26 24 = 0 ∧ s.addrBad q 0 ea = false) ∧
    (∃ (t : Nat) (q : Fin 48) (w : Nat) (ea : Nat) (s : State) (z : State), z = s.upTo t ∧ Executes q 0x21 w z
      ∧ ea = s.effAddr q w ∧ bits w 26 24 = 1 ∧ s.addrBad q 1 ea = false ∧ s.deepHeld (ea / 2 ^ 19) = false ∧
      z.deepClash (ea / 2 ^ 19) (ea % 2 ^ 19 / 8) true true = none) ∧
    (∃ (t : Nat) (q : Fin 48) (w : Nat) (ea : Nat) (s : State) (z : State), z = s.upTo t ∧ Executes q 0x21 w z
      ∧ ea = s.effAddr q w ∧ (bits w 26 24 = 2 ∧ (ea / 4096 = pSeq q ∨ ea % 4096 < 0x40 ∨ s.reachesWrite
      (.seq q) (ea / 4096) = false) ∨ bits w 26 24 = 3) ∧ s.addrBad q (bits w 26 24) ea = false) ∧
    (∃ (e : (Nat → Fin 48 → Instr) × Nat) (t : Nat) (q : Fin 48) (w : Nat) (s : State) (z : State), z = s.upTo
      t ∧ True ∧ Executes q e.2 w z ∧ s.addrBad q (bits w 26 24) (s.effAddr q w) = true) :=
  ⟨⟨0, 3, 0x8009000000000004, 20, sets [(qreg 3 (0x100 + 4 * 4), 16)] (seqOn 0x8009000000000004 {}), _, rfl,
     by decide +kernel⟩,
   ⟨0, 3, 0x8009000001100000, 0x100000, seqOn 0x8009000001100000 {}, _, rfl, by decide +kernel⟩,
   ⟨0, 3, 0x80090000021f0000, 0x1F0000, seqOn 0x80090000021f0000 {}, _, rfl, by decide +kernel⟩,
   ⟨0, 3, 0x8409000000000004, 20, sets [(qreg 3 (0x100 + 4 * 4), 16), (qreg 3 (0x100 + 4 * 2), 0x12345678)]
     (seqOn 0x8409000000000004 {}), _, rfl, by decide +kernel⟩,
   ⟨0, 3, 0x840900000110000c, 0x10000C, sets [(qreg 3 (0x100 + 4 * 2), 0x12345678)]
     (seqOn 0x840900000110000c {}), _, rfl, by decide +kernel⟩,
   ⟨0, 3, 0x8409000002000030, 0x30, seqOn 0x8409000002000030 {}, _, rfl, by decide +kernel⟩,
   ⟨(.ld, 0x20), 0, 3, 0x8009000004000100, seqOn 0x8009000004000100 {}, _, rfl, by decide +kernel⟩⟩

theorem witness_SequencerTransfersAndSignals :
    (∃ (t : Nat) (q : Fin 48) (w : Nat) (s : State) (z : State), z = s.upTo t ∧ Executes q 0x01 w z) ∧
    (∃ (t : Nat) (q : Fin 48) (w : Nat) (s : State) (z : State), z = s.upTo t ∧ Executes q 0x04 w z) ∧
    (∃ (t : Nat) (q : Fin 48) (w : Nat) (s : State) (z : State), z = s.upTo t ∧ Executes q 0x08 w z) ∧
    (∃ (t : Nat) (q : Fin 48) (w : Nat) (n : Nat) (s : State) (z : State), z = s.upTo t ∧ Executes q 0x09 w z ∧
      n = (s.rf (lcReg q (bits w 1 0)) 23 0 + (2 ^ 24 - 1)) % 2 ^ 24) ∧
    (∃ (t : Nat) (q : Fin 48) (w : Nat) (s : State) (z : State), z = s.upTo t ∧ Executes q 0x0A w z) ∧
    (∃ (t : Nat) (q : Fin 48) (w : Nat) (s : State) (z : State), z = s.upTo t ∧ Executes q 0x0B w z) ∧
    (∃ (t : Nat) (q : Fin 48) (w : Nat) (s : State) (z : State), z = s.upTo t ∧ Executes q 0x0C w z ∧ s.spOf q
      < 8) ∧
    (∃ (t : Nat) (q : Fin 48) (w : Nat) (s : State) (z : State), z = s.upTo t ∧ Executes q 0x0C w z ∧ 8 ≤
      s.spOf q) ∧
    (∃ (t : Nat) (q : Fin 48) (w : Nat) (s : State) (z : State), z = s.upTo t ∧ Executes q 0x0D w z ∧ 0 <
      s.spOf q) ∧
    (∃ (t : Nat) (q : Fin 48) (w : Nat) (s : State) (z : State), z = s.upTo t ∧ Executes q 0x0D w z ∧ s.spOf q
      = 0) ∧
    (∃ (t : Nat) (q : Fin 48) (w : Nat) (s : State) (z : State), z = s.upTo t ∧ Executes q 0x29 w z ∧ bits w 1
      0 = 0) ∧
    (∃ (t : Nat) (q : Fin 48) (w : Nat) (s : State) (z : State), z = s.upTo t ∧ Executes q 0x29 w z ∧ bits w 1
      0 = 1 ∧ s.judged q = true) ∧
    (∃ (t : Nat) (q : Fin 48) (w : Nat) (s : State) (z : State), z = s.upTo t ∧ Executes q 0x29 w z ∧ bits w 1
      0 = 2 ∧ s.judged q = true) ∧
    (∃ (e : (Nat → Fin 48 → Instr) × Nat) (t : Nat) (q : Fin 48) (w : Nat) (s : State) (z : State), z = s.upTo
      t ∧ True ∧ Executes q 0x29 w z ∧ bits w 1 0 = e.2 ∧ s.judged q = false) ∧
    (∃ (t : Nat) (q : Fin 48) (w : Nat) (s : State) (z : State), z = s.upTo t ∧ Executes q 0x2A w z) ∧
    (∃ (t : Nat) (q : Fin 48) (w : Nat) (s : State) (z : State), z = s.upTo t ∧ Executes q 0x2B w z) :=
  ⟨⟨0, 3, 0x409000000000000, seqOn 0x409000000000000 {}, _, rfl, by decide +kernel⟩,
   ⟨0, 3, 0x100900000000001f, seqOn 0x100900000000001f {}, _, rfl, by decide +kernel⟩,
   ⟨0, 3, 0x2009000006000009, sets [(qreg 3 (0x100 + 4 * 4), 0x1000005)] (seqOn 0x2009000006000009 {}), _, rfl,
     by decide +kernel⟩,
   ⟨0, 3, 0x2409000000000001, 0xFFFFFF, seqOn 0x2409000000000001 {}, _, rfl, by decide +kernel⟩,
   ⟨0, 3, 0x2809000000080010, seqOn 0x2809000000080010 {}, _, rfl, by decide +kernel⟩,
   ⟨0, 3, 0x2c090000000fffff, sets [(qreg 3 (0x100 + 4 * 2), 2)] (seqOn 0x2c090000000fffff {}), _, rfl,
     by decide +kernel⟩,
   ⟨0, 3, 0x300900000000007f, sets [(qreg 3 0x180, 7)] (seqOn 0x300900000000007f {}), _, rfl,
     by decide +kernel⟩,
   ⟨0, 3, 0x300900000000007f, sets [(qreg 3 0x180, 8)] (seqOn 0x300900000000007f {}), _, rfl,
     by decide +kernel⟩,
   ⟨0, 3, 0x3409000000000000, sets [(qreg 3 0x180, 8), (stackReg 3 7, 0x44)] (seqOn 0x3409000000000000 {}), _,
     rfl, by decide +kernel⟩,
   ⟨0, 3, 0x3409000000000000, seqOn 0x3409000000000000 {}, _, rfl, by decide +kernel⟩,
   ⟨0, 3, 0xa409000000000000, sets [(qreg 3 0x070, 5)] (seqOn 0xa409000000000000 {}), _, rfl,
     by decide +kernel⟩,
   ⟨0, 3, 0xa409000000000001, sets [(qreg 3 0x070, 5)] (seqOn 0xa409000000000001 {}), _, rfl,
     by decide +kernel⟩,
   ⟨0, 3, 0xa409000000000002, sets [(qreg 3 0x070, 5), (qreg 3 (0x100 + 4 * 2), 5)]
     (seqOn 0xa409000000000002 {}), _, rfl, by decide +kernel⟩,
   ⟨(.sigRead, 1), 0, 3, 0xa409000000000001, seqOn 0xa409000000000001
     { fifo := [{ addr := 7, left := 2, rep := false, tset := 1, caddr := 4 }] }, _, rfl, by decide +kernel⟩,
   ⟨0, 3, 0xa8090000000004f3, sets [(qreg 3 0x064, 0x1F0C)] (seqOn 0xa8090000000004f3 {}), _, rfl,
     by decide +kernel⟩,
   ⟨0, 3, 0xac09000000000009, seqOn 0xac09000000000009 {}, _, rfl, by decide +kernel⟩⟩

theorem witness_SequencerRunControl :
    (∃ (t : Nat) (a : Agent) (q : Fin 48) (v : Word) (s : State) (z : State), z = s.upTo t ∧ Opens a (pSeq q) s
      ∧ fld v 31 28 = 8 ∧ s.isOn (pSeq q) = true ∧ s.gong = false ∧ (s.sq q).armed = none ∧ s.running q =
      false) ∧
    (∃ (t : Nat) (a : Agent) (q : Fin 48) (v : Word) (s : State) (z : State), z = s.upTo t ∧ Opens a (pSeq q) s
      ∧ fld v 31 28 = 9 ∧ s.isOn (pSeq q) = true ∧ s.gong = false ∧ (s.sq q).armed = none ∧ s.running q = false
      ∧ z.firingAfter (fld v 27 24) (fld v 21 16) z.now = none) ∧
    (∃ (t : Nat) (a : Agent) (q : Fin 48) (v : Word) (s : State), Opens a (pSeq q) s ∧ fld v 31 29 = 4 ∧ s.isOn
      (pSeq q) = true ∧ s.gong = false ∧ (s.sq q).armed = none ∧ s.running q = true) ∧
    (∃ (t : Nat) (a : Agent) (q : Fin 48) (v : Word) (s : State), Opens a (pSeq q) s ∧
      (fld v 31 29 = 4 ∨ fld v 31 29 = 1) ∧ (s.isOn (pSeq q) = false ∨ s.gong = true) ∧ (s.sq q).armed = none) ∧
    (∃ (t : Nat) (a : Agent) (q : Fin 48) (v : Word) (s : State), Opens a (pSeq q) s ∧ fld v 31 29 = 2 ∧
      (s.sq q).armed = none ∧ s.running q = true) ∧
    (∃ (t : Nat) (a : Agent) (q : Fin 48) (v : Word) (s : State), Opens a (pSeq q) s ∧ fld v 31 29 = 2 ∧
      (s.sq q).armed = none ∧ s.running q = false) ∧
    (∃ (t : Nat) (a : Agent) (q : Fin 48) (v : Word) (s : State) (z : State), z = s.upTo t ∧ Opens a (pSeq q) s
      ∧ fld v 31 29 = 1 ∧ s.isOn (pSeq q) = true ∧ s.gong = false ∧ (s.sq q).armed = none ∧
      (s.runOf q = 4 ∨ s.runOf q = 5)) ∧
    (∃ (t : Nat) (a : Agent) (q : Fin 48) (v : Word) (s : State), Opens a (pSeq q) s ∧ (s.sq q).armed = none ∧
      fld v 31 29 ∈ [3, 5, 6, 7]) ∧
    (∃ (t : Nat) (a : Agent) (q : Fin 48) (v : Word) (s : State), Opens a (pSeq q) s ∧ bit v 0 = true) ∧
    (∃ (t : Nat) (a : Agent) (q : Fin 48) (v : Word) (s : State), Opens a (pSeq q) s) ∧
    (∃ (t : Nat) (a : Agent) (q : Fin 48) (v : Word) (s : State), Opens a (pSeq q) s ∧ fld v 16 0 % 64 = 0 ∧
      fld v 16 0 < s.rf (qreg q 0x084) 7 0 * 1024) ∧
    (∃ (t : Nat) (a : Agent) (q : Fin 48) (v : Word) (s : State), Opens a (pSeq q) s ∧
      (fld v 16 0 % 64 ≠ 0 ∨ s.rf (qreg q 0x084) 7 0 * 1024 ≤ fld v 16 0)) ∧
    (∃ (t : Nat) (q : Fin 48) (e : Nat × Nat) (s : State) (z : State), z = s.upTo t ∧ s.ctr.samples.find?
      (fun e => e.2 = q.val && e.1 ≤ z.now) = some e ∧ s.inSelftest (pSeq q) = false ∧ (s.sq q).retiredAt.all
      (fun r => r / seqCycle < z.now / seqCycle) = true) :=
  ⟨⟨0, .host, 3, 0x80000000, (sets [(reg (pSeq 3) oStatus, 2), (qreg 3 0x054, 9), (qreg 3 0x05C, 0xF14),
     (qreg 3 0x064, 0x1F05), (qreg 3 0x180, 4)] on).setSq 3
     { tset := 4, k := 9, fifo := [{ addr := 7, left := 2, rep := false, tset := 1, caddr := 4 }] }, _, rfl,
     by decide +kernel⟩,
   ⟨0, .host, 3, 0x92030000, sets [(reg (pSeq 3) oStatus, 2), (qreg 3 0x054, 9)] on, _, rfl, by decide +kernel⟩,
   ⟨0, .host, 3, 0x80000000, sets [(reg (pSeq 3) oStatus, 2), (qreg 3 0x054, 9), (qreg 3 0x05C, 3)] on,
     by decide +kernel⟩,
   ⟨0, .host, 3, 0x20000000, on, by decide +kernel⟩,
   ⟨0, .host, 3, 0x40000000, (sets [(reg (pSeq 3) oStatus, 2), (qreg 3 0x054, 9), (qreg 3 0x05C, 3),
     (qreg 3 0x060, 0x33)] on).setSq 3
     { fifo := [{ addr := 7, left := 2, rep := false, tset := 1, caddr := 4 }], issuing := true, busy := .waitT 5 9 },
     by decide +kernel⟩,
   ⟨0, .host, 3, 0x40000000, sets [(reg (pSeq 3) oStatus, 2), (qreg 3 0x054, 9)] on, by decide +kernel⟩,
   ⟨0, .host, 3, 0x20000000, sets [(reg (pSeq 3) oStatus, 2), (qreg 3 0x054, 9), (qreg 3 0x05C, 5),
     (qreg 3 0x060, 0x33)] on, _, rfl, by decide +kernel⟩,
   ⟨0, .host, 3, 0xE0000000, sets [(reg (pSeq 3) oStatus, 2), (qreg 3 0x054, 9)] on, by decide +kernel⟩,
   ⟨0, .host, 3, 1, on, by decide +kernel⟩,
   ⟨0, .host, 3, 0xFFFFFFFA, sets [(qreg 3 0x064, 0x1F05)] on, by decide +kernel⟩,
   ⟨0, .host, 3, 960, sets [(qreg 3 0x084, 1)] on, by decide +kernel⟩,
   ⟨0, .host, 3, 1024, sets [(qreg 3 0x084, 1)] on, by decide +kernel⟩,
   ⟨0, 3, (1024000000, 3),
     { sets [(qreg 3 0x060, 0x33), (qreg 3 0x068, 9)] on with ctr := { samples := [(7, 2), (1024000000, 3)] } },
     _, rfl, by decide +kernel⟩⟩

theorem witness_SequencerStoreAccess :
    (∃ (t : Nat) (q : Fin 48) (w : Nat) (s : State) (z : State), z = s.upTo t ∧ Executes q 0x2D w z ∧
      (bits w 8 0 = 0 ∨ 503 < bits w 8 0)) ∧
    (∃ (t : Nat) (q : Fin 48) (w : Nat) (len : Nat) (sec : Nat) (wd : Nat) (n : Nat) (c : Nat) (s : State)
      (z : State), z = s.upTo t ∧ Executes q 0x2D w z ∧ len = bits w 8 0 ∧ 0 < len ∧ len ≤ 503 ∧ s.logPlace q
      len = some (sec, wd, n) ∧ (s.sq q).logRefused = false ∧ (s.sq q).logClaim = some c ∧ s.claimGranted c =
      true ∧ s.dqHeld 3 < 64) ∧
    (∃ (t : Nat) (q : Fin 48) (w : Nat) (len : Nat) (c : Nat) (p : Nat × Nat × Nat) (s : State) (z : State), z
      = s.upTo t ∧ Executes q 0x2D w z ∧ len = bits w 8 0 ∧ 0 < len ∧ len ≤ 503 ∧ s.logPlace q len = some p ∧
      (s.sq q).logRefused = false ∧ (s.sq q).logClaim = some c ∧ s.claimGranted c = true ∧ 64 ≤ s.dqHeld 3) ∧
    (∃ (t : Nat) (q : Fin 48) (w : Nat) (s : State) (z : State), z = s.upTo t ∧ Executes q 0x2E w z) ∧
    (∃ (t : Nat) (q : Fin 48) (bad : BitVec 8) (b : Nat) (l : Nat) (s : State), s.lineWanted q = some l ∧ b =
      s.xipBank q) ∧
    (∃ (t : Nat) (q : Fin 48) (bad : BitVec 8) (s : State), s.lineWanted q = none) :=
  ⟨⟨0, 3, 0xb4090000000001f8, seqOn 0xb4090000000001f8 {}, _, rfl, by decide +kernel⟩,
   ⟨0, 3, 0xb409000000000002, 2, 0, 501, 7, 7,
     { sets [(qreg 3 0x090, 0x00400002), (qreg 3 0x094, 501), (qreg 3 0x098, 0)] (seqOn 0xb409000000000002 { logClaim := some 7, logRec := 7 }) with ledger := { claims := [{ number := 7, activity := 3, agent := 0x13, res := [], mw := 100, queued := false }] } },
     _, rfl, by decide +kernel⟩,
   ⟨0, 3, 0xb409000000000002, 2, 7, (0, 501, 7),
     ({ sets [(qreg 3 0x090, 0x00400002), (qreg 3 0x094, 501), (qreg 3 0x098, 0)] (seqOn 0xb409000000000002 { logClaim := some 7, logRec := 7 }) with ledger := { claims := [{ number := 7, activity := 3, agent := 0x13, res := [], mw := 100, queued := false }] } }).setDq
     3 { held := List.replicate 64 { src := .host, ws := [] } }, _, rfl, by decide +kernel⟩,
   ⟨0, 3, 0xb809000000000005, seqOn 0xb809000000000005 {}, _, rfl, by decide +kernel⟩,
   ⟨0, 3, 0x82, 0, 1, (sets [(reg (pSeq 3) oStatus, 2), (qreg 3 0x05C, 2), (qreg 3 0x040, 0x800),
     (qreg 3 0x060, 0x80009)] on).setXip 0 { bad := [3] }, by decide +kernel⟩,
   ⟨0, 3, 0, on, by decide +kernel⟩⟩

theorem witness_FabricPinAndPositionPorts :
    (∃ (t : Nat) (i : Fin 3072) (r : Fin 96) (oe : Bool) (lvl : Bool) (x1 : Word) (c : Nat) (s : State)
      (z : State), z = s.upTo t ∧ pinRegion i = r ∧ Served r 0 (pGrp (i / 64)) z ∧ s.owner i = 1 ∧
      (s.pin i).queue.length < 16 ∧ x1 = z.tsWord i (fld (z.cfgNow i) 4 0) 5 ∧ c = z.now + 2 * s.portT r) ∧
    (∃ (t : Nat) (i : Fin 3072) (r : Fin 96) (oe : Bool) (lvl : Bool) (s : State) (z : State), z = s.upTo t ∧
      pinRegion i = r ∧ Served r 0 (pGrp (i / 64)) z ∧ s.owner i = 1 ∧ 16 ≤ (s.pin i).queue.length) ∧
    (∃ (t : Nat) (i : Fin 3072) (r : Fin 96) (oe : Bool) (lvl : Bool) (s : State) (z : State), z = s.upTo t ∧
      pinRegion i = r ∧ s.regionParked r = false ∧ z.portBusy r 0 = true) ∧
    (∃ (t : Nat) (i : Fin 3072) (r : Fin 96) (oe : Bool) (lvl : Bool) (s : State) (z : State), z = s.upTo t ∧
      pinRegion i = r ∧ Served r 0 (pGrp (i / 64)) z ∧ s.owner i ≠ 1) ∧
    (∃ (t : Nat) (i : Fin 3072) (r : Fin 96) (oe : Bool) (lvl : Bool) (s : State), pinRegion i = r ∧
      s.regionParked r = true) ∧
    (∃ (t : Nat) (i : Fin 3072) (r : Fin 96) (oe : Bool) (lvl : Bool) (s : State) (z : State), z = s.upTo t ∧
      pinRegion i = r ∧ s.regionParked r = false ∧ z.portBusy r 0 = false ∧ s.inSelftest (pGrp (i / 64)) = true
      ∧ s.rb (reg (pReg r) oCtrl) 3 = false) ∧
    (∃ (t : Nat) (i : Fin 3072) (r : Fin 96) (oe : Bool) (lvl : Bool) (s : State) (z : State), z = s.upTo t ∧
      pinRegion i = r ∧ s.regionParked r = false ∧ z.portBusy r 0 = false ∧ s.inSelftest (pGrp (i / 64)) = true
      ∧ s.rb (reg (pReg r) oCtrl) 3 = true ∧ 0 < s.holdWindow r ∧ (s.region r).holds.any
      (fun h => h.page = pGrp (i / 64) && h.port = 0) = false) ∧
    (∃ (t : Nat) (i : Fin 3072) (r : Fin 96) (w : BitVec 64) (s : State) (z : State), z = s.upTo t ∧ pinRegion
      i = r ∧ Served r 0 (pGrp (i / 64)) z ∧ (s.pin i).tx.length < 16) ∧
    (∃ (t : Nat) (i : Fin 3072) (r : Fin 96) (w : BitVec 64) (s : State) (z : State), z = s.upTo t ∧ pinRegion
      i = r ∧ Served r 0 (pGrp (i / 64)) z ∧ 16 ≤ (s.pin i).tx.length) ∧
    (∃ (t : Nat) (i : Fin 3072) (r : Fin 96) (w : BitVec 64) (l : List (BitVec 64)) (s : State) (z : State), z
      = s.upTo t ∧ pinRegion i = r ∧ Served r 0 (pGrp (i / 64)) z ∧ (s.pin i).rx = w :: l) ∧
    (∃ (t : Nat) (r : Fin 96) (d : Fin 16) (k : Fin 8) (j : Traj) (s : State) (z : State), z = s.upTo t ∧
      Served r 1 (pDom d) z ∧ s.srcType d = 2 ∧ s.isOn (pDom d) = true ∧ s.presetRate d k ≤ maxRate ∧ j =
      (s.dom d).traj ∧ (s.dom d).req.all (fun x => x.cycle != z.now / pinCycle) = true) ∧
    (∃ (t : Nat) (r : Fin 96) (d : Fin 16) (k : Fin 8) (x : PresetReq) (s : State) (z : State), z = s.upTo t ∧
      Served r 1 (pDom d) z ∧ s.srcType d = 2 ∧ s.isOn (pDom d) = true ∧ s.presetRate d k ≤ maxRate ∧
      (s.dom d).req = some x ∧ x.cycle = z.now / pinCycle ∧ 1 + r < x.rank) ∧
    (∃ (t : Nat) (r : Fin 96) (d : Fin 16) (k : Fin 8) (s : State) (z : State), z = s.upTo t ∧ Served r 1
      (pDom d) z ∧ (s.srcType d ≠ 2 ∨ s.isOn (pDom d) = false ∨ maxRate < s.presetRate d k)) ∧
    (∃ (t : Nat) (r : Fin 96) (n : Fin 16) (e : Nat × Nat × Bool) (s : State) (z : State), z = s.upTo t ∧
      s.regionParked r = false ∧ (s.region r).notices.find? (fun e => e.2.1 = n.val && e.1 ≤ z.now) = some e) :=
  ⟨⟨0, 200, 6, true, true, 0x80000010, 1024000000 + 2 *
     (sets [(reg (pReg 6) oStatus, 2), (ownReg 200, 0x01000000)] (on)).portT 6,
     { sets [(reg (pReg 6) oStatus, 2), (ownReg 200, 0x01000000)] (on) with tsets := [((64 * 3 + 8) * 256 + 5, 0x80000010)] },
     _, rfl, by decide +kernel⟩,
   ⟨0, 200, 6, true, true, (sets [(reg (pReg 6) oStatus, 2), (ownReg 200, 0x01000000)] (on)).setPin 200
     { queue := List.replicate 16 { due := 1024009000, act := .onLevel true, own := 0 } }, _, rfl,
     by decide +kernel⟩,
   ⟨0, 200, 6, true, true, (sets [(reg (pReg 6) oStatus, 2)] (on)).setRegion 6 { took := [(0, 1024000000)] },
     _, rfl, by decide +kernel⟩,
   ⟨0, 200, 6, true, true, sets [(reg (pReg 6) oStatus, 2)] (on), _, rfl, by decide +kernel⟩,
   ⟨0, 200, 6, true, true, on, by decide +kernel⟩,
   ⟨0, 200, 6, true, true, sets [(reg (pReg 6) oStatus, 2), (reg (pGrp 3) oStatus, 4)] (on), _, rfl,
     by decide +kernel⟩,
   ⟨0, 200, 6, true, true, sets [(reg (pReg 6) oStatus, 2), (reg (pGrp 3) oStatus, 4), (reg (pReg 6) oCtrl, 8),
     (rreg 6 0x050, 5)] (on), _, rfl, by decide +kernel⟩,
   ⟨0, 200, 6, 0x500000003, sets [(reg (pReg 6) oStatus, 2), (ownReg 200, 0x01000000)] (on), _, rfl,
     by decide +kernel⟩,
   ⟨0, 200, 6, 0x500000003, (sets [(reg (pReg 6) oStatus, 2)] (on)).setPin 200 { tx := List.replicate 16 7 },
     _, rfl, by decide +kernel⟩,
   ⟨0, 200, 6, 0x500000003, [8], (sets [(reg (pReg 6) oStatus, 2)] (on)).setPin 200 { rx := [0x500000003, 8] },
     _, rfl, by decide +kernel⟩,
   ⟨0, 6, 0, 0, {}, sets [(reg (pReg 6) oStatus, 2), (reg (pDom 0) oStatus, 2), (dreg 0 0x040, 2),
     (dreg 0 0x100, 5000)] (on), _, rfl, by decide +kernel⟩,
   ⟨0, 6, 0, 0, { cycle := 800000, rank := 96, traj := {}, ramp := {} }, (sets [(reg (pReg 6) oStatus, 2),
     (reg (pDom 0) oStatus, 2), (dreg 0 0x040, 2), (dreg 0 0x100, 5000)] (on)).setDom 0
     { req := some { cycle := 800000, rank := 96, traj := {}, ramp := {} } }, _, rfl, by decide +kernel⟩,
   ⟨0, 6, 0, 0, sets [(reg (pReg 6) oStatus, 2)] (on), _, rfl, by decide +kernel⟩,
   ⟨0, 6, 2, (7, 2, true),
     { sets [(reg (pReg 6) oStatus, 2)] (on) with regions := [(6, { notices := [(7, 3, true), (7, 2, true)] })] },
     _, rfl, by decide +kernel⟩⟩

theorem witness_FabricSequencerPort :
    (∃ (t : Nat) (r : Fin 96) (q : Fin 48) (m : BitVec 4) (s : State) (z : State), z = s.upTo t ∧ Served r 2
      (pSeq q) z ∧ (z.flagsNow q).2 = false) ∧
    (∃ (t : Nat) (r : Fin 96) (q : Fin 48) (m : BitVec 4) (s : State) (z : State), z = s.upTo t ∧ Served r 2
      (pSeq q) z ∧ (z.flagsNow q).2 = true) ∧
    (∃ (t : Nat) (r : Fin 96) (q : Fin 48) (s : State) (z : State), z = s.upTo t ∧ Served r 2 (pSeq q) z) ∧
    (∃ (t : Nat) (r : Fin 96) (q : Fin 48) (g : Fin 4) (e : Fin 16384) (w : Fin 8) (v : Word) (a : Nat)
      (s : State) (z : State), z = s.upTo t ∧ Served r 2 (pSeq q) z ∧ q.val + g.val ∈ s.spanGroups q ∧
      s.inSelftest (pSeq (q + g)) = false ∧ vecBad v = false ∧ a = vecBase (q + g) + (32 * e + 4 * w) ∧
      z.outranked (memKey a) (1 + r) = false) ∧
    (∃ (t : Nat) (r : Fin 96) (q : Fin 48) (g : Fin 4) (e : Fin 16384) (w : Fin 8) (v : Word) (s : State)
      (z : State), z = s.upTo t ∧ Served r 2 (pSeq q) z ∧ q.val + g.val ∈ s.spanGroups q ∧ s.inSelftest
      (pSeq (q + g)) = false ∧ vecBad v = false ∧ z.outranked (memKey (vecBase (q + g) + (32 * e + 4 * w)))
      (1 + r) = true) ∧
    (∃ (t : Nat) (r : Fin 96) (q : Fin 48) (g : Fin 4) (e : Fin 16384) (w : Fin 8) (v : Word) (s : State)
      (z : State), z = s.upTo t ∧ Served r 2 (pSeq q) z ∧ q.val + g.val ∈ s.spanGroups q ∧ s.inSelftest
      (pSeq (q + g)) = false ∧ vecBad v = true) ∧
    (∃ (t : Nat) (r : Fin 96) (q : Fin 48) (g : Fin 4) (e : Fin 16384) (w : Fin 8) (v : Word) (s : State)
      (z : State), z = s.upTo t ∧ Served r 2 (pSeq q) z ∧ q.val + g.val ∉ s.spanGroups q) ∧
    (∃ (t : Nat) (r : Fin 96) (s : State) (z : State), z = s.upTo t ∧ s.isOn (pReg r) = true ∧
      (s.region r).parkedAt = none) ∧
    (∃ (t : Nat) (r : Fin 96) (s : State), (s.region r).parkedAt.isSome = true) ∧
    (∃ (t : Nat) (r : Fin 96) (h : Hold) (s : State) (z : State), z = s.upTo t ∧ h ∈ (s.region r).holds ∧
      h.until_ ≤ z.now ∧ s.inSelftest h.page = true ∧ s.inSelftest (pReg r) = false) ∧
    (∃ (t : Nat) (r : Fin 96) (s : State) (z : State), z = s.upTo t ∧ (∀ h, h ∈ (s.region r).holds → z.now <
      h.until_ ∨ s.inSelftest h.page = false)) :=
  ⟨⟨0, 6, 3, 5, sets [(reg (pReg 6) oStatus, 2), (qreg 3 0x064, 0xA)] (on), _, rfl, by decide +kernel⟩,
   ⟨0, 6, 3, 5, (sets [(reg (pReg 6) oStatus, 2)] (on)).setSq 3
     { flagCyc := some (1024000000 / seqCycle, 5, true) }, _, rfl, by decide +kernel⟩,
   ⟨0, 6, 3, sets [(reg (pReg 6) oStatus, 2), (qreg 3 0x064, 0xA)] (on), _, rfl, by decide +kernel⟩,
   ⟨0, 6, 3, 0, 16383, 7, 0xB, vecBase 3 + (32 * 16383 + 28), sets
     [(reg (pReg 6) oStatus, 2), (qreg 3 0x064, 0xA)] (on), _, rfl, by decide +kernel⟩,
   ⟨0, 6, 3, 0, 16383, 7, 0, (sets [(reg (pReg 6) oStatus, 2)] (on)).take
     (memKey (vecBase 3 + (32 * 16383 + 28))) pageCycle 96, _, rfl, by decide +kernel⟩,
   ⟨0, 6, 3, 0, 16383, 7, 0xC, sets [(reg (pReg 6) oStatus, 2), (qreg 3 0x064, 0xA)] (on), _, rfl,
     by decide +kernel⟩,
   ⟨0, 6, 3, 1, 16383, 7, 0, sets [(reg (pReg 6) oStatus, 2), (qreg 3 0x064, 0xA)] (on), _, rfl,
     by decide +kernel⟩,
   ⟨0, 6, sets [(reg (pReg 6) oStatus, 2), (qreg 3 0x064, 0xA)] (on), _, rfl, by decide +kernel⟩,
   ⟨0, 6, { sets [(reg (pReg 6) oStatus, 2)] (on) with regions := [(6, { parkedAt := some 7 })] },
     by decide +kernel⟩,
   ⟨0, 6, { port := 0, page := pGrp 3, until_ := 5, req := .drive 200 true true },
     (sets [(reg (pReg 6) oStatus, 2), (reg (pGrp 3) oStatus, 4)] (on)).setRegion 6
     { holds := [{ port := 0, page := pGrp 3, until_ := 5, req := .drive 200 true true }] }, _, rfl,
     by decide +kernel⟩,
   ⟨0, 6, (sets [(reg (pReg 6) oStatus, 2), (reg (pGrp 3) oStatus, 4)] (on)).setRegion 6
     { holds := [{ port := 0, page := pGrp 3, until_ := 2024000000, req := .drive 200 true true }] }, _, rfl,
     by decide +kernel⟩⟩

theorem witness_FabricMemories :
    (∃ (t : Nat) (row : Fin 8) (east : Bool) (k : Nat) (x : MemAccess) (w : Nat) (s : State) (z : State), z =
      (s.upTo t).dumpSync ∧ k = deepNo row east ∧ w = x.addr % 65536 ∧ z.deepHeld k = false ∧ x.write = true ∧
      x.be = 0xFF ∧ z.deepClash k w true true = none) ∧
    (∃ (t : Nat) (row : Fin 8) (east : Bool) (k : Nat) (x : MemAccess) (w : Nat) (s : State) (z : State), z =
      (s.upTo t).dumpSync ∧ k = deepNo row east ∧ w = x.addr % 65536 ∧ z.deepHeld k = false ∧ x.write = false ∧
      z.deepClash k w true false = none ∧ z.deepUndef k w = false) ∧
    (∃ (t : Nat) (row : Fin 8) (east : Bool) (k : Nat) (x : MemAccess) (w : Nat) (r : Nat) (s : State)
      (z : State), z = (s.upTo t).dumpSync ∧ k = deepNo row east ∧ w = x.addr % 65536 ∧ r = z.deepOwner k ∧ r <
      96 ∧ Served r 5 (pReg (deepHost k)) z ∧ z.deepHeld k = false ∧ x.write = false ∧ z.deepClash k w false
      false = none ∧ z.deepUndef k w = false) ∧
    (∃ (t : Nat) (row : Fin 8) (east : Bool) (k : Nat) (x : MemAccess) (w : Nat) (r : Nat) (s : State)
      (z : State), z = (s.upTo t).dumpSync ∧ k = deepNo row east ∧ w = x.addr % 65536 ∧ r = z.deepOwner k ∧ r <
      96 ∧ Served r 5 (pReg (deepHost k)) z ∧ z.deepHeld k = false ∧ x.write = true ∧ x.be = 0xFF ∧ z.deepClash
      k w false true = none) ∧
    (∃ (t : Nat) (row : Fin 8) (east : Bool) (k : Nat) (x : MemAccess) (y : MemAccess) (w : Nat) (r : Nat)
      (s : State) (z : State), z = (s.upTo t).dumpSync ∧ k = deepNo row east ∧ w = x.addr % 65536 ∧ w = y.addr
      % 65536 ∧ r = z.deepOwner k ∧ r < 96 ∧ Served r 5 (pReg (deepHost k)) z ∧ z.deepHeld k = false ∧ x.write
      = true ∧ y.write = true ∧ z.deepClash k w false true = none) ∧
    (∃ (t : Nat) (row : Fin 8) (east : Bool) (k : Nat) (x : MemAccess) (w : Nat) (y : DeepAcc) (s : State)
      (z : State), z = (s.upTo t).dumpSync ∧ k = deepNo row east ∧ w = x.addr % 65536 ∧ z.deepHeld k = false ∧
      x.write = false ∧ z.deepClash k w true false = some y) ∧
    (∃ (t : Nat) (row : Fin 8) (east : Bool) (k : Nat) (x : MemAccess) (s : State) (z : State), z =
      (s.upTo t).dumpSync ∧ k = deepNo row east ∧ z.deepHeld k = true) ∧
    (∃ (t : Nat) (r : Fin 96) (b : Fin 24) (par : Bool) (x : BlockAccess) (s : State), s.isOn (pReg r) = true ∧
      s.rb (rreg r 0x040) 6 = false ∧ x.write = true ∧ 3 ≤ x.shape.val) ∧
    (∃ (t : Nat) (r : Fin 96) (b : Fin 24) (x : BlockAccess) (s : State), s.isOn (pReg r) = true ∧ s.rb
      (rreg r 0x040) 6 = false ∧ x.write = false ∧ x.shape.val = 5) ∧
    (∃ (t : Nat) (r : Fin 96) (b : Fin 24) (par : Bool) (pa : Option BlockAccess) (pb : Option BlockAccess)
      (s : State), (s.isOn (pReg r) = false ∨ s.rb (rreg r 0x040) 6 = true)) :=
  ⟨⟨0, 0, false, 0, { addr := 65535, write := true, data := 0x1122334455667788 }, 65535,
     { sets [(reg (pReg 0) oStatus, 2), (reg (pReg 6) oStatus, 2), (reg (pReg 0) 0x300, 0x00060000)] on with undef := [(1, true)], mem := [(deepBase 0 + 8 * 65535, 9)] },
     _, rfl, by decide +kernel⟩,
   ⟨0, 0, false, 0, { addr := 65535, write := false, data := 0 }, 65535,
     { sets [(reg (pReg 0) oStatus, 2), (reg (pReg 6) oStatus, 2), (reg (pReg 0) 0x300, 0x00060000)] on with undef := [(1, true)], mem := [(deepBase 0 + 8 * 65535, 9)] },
     _, rfl, by decide +kernel⟩,
   ⟨0, 0, false, 0, { addr := 65535, write := false, data := 0 }, 65535, 6, (sets [(reg (pReg 0) oStatus, 2),
     (reg (pReg 6) oStatus, 2), (reg (pReg 0) 0x300, 0x00060000)] on).setRegion 6 { deep := 1 }, _, rfl,
     by decide +kernel⟩,
   ⟨0, 0, false, 0, { addr := 65535, write := true, data := 0x1122334455667788 }, 65535, 6, (sets
     [(reg (pReg 0) oStatus, 2), (reg (pReg 6) oStatus, 2), (reg (pReg 0) 0x300, 0x00060000)] on).setRegion 6
     { deep := 1 }, _, rfl, by decide +kernel⟩,
   ⟨0, 0, false, 0, { addr := 65535, write := true, data := 1 }, { addr := 65535, write := true, data := 2 },
     65535, 6, (sets [(reg (pReg 0) oStatus, 2), (reg (pReg 6) oStatus, 2), (reg (pReg 0) 0x300, 0x00060000)]
     on).setRegion 6 { deep := 1 }, _, rfl, by decide +kernel⟩,
   ⟨0, 0, false, 0, { addr := 131071, write := false, data := 0 }, 65535,
     { at_ := 1024000000, word := 65535, write := true },
     { sets [(reg (pReg 0) oStatus, 2), (reg (pReg 6) oStatus, 2), (reg (pReg 0) 0x300, 0x00060000)] on with deepLast := [(deepKey 0 false, { at_ := 1024000000, word := 65535, write := true })] },
     _, rfl, by decide +kernel⟩,
   ⟨0, 0, false, 0, { addr := 65535, write := true, data := 1 }, sets [(reg (pReg 0) oStatus, 4)] on, _, rfl,
     by decide +kernel⟩,
   ⟨0, 6, 5, true,
     { shape := 6, addr := 1023, write := true, data := 0x1122334455667788, ninth := 3, be := 0x7F },
     { sets [(reg (pReg 0) oStatus, 2), (reg (pReg 6) oStatus, 2), (reg (pReg 0) 0x300, 0x00060000)] on with undef := [(1, true)], mem := [(deepBase 0 + 8 * 65535, 9)] },
     by decide +kernel⟩,
   ⟨0, 6, 5, { shape := 5, addr := 1023, write := false },
     { sets [(reg (pReg 0) oStatus, 2), (reg (pReg 6) oStatus, 2), (reg (pReg 0) 0x300, 0x00060000)] on with undef := [(1, true)], mem := [(deepBase 0 + 8 * 65535, 9)] },
     by decide +kernel⟩,
   ⟨0, 6, 5, true, none, none, on, by decide +kernel⟩⟩

theorem witness_RegisterPortAndTap :
    (∃ (t : Nat) (r : Fin 96) (wr : Bool) (cnt : Bool) (addr : Nat) (v : Word) (s : State) (z : State), z =
      s.upTo t ∧ (s.region r).accs.length < 4 ∧ Served r 3 (if cnt then pCnt else addr / 4096) z) ∧
    (∃ (t : Nat) (r : Fin 96) (wr : Bool) (cnt : Bool) (addr : Nat) (v : Word) (s : State), 4 ≤
      (s.region r).accs.length) ∧
    (∃ (t : Nat) (r : Fin 96) (x : PortAcc) (l : List PortAcc) (s : State), (s.region r).accs = x :: l ∧ x.deny
      = true ∧ s.inSelftest (pReg r) = false ∧ NoneReleased r s) ∧
    (∃ (t : Nat) (r : Fin 96) (x : PortAcc) (l : List PortAcc) (s : State), (s.region r).accs = x :: l ∧ x.deny
      = false ∧ x.counter = true ∧ assigned (cntEvent x.addr) = true ∧ cntHigh x.addr = true ∧ s.regionParked r
      = false ∧ NoneReleased r s) ∧
    (∃ (t : Nat) (r : Fin 96) (x : PortAcc) (l : List PortAcc) (s : State), (s.region r).accs = x :: l ∧ x.deny
      = false ∧ x.write = false ∧ x.counter = true ∧ assigned (cntEvent x.addr) = true ∧ cntHigh x.addr = true
      ∧ s.regionParked r = true) ∧
    (∃ (t : Nat) (r : Fin 96) (x : PortAcc) (l : List PortAcc) (s : State) (z : State), z = s.upTo t ∧
      (s.region r).accs = x :: l ∧ x.deny = false ∧ x.counter = true ∧ assigned (cntEvent x.addr) = true ∧
      cntHigh x.addr = false ∧ s.regionParked r = false ∧ NoneReleased r s) ∧
    (∃ (t : Nat) (ir : BitVec 8) (s : State), s.tapLive = true) ∧
    (∃ (t : Nat) (s : State), s.tapLive = true) ∧
    (∃ (t : Nat) (ir : BitVec 8) (s : State), s.tapLive = false) ∧
    (∃ (t : Nat) (dr : Nat) (s : State), s.tapLive = true ∧ s.jtag.ir = 0x10 ∧ s.lifeDenies .jtag = false ∧
      nbit dr 47 = false) ∧
    (∃ (t : Nat) (dr : Nat) (s : State), (s.tapLive = false ∨ s.jtag.ir ≠ 0x10 ∨ s.lifeDenies .jtag = true)) ∧
    (∃ (t : Nat) (bits : List (Bool × Bool)) (s : State), s.tapLive = true ∧ s.jtag.ir ∈ [0x02, 0x03, 0x05]) :=
  ⟨⟨0, 6, true, false, 0x20040, 7, sets [(reg (pReg 6) oStatus, 2)] (on), _, rfl, by decide +kernel⟩,
   ⟨0, 6, true, false, 0x20040, 7,
     { sets [(reg (pReg 6) oStatus, 2)] (on) with regions := [(6, { accs := [{ write := true, counter := false, addr := 5, data := 5, taken := 9, deny := false }, { write := true, counter := false, addr := 5, data := 5, taken := 9, deny := false }, { write := true, counter := false, addr := 5, data := 5, taken := 9, deny := false }, { write := true, counter := false, addr := 5, data := 5, taken := 9, deny := false }] })] },
     by decide +kernel⟩,
   ⟨0, 6, { write := true, counter := false, addr := 0x20040, data := 5, taken := 9, deny := true }, [],
     { sets [(reg (pReg 6) oStatus, 2)] (on) with regions := [(6, { accs := [{ write := true, counter := false, addr := 0x20040, data := 5, taken := 9, deny := true }] })] },
     by decide +kernel⟩,
   ⟨0, 6, { write := false, counter := true, addr := 0x1004, data := 5, taken := 9, deny := false }, [],
     ({ { on with ctr := { shadows := [(134, 77)] } } with regions := [(6, { accs := [{ write := false, counter := true, addr := 0x1004, data := 5, taken := 9, deny := false }] })] }).setUnitState
     (pReg 6) 2, by decide +kernel⟩,
   ⟨0, 6, { write := false, counter := true, addr := 0x1004, data := 5, taken := 9, deny := false }, [],
     (sets [(reg (pReg 6) oStatus, 2)] (on)).setRegion 6
     { accs := [{ write := false, counter := true, addr := 0x1004, data := 5, taken := 9, deny := false }], parkedAt := some 7 },
     by decide +kernel⟩,
   ⟨0, 6, { write := false, counter := true, addr := 0x1000, data := 5, taken := 9, deny := false }, [],
     ({ { on with ctr := { counts := [(0x200, 0xFFFFFFFFFFFF)], raisings := [(1000, 0x200), (2000, 0x200)] } } with regions := [(6, { accs := [{ write := false, counter := true, addr := 0x1000, data := 5, taken := 9, deny := false }] })] }).setUnitState
     (pReg 6) 2, _, rfl, by decide +kernel⟩,
   ⟨0, 0x10, on, by decide +kernel⟩,
   ⟨0, { on with jtag := { ir := 2, data := 77 } }, by decide +kernel⟩,
   ⟨0, 2, { on with pwr := { vaux := false } }, by decide +kernel⟩,
   ⟨0, 0x20014, { on with jtag := { ir := 0x10, data := 77 } }, by decide +kernel⟩,
   ⟨0, 0, on, by decide +kernel⟩,
   ⟨0, [(true, false)], { on with jtag := { ir := 5, data := 77 } }, by decide +kernel⟩⟩

theorem witness_StoreQueues :
    (∃ (t : Nat) (a : Agent) (v : Word) (s : State), Opens a pStore s ∧ bit v 0 = true ∧ s.pwr.phase = .user ∧
      s.dqHeld 1 < 64) ∧
    (∃ (t : Nat) (a : Agent) (v : Word) (s : State), Opens a pStore s ∧ bit v 0 = true ∧ s.pwr.phase = .user ∧
      64 ≤ s.dqHeld 1) ∧
    (∃ (t : Nat) (r : Fin 96) (ws : List Word) (c : Nat) (s : State) (z : State), z = s.upTo t ∧ c = z.now /
      pageCycle ∧ s.regionParked r = false ∧ z.portBusy r 4 = false ∧ s.dqHeld 2 < 64 ∧ s.store.portLast.all
      (fun e => e.1 != c) = true ∧ (∀ e, e ∈ s.store.portWait → c ≤ e.2 + 1 → e.1 ≠ r → s.portTurn r ≤
      s.portTurn e.1)) ∧
    (∃ (t : Nat) (r : Fin 96) (ws : List Word) (e : Nat × Nat) (s : State) (z : State), z = s.upTo t ∧
      s.regionParked r = false ∧ s.store.portLast = some e ∧ e.1 = z.now / pageCycle) ∧
    (∃ (t : Nat) (r : Fin 96) (ws : List Word) (s : State), s.regionParked r = false ∧ 64 ≤ s.dqHeld 2) ∧
    (∃ (t : Nat) (q : Fin 4) (x : Desc) (r : List Desc) (s : State), Front q x r s ∧ x.op = opNop ∧ Clear q x s
      ∧ checks q x s = none) ∧
    (∃ (t : Nat) (q : Fin 4) (x : Desc) (r : List Desc) (s : State), Front q x r s ∧ opListed 1 x.op = false ∧
      Clear q x s ∧ x.src = .host) ∧
    (∃ (t : Nat) (q : Fin 4) (x : Desc) (r : List Desc) (s : State), Front q x r s ∧ x.op = opInfo ∧ Clear q x
      s ∧ checks q x s = none) ∧
    (∃ (e : Nat → Fin 4 → Instr) (t : Nat) (q : Fin 4) (s : State), True ∧
      (s.chosen q = false ∨ q.val ≠ 0 ∧ s.headReady 0 = true)) ∧
    (∃ (t : Nat) (a : Agent) (k : Nat) (c : List Word) (r : List (Nat × List Word)) (s : State), Reads pStore s
      ∧ (s.dq 1).comps = (k, c) :: r ∧ (∀ j, j ∈ (s.dq 1).running → j.ended = none)) ∧
    (∃ (t : Nat) (a : Agent) (k : Nat) (c : List Word) (r : List (Nat × List Word)) (s : State), Reads pStore s
      ∧ (s.dq 1).comps = (k, c) :: r) ∧
    (∃ (t : Nat) (a : Agent) (s : State), Reads pStore s ∧ (s.dq 1).comps = []) ∧
    (∃ (e : (Nat → Agent → Word → Instr) × Nat) (t : Nat) (a : Agent) (v : Word) (s : State), True ∧ Opens a
      pStore s ∧ bit v e.2 = true) :=
  ⟨⟨0, .host, 1, on, by decide +kernel⟩,
   ⟨0, .host, 1, on.setDq 1 { held := List.replicate 64 { src := .host, ws := [] } }, by decide +kernel⟩,
   ⟨0, 6, [5], 1024000000 / pageCycle, sets [(reg (pReg 6) oStatus, 2)] (on), _, rfl, by decide +kernel⟩,
   ⟨0, 6, [5], (1024000000 / pageCycle, 7),
     { sets [(reg (pReg 6) oStatus, 2)] (on) with store := { portLast := some (1024000000 / pageCycle, 7) } },
     _, rfl, by decide +kernel⟩,
   ⟨0, 6, [5], (sets [(reg (pReg 6) oStatus, 2)] (on)).setDq 2
     { held := List.replicate 64 { src := .region 6, ws := [0x90001, 0x1407000, 1, 3, 16, 2, 3, 0] } },
     by decide +kernel⟩,
   ⟨0, 1, { src := .host, ws := [0x90000, 0x1407000, 1, 3, 16, 2, 3, 0] }, [],
     (sets [(reg pStore 0x040, 1), (reg pStore 0x800, 0x3F1F)] on).setDq 1
     { held := [{ src := .host, ws := [0x90000, 0x1407000, 1, 3, 16, 2, 3, 0] }], running := [], comps := [] },
     by decide +kernel⟩,
   ⟨0, 1, { src := .host, ws := [0x90020, 0x1407000, 1, 3, 16, 2, 3, 0] }, [],
     (sets [(reg pStore 0x040, 1), (reg pStore 0x800, 0x3F1F)] on).setDq 1
     { held := [{ src := .host, ws := [0x90020, 0x1407000, 1, 3, 16, 2, 3, 0] }], running := [], comps := [] },
     by decide +kernel⟩,
   ⟨0, 1, { src := .host, ws := [0x90006, 0x1407000, 1, 3, 16, 2, 3, 0] }, [],
     (sets [(reg pStore 0x040, 1), (reg pStore 0x800, 0x3F1F)] on).setDq 1
     { held := [{ src := .host, ws := [0x90006, 0x1407000, 1, 3, 16, 2, 3, 0] }], running := [], comps := [] },
     by decide +kernel⟩,
   ⟨.read, 0, 1, (on).setDq 1
     { held := [{ src := .host, ws := [0x90001, 0x1407000, 1, 3, 16, 2, 3, 0] }], running := [], comps := [] },
     by decide +kernel⟩,
   ⟨0, .host, 0, [5, 6], [], (sets [(reg pStore 0x040, 1), (reg pStore 0x800, 0x3F1F)] on).setDq 1
     { held := [], running := [], comps := [(0, [5, 6])] }, by decide +kernel⟩,
   ⟨0, .host, 0, [5, 6], [(0, [7])], (sets [(reg pStore 0x040, 1), (reg pStore 0x800, 0x3F1F)] on).setDq 1
     { held := [], running := [{ desc := { src := .host, ws := [0x90001, 0x1407000, 1, 3, 16, 2, 3, 0] }, since := 7, ended := some { status := 0 } }], comps := [(0, [5, 6]), (0, [7])] },
     by decide +kernel⟩,
   ⟨0, .host, on, by decide +kernel⟩,
   ⟨(.resetHost, 1), 0, .host, 2, (sets [(reg pStore 0x040, 1), (reg pStore 0x800, 0x3F1F)] on).setDq 1
     { held := [{ src := .host, ws := [0x90001, 0x1407000, 1, 3, 16, 2, 3, 0] }], running := [{ desc := { src := .host, ws := [0x90003, 0x1407000, 117440513, 3, 16, 2, 3, 0] }, since := 7 }], comps := [] },
     by decide +kernel⟩⟩

theorem witness_StoreOperations :
    (∃ (e : (Nat → Fin 4 → Instr) × Nat) (t : Nat) (q : Fin 4) (x : Desc) (r : List Desc) (s : State)
      (z : State), z = s.upTo t ∧ True ∧ Front q x r s ∧ x.op = e.2 ∧ checks q x s = none) ∧
    (∃ (e : (Nat → Fin 4 → Instr) × Nat) (t : Nat) (q : Fin 4) (x : Desc) (r : List Desc) (st : Nat) (w : Nat)
      (s : State), True ∧ Front q x r s ∧ x.op = e.2 ∧ Clear q x s ∧ checks q x s = some (st, w)) ∧
    (∃ (t : Nat) (q : Fin 4) (b : Fin 128) (corr : Nat) (j : Job) (a : Nat) (f : Nat → FlashWord)
      (d : Nat → BitVec 64) (s : State), Runs (fun j => isRead j.desc.op) q b j s ∧ j.desc.op = opRead ∧
      (s.sec b j.desc.sector).state = .normal ∧ s.sectorOpen b j.desc.sector = false ∧ s.bufferHeld j.desc =
      false ∧ j.desc.space = 3 ∧ (∀ i, f i = s.flashWord b j.desc.sector (j.desc.first + i)) ∧ (∀ i, d i = if
      flagWord b (j.desc.first + i) then (flagRead (f i).data).1 else (f i).data) ∧
      (∀ i, i < j.desc.count → (f i).undef = false) ∧ a = resBase j.desc.hi + j.desc.lo) ∧
    (∃ (t : Nat) (q : Fin 4) (b : Fin 128) (corr : Nat) (j : Job) (a : Nat) (f : Nat → FlashWord) (s : State),
      Runs (fun j => isRead j.desc.op) q b j s ∧ j.desc.op = opRaw ∧ (s.sec b j.desc.sector).state = .normal ∧
      s.bufferHeld j.desc = false ∧ j.desc.space = 3 ∧
      (∀ i, f i = s.flashWord b j.desc.sector (j.desc.first + i)) ∧ a = resBase j.desc.hi + j.desc.lo) ∧
    (∃ (t : Nat) (q : Fin 4) (b : Fin 128) (corr : Nat) (j : Job) (s : State), (s.dq q).running.find?
      (fun k => isRead k.desc.op && k.desc.bank = b.val && k.ended.isNone) = some j ∧ s.behind q j = true) ∧
    (∃ (t : Nat) (q : Fin 4) (x : Desc) (r : List Desc) (s : State), Front q x r s ∧ x.op = opProgram ∧ x.src =
      .host ∧ x.space = 3 ∧ s.descCheck q x (some (s.bufferWords x).1) = none) ∧
    (∃ (t : Nat) (x : Desc) (r : List Desc) (s : State), Front 0 x r s ∧ x.op = opProgram ∧ x.src = .steward) ∧
    (∃ (t : Nat) (q : Fin 4) (x : Desc) (r : List Desc) (s : State) (z : State), z = s.upTo t ∧ Front q x r s ∧
      x.op = opProgram ∧ x.src = .host ∧ x.space = 1 ∧ x.first + x.count ≤ 504 ∧ checks q x s = none) ∧
    (∃ (t : Nat) (q : Fin 4) (b : Fin 104) (j : Job) (p : Nat) (f : Nat → FlashWord) (s : State), Runs programs
      q b j s ∧ j.desc.isLog = false ∧ j.data.length = j.desc.count ∧
      (∀ i, f i = s.flashWord b j.desc.sector (j.desc.first + i))) ∧
    (∃ (t : Nat) (q : Fin 4) (b : Fin 104) (j : Job) (k : Nat) (p : Nat) (s : State), Runs programs q b j s ∧
      j.data.length = j.desc.count ∧ k < j.desc.count ∧ j.data[k]? ≠ some erasedWord) ∧
    (∃ (t : Nat) (q : Fin 4) (b : Fin 104) (j : Job) (p : Nat) (s : State), Runs programs q b j s ∧
      j.desc.isLog = true ∧ j.desc.flag = false) ∧
    (∃ (t : Nat) (q : Fin 4) (x : Desc) (r : List Desc) (s : State) (z : State), z = s.upTo t ∧ Front q x r s ∧
      x.op = opErase ∧ checks q x s = none) ∧
    (∃ (t : Nat) (q : Fin 4) (b : Fin 104) (j : Job) (ok : Bool) (p : Nat) (sp : Bool) (good : Bool)
      (s : State), Runs erases q b j s ∧ (ok = true ∨ fld j.limits 13 8 ≤ max p
      ((s.sec b j.desc.sector).steps + 1)) ∧ good =
      (ok || decide (b.val < 96) && decide ((s.bankOf b).spares < 16) && sp)) ∧
    (∃ (t : Nat) (q : Fin 4) (b : Fin 104) (j : Job) (p : Nat) (sp : Bool) (s : State), Runs erases q b j s ∧
      max p ((s.sec b j.desc.sector).steps + 1) < fld j.limits 13 8) ∧
    (∃ (t : Nat) (q : Fin 4) (x : Desc) (r : List Desc) (s : State) (z : State), z = s.upTo t ∧ Front q x r s ∧
      x.op = opSuspend ∧ checks q x s = none) ∧
    (∃ (t : Nat) (b : Fin 104) (p : Nat) (q : Nat) (j : Job) (s : State) (z : State), z = s.upTo t ∧ s.erasing
      b = some (q, j) ∧ (∃ e, e ∈ s.store.queues ∧ ∃ k, k ∈ e.2.running ∧ k.desc.op = opSuspend ∧ k.desc.bank =
      b.val ∧ k.ended = none) ∧ s.behind q j = false ∧ j.since + us 250 ≤ z.now ∧ s.inSelftest pStore = false) ∧
    (∃ (t : Nat) (q : Fin 4) (x : Desc) (r : List Desc) (s : State) (z : State), z = s.upTo t ∧ Front q x r s ∧
      x.op = opResume ∧ checks q x s = none) :=
  ⟨⟨(.read, opRead), 0, 1, { src := .host, ws := [0x90001, 0x1407000, 1, 3, 16, 2, 3, 0] }, [],
     (sets [(reg pStore 0x040, 1), (reg pStore 0x800, 0x3F1F)] on).setDq 1
     { held := [{ src := .host, ws := [0x90001, 0x1407000, 1, 3, 16, 2, 3, 0] }], running := [], comps := [] },
     _, rfl, by decide +kernel⟩,
   ⟨(.read, opRead), 0, 1, { src := .host, ws := [0x90001, 0x1580000, 1, 3, 16, 2, 3, 0] }, [], stBad, 0,
     (sets [(reg pStore 0x040, 1), (reg pStore 0x800, 0x3F1F)] on).setDq 1
     { held := [{ src := .host, ws := [0x90001, 0x1580000, 1, 3, 16, 2, 3, 0] }], running := [], comps := [] },
     by decide +kernel⟩,
   ⟨0, 1, 5, 0, { desc := { src := .host, ws := [0x90001, 0x1407000, 2, 3, 16, 2, 3, 0] }, since := 7 },
     resBase 2 + 16,
     (fun i => (((sets [(reg pStore 0x040, 1), (reg pStore 0x800, 0x3F1F)] on).setDq 1 { held := [], running := [{ desc := { src := .host, ws := [0x90001, 0x1407000, 2, 3, 16, 2, 3, 0] }, since := 7 }], comps := [] }).putFlash 5 7 0 { data := 0x1122334455667788 }).flashWord 5 7 (0 + i)),
     (fun i => if flagWord 5 (0 + i) then (flagRead ((fun i => (((sets [(reg pStore 0x040, 1), (reg pStore 0x800, 0x3F1F)] on).setDq 1 { held := [], running := [{ desc := { src := .host, ws := [0x90001, 0x1407000, 2, 3, 16, 2, 3, 0] }, since := 7 }], comps := [] }).putFlash 5 7 0 { data := 0x1122334455667788 }).flashWord 5 7 (0 + i)) i).data).1 else ((fun i => (((sets [(reg pStore 0x040, 1), (reg pStore 0x800, 0x3F1F)] on).setDq 1 { held := [], running := [{ desc := { src := .host, ws := [0x90001, 0x1407000, 2, 3, 16, 2, 3, 0] }, since := 7 }], comps := [] }).putFlash 5 7 0 { data := 0x1122334455667788 }).flashWord 5 7 (0 + i)) i).data),
     ((sets [(reg pStore 0x040, 1), (reg pStore 0x800, 0x3F1F)] on).setDq 1 { held := [], running := [{ desc := { src := .host, ws := [0x90001, 0x1407000, 2, 3, 16, 2, 3, 0] }, since := 7 }], comps := [] }).putFlash
     5 7 0 { data := 0x1122334455667788 }, by decide +kernel, by decide +kernel, by decide +kernel,
     by decide +kernel, by decide +kernel, by decide +kernel, fun _ => rfl, fun _ => rfl, by decide +kernel,
     by decide +kernel⟩,
   ⟨0, 1, 5, 0, { desc := { src := .host, ws := [0x90011, 0x1407000, 2, 3, 16, 2, 3, 0] }, since := 7 },
     resBase 2 + 16,
     (fun i => (((sets [(reg pStore 0x040, 1), (reg pStore 0x800, 0x3F1F)] on).setDq 1 { held := [], running := [{ desc := { src := .host, ws := [0x90011, 0x1407000, 2, 3, 16, 2, 3, 0] }, since := 7 }], comps := [] }).putFlash 5 7 0 { data := 0x1122334455667788 }).flashWord 5 7 (0 + i)),
     ((sets [(reg pStore 0x040, 1), (reg pStore 0x800, 0x3F1F)] on).setDq 1 { held := [], running := [{ desc := { src := .host, ws := [0x90011, 0x1407000, 2, 3, 16, 2, 3, 0] }, since := 7 }], comps := [] }).putFlash
     5 7 0 { data := 0x1122334455667788 }, by decide +kernel, by decide +kernel, by decide +kernel,
     by decide +kernel, by decide +kernel, fun _ => rfl, by decide +kernel⟩,
   ⟨0, 1, 5, 0, { desc := { src := .host, ws := [0x90001, 0x1407000, 1, 3, 16, 2, 3, 0] }, since := 7 },
     (sets [(reg pStore 0x040, 1), (reg pStore 0x800, 0x3F1F)] on).setDq 1
     { held := [], running := [{ desc := { src := .host, ws := [0x90003, 0x1407000, 117440513, 3, 16, 2, 3, 0] }, since := 7 }, { desc := { src := .host, ws := [0x90001, 0x1407000, 1, 3, 16, 2, 3, 0] }, since := 7 }], comps := [] },
     by decide +kernel⟩,
   ⟨0, 1, { src := .host, ws := [0x90002, 0x1407000, 117440513, 3, 16, 2, 3, 0] }, [],
     ({ sets [(reg pStore 0x040, 1), (reg pStore 0x800, 0x3F1F)] on with ledger := { claims := [{ number := 7, activity := 3, agent := 1, res := [resBank bWrite 5], mw := 100, queued := false }] } }).setDq
     1
     { held := [{ src := .host, ws := [0x90002, 0x1407000, 117440513, 3, 16, 2, 3, 0] }], running := [], comps := [] },
     by decide +kernel⟩,
   ⟨0, { src := .steward, ws := [0x90002, 0x1407000, 117440513, 3, 16, 2, 3, 0] }, [],
     (sets [(reg pStore 0x040, 1), (reg pStore 0x800, 0x3F1F)] on).setDq 0
     { held := [{ src := .steward, ws := [0x90002, 0x1407000, 117440513, 3, 16, 2, 3, 0] }], running := [], comps := [] },
     by decide +kernel⟩,
   ⟨0, 1, { src := .host, ws := [0x90002, 0x1407000, 117440513, 1, 4096, 2, 3, 0] }, [],
     ({ sets [(reg pStore 0x040, 1), (reg pStore 0x800, 0x3F1F)] on with ep := { busMaster := true }, ledger := { claims := [{ number := 7, activity := 3, agent := 1, res := [resBank bWrite 5], mw := 100, queued := false }] } }).setDq
     1
     { held := [{ src := .host, ws := [0x90002, 0x1407000, 117440513, 1, 4096, 2, 3, 0] }], running := [], comps := [] },
     _, rfl, by decide +kernel⟩,
   ⟨0, 1, 5,
     { desc := { src := .host, ws := [0x90002, 0x1407000, 117440513, 3, 16, 2, 3, 0] }, since := 7, data := [0xFFFFFFFF00000000] },
     3,
     (fun i => (((sets [(reg pStore 0x040, 1), (reg pStore 0x800, 0x3F1F)] on).setDq 1 { held := [], running := [{ desc := { src := .host, ws := [0x90002, 0x1407000, 117440513, 3, 16, 2, 3, 0] }, since := 7, data := [0xFFFFFFFF00000000] }], comps := [] }).putFlash 5 7 0 { data := 0x1122334455667788 }).flashWord 5 7 (0 + i)),
     ((sets [(reg pStore 0x040, 1), (reg pStore 0x800, 0x3F1F)] on).setDq 1 { held := [], running := [{ desc := { src := .host, ws := [0x90002, 0x1407000, 117440513, 3, 16, 2, 3, 0] }, since := 7, data := [0xFFFFFFFF00000000] }], comps := [] }).putFlash
     5 7 0 { data := 0x1122334455667788 }, by decide +kernel, by decide +kernel, by decide +kernel, fun _ =>
     rfl⟩,
   ⟨0, 1, 5,
     { desc := { src := .host, ws := [0x90002, 0x1407000, 117440513, 3, 16, 2, 3, 0] }, since := 7, data := [5] },
     0, 3, (sets [(reg pStore 0x040, 1), (reg pStore 0x800, 0x3F1F)] on).setDq 1
     { held := [], running := [{ desc := { src := .host, ws := [0x90002, 0x1407000, 117440513, 3, 16, 2, 3, 0] }, since := 7, data := [5] }], comps := [] },
     by decide +kernel⟩,
   ⟨0, 3, 96,
     { desc := { src := .seq 3, ws := [0x90002, 0x18007000, 117440513, 3, 16, 2, 3, 0] }, since := 7, data := [5] },
     3, (sets [(reg pStore 0x040, 1), (reg pStore 0x800, 0x3F1F)] on).setDq 3
     { held := [], running := [{ desc := { src := .seq 3, ws := [0x90002, 0x18007000, 117440513, 3, 16, 2, 3, 0] }, since := 7, data := [5] }], comps := [] },
     by decide +kernel⟩,
   ⟨0, 1, { src := .host, ws := [0x90003, 0x18007000, 117440512, 3, 16, 2, 3, 0] }, [],
     ({ sets [(reg pStore 0x040, 1), (reg pStore 0x800, 0x3F1F)] on with ledger := { claims := [{ number := 7, activity := 3, agent := 1, res := [resBank bWrite 96], mw := 100, queued := false }] } }).setDq
     1
     { held := [{ src := .host, ws := [0x90003, 0x18007000, 117440512, 3, 16, 2, 3, 0] }], running := [], comps := [] },
     _, rfl, by decide +kernel⟩,
   ⟨0, 1, 5,
     { desc := { src := .host, ws := [0x90003, 0x1407000, 117440513, 3, 16, 2, 3, 0] }, since := 7, limits := 0x3F1F },
     false, 63, false, false,
     ((sets [(reg pStore 0x040, 1), (reg pStore 0x800, 0x3F1F)] on).setDq 1 { held := [], running := [{ desc := { src := .host, ws := [0x90003, 0x1407000, 117440513, 3, 16, 2, 3, 0] }, since := 7, limits := 0x3F1F }], comps := [] }).setSec
     5 7 { state := .erasing }, by decide +kernel⟩,
   ⟨0, 1, 5,
     { desc := { src := .host, ws := [0x90003, 0x1407000, 117440513, 3, 16, 2, 3, 0] }, since := 7, limits := 0x3F1F },
     61, false,
     ((sets [(reg pStore 0x040, 1), (reg pStore 0x800, 0x3F1F)] on).setDq 1 { held := [], running := [{ desc := { src := .host, ws := [0x90003, 0x1407000, 117440513, 3, 16, 2, 3, 0] }, since := 7, limits := 0x3F1F }], comps := [] }).setSec
     5 7 { state := .erasing }, by decide +kernel⟩,
   ⟨0, 1, { src := .host, ws := [0x90004, 0x1407000, 1, 3, 16, 2, 3, 0] }, [],
     (sets [(reg pStore 0x040, 1), (reg pStore 0x800, 0x3F1F)] on).setDq 1
     { held := [{ src := .host, ws := [0x90004, 0x1407000, 1, 3, 16, 2, 3, 0] }], running := [], comps := [] },
     _, rfl, by decide +kernel⟩,
   ⟨1024000000, 5, 3, 2,
     { desc := { src := .host, ws := [0x90003, 0x1407000, 117440513, 3, 16, 2, 3, 0] }, since := 7 },
     (((sets [(reg pStore 0x040, 1), (reg pStore 0x800, 0x3F1F)] on).setDq 2 { held := [], running := [{ desc := { src := .host, ws := [0x90003, 0x1407000, 117440513, 3, 16, 2, 3, 0] }, since := 7 }], comps := [] }).setSec 5 7 { state := .erasing }).setDq
     1
     { running := [{ desc := { src := .host, ws := [0x90004, 0x1407000, 1, 3, 16, 2, 3, 0] }, since := 7 }] },
     _, rfl, by decide +kernel⟩,
   ⟨0, 1, { src := .host, ws := [0x90005, 0x1407000, 1, 3, 16, 2, 3, 0] }, [],
     ((sets [(reg pStore 0x040, 1), (reg pStore 0x800, 0x3F1F)] on).setDq 1 { held := [{ src := .host, ws := [0x90005, 0x1407000, 1, 3, 16, 2, 3, 0] }], running := [], comps := [] }).setSec
     5 7 { state := .suspended }, _, rfl, by decide +kernel⟩⟩

theorem witness_StoreProtection :
    (∃ (t : Nat) (q : Fin 4) (x : Desc) (r : List Desc) (s : State), Front q x r s ∧ x.op = opProtect ∧
      (∀ j, j ∈ (s.dq q).running → j.desc.op ≠ opProtect) ∧ Clear q x s ∧ checks q x s = none ∧ granted
      (s.claim actMeta agStw [resBank bMeta x.bank] 100).1 = true) ∧
    (∃ (t : Nat) (q : Fin 4) (x : Desc) (r : List Desc) (e : Reason) (s : State), Front q x r s ∧ x.op =
      opProtect ∧ (∀ j, j ∈ (s.dq q).running → j.desc.op ≠ opProtect) ∧ Clear q x s ∧ checks q x s = none ∧
      (s.claim actMeta agStw [resBank bMeta x.bank] 100).1 = .refused e) ∧
    (∃ (e : (Nat → Fin 4 → Instr) × Nat) (t : Nat) (q : Fin 4) (x : Desc) (r : List Desc) (s : State), True ∧
      Front q x r s ∧ x.op = e.2 ∧ (∀ j, j ∈ (s.dq q).running → j.desc.op ≠ e.2) ∧ Clear q x s ∧ checks q x s =
      none ∧ granted (s.claim actMeta agStw [resBank bMeta x.bank] 100).1 = true ∧ 8 ≤ (s.bankOf x.bank).fails) ∧
    (∃ (t : Nat) (q : Fin 4) (x : Desc) (r : List Desc) (s : State), Front q x r s ∧ x.op = opUnprotect ∧
      (∀ j, j ∈ (s.dq q).running → j.desc.op ≠ opUnprotect) ∧ Clear q x s ∧ checks q x s = none ∧ granted
      (s.claim actMeta agStw [resBank bMeta x.bank] 100).1 = true ∧ x.space = 3 ∧ (s.bankOf x.bank).fails < 8) ∧
    (∃ (t : Nat) (q : Fin 4) (x : Desc) (r : List Desc) (s : State), Front q x r s ∧ x.op = opPassword ∧
      (∀ j, j ∈ (s.dq q).running → j.desc.op ≠ opPassword) ∧ Clear q x s ∧ checks q x s = none ∧ granted
      (s.claim actMeta agStw [resBank bMeta x.bank] 100).1 = true ∧ x.space = 3 ∧ (s.bankOf x.bank).fails < 8 ∧
      (s.bankOf x.bank).digest = none) ∧
    (∃ (t : Nat) (s : State) (z : State), z = s.upTo t ∧ s.rb (reg pStore 0x040) 1 = false) ∧
    (∃ (t : Nat) (s : State) (z : State), z = s.upTo t ∧ s.rb (reg pStore 0x040) 1 = true) ∧
    (∃ (t : Nat) (a : Nat) (s : State) (z : State), z = s.upTo t ∧ s.rb (reg pStore 0x040) 1 = false ∧
      s.store.pfStop = true ∧ s.store.pfRise = some a ∧ a + us 100 ≤ z.now ∧ s.pwr.phase = .user) :=
  ⟨⟨0, 1, { src := .host, ws := [0x90008, 0x1407000, 1, 3, 16, 2, 3, 0] }, [],
     ((sets [(reg pStore 0x040, 1), (reg pStore 0x800, 0x3F1F)] on).setBank 5 { digest := some 5 }).setDq 1
     { held := [{ src := .host, ws := [0x90008, 0x1407000, 1, 3, 16, 2, 3, 0] }], running := [], comps := [] },
     by decide +kernel⟩,
   ⟨0, 1, { src := .host, ws := [0x90008, 0x1407000, 1, 3, 16, 2, 3, 0] }, [], .conflict,
     (({ sets [(reg pStore 0x040, 1), (reg pStore 0x800, 0x3F1F)] on with ledger := { claims := [{ number := 7, activity := 3, agent := 1, res := [resBank bMeta 5], mw := 100, queued := false }] } }).setBank 5 { digest := some 5 }).setDq
     1
     { held := [{ src := .host, ws := [0x90008, 0x1407000, 1, 3, 16, 2, 3, 0] }], running := [], comps := [] },
     by decide +kernel⟩,
   ⟨(.unprotect, opUnprotect), 0, 1, { src := .host, ws := [0x90009, 0x1407000, 1, 3, 16, 2, 3, 0] }, [],
     ((sets [(reg pStore 0x040, 1), (reg pStore 0x800, 0x3F1F)] on).setDq 1 { held := [{ src := .host, ws := [0x90009, 0x1407000, 1, 3, 16, 2, 3, 0] }], running := [], comps := [] }).setBank
     5 { fails := 8, digest := some 5 }, by decide +kernel⟩,
   ⟨0, 1, { src := .host, ws := [0x90009, 0x1407000, 1, 3, 16, 2, 3, 0] }, [],
     (sets [(reg pStore 0x040, 1), (reg pStore 0x800, 0x3F1F)] on).setDq 1
     { held := [{ src := .host, ws := [0x90009, 0x1407000, 1, 3, 16, 2, 3, 0] }], running := [], comps := [] },
     by decide +kernel⟩,
   ⟨0, 1, { src := .host, ws := [0x9000a, 0x1407000, 1, 3, 16, 2, 3, 0] }, [],
     (sets [(reg pStore 0x040, 1), (reg pStore 0x800, 0x3F1F)] on).setDq 1
     { held := [{ src := .host, ws := [0x9000a, 0x1407000, 1, 3, 16, 2, 3, 0] }], running := [], comps := [] },
     by decide +kernel⟩,
   ⟨0, (sets [(reg pStore 0x040, 1), (reg pStore 0x800, 0x3F1F)] on).setDq 1
     { held := [], running := [{ desc := { src := .host, ws := [0x90003, 0x1407000, 117440513, 3, 16, 2, 3, 0] }, since := 7 }], comps := [] },
     _, rfl, by decide +kernel⟩,
   ⟨0, sets [(reg pStore 0x040, 7)] on, _, rfl, by decide +kernel⟩,
   ⟨0, 1,
     { (sets [(reg pStore 0x040, 5)] on) with store := { pfStop := true, pfRise := some 1, queues := [(1, { running := [{ desc := { src := .host, ws := [0x90003, 0x1407000, 117440513, 3, 16, 2, 3, 0] }, since := 7, stopped := some { status := 0 } }] })] } },
     _, rfl, by decide +kernel⟩⟩

theorem witness_ImagesAndFrames :
    (∃ (t : Nat) (a : Agent) (v : Word) (s : State) (z : State), z = s.upTo t ∧ privileged a = true ∧ Opens a
      pImg s ∧ fld v 31 28 = 1 ∧ s.rb (ireg 0x040) 29 = false ∧ s.ep.busMaster = true ∧ s.ep.d3hot = false) ∧
    (∃ (t : Nat) (a : Agent) (v : Word) (s : State) (z : State), z = s.upTo t ∧ privileged a = true ∧ Opens a
      pImg s ∧ fld v 31 28 = 1 ∧ s.rb (ireg 0x040) 29 = false ∧ s.ep.busMaster = true ∧ s.ep.d3hot = true) ∧
    (∃ (t : Nat) (a : Agent) (v : Word) (s : State), privileged a = true ∧ Opens a pImg s ∧ fld v 31 28 = 1 ∧
      s.rb (ireg 0x040) 29 = false ∧ s.ep.busMaster = false ∧ s.inSelftest pPcie = false) ∧
    (∃ (e : (Nat → Agent → Word → Instr) × Nat) (t : Nat) (a : Agent) (v : Word) (s : State), True ∧ privileged
      a = true ∧ Opens a pImg s ∧ fld v 31 28 = e.2 ∧ s.rb (ireg 0x040) 29 = true) ∧
    (∃ (t : Nat) (bad : List (Fin 96)) (c : ImgCmd) (n : Nat) (s : State), s.store.cmd = some c ∧ c.op = 1 ∧
      c.fetch = false ∧ c.claim = some n ∧ s.claimGranted n = true ∧ s.metaStopped = false) ∧
    (∃ (t : Nat) (a : Agent) (v : Word) (r : Nat) (k : Nat) (s : State), privileged a = true ∧ Opens a pImg s ∧
      fld v 31 28 = 2 ∧ s.rb (ireg 0x040) 29 = false ∧ r = fld v 14 8 ∧ k = fld v 1 0 ∧ r < 96 ∧ s.slotState r
      k = 1 ∧ s.imageInUse (s.slotHeader r k) k = false ∧ s.metaStopped = false ∧ granted
      (s.claim actMeta agStw [resBank bMeta (s.slotRec r k).anchor] 100).1 = true) ∧
    (∃ (t : Nat) (a : Agent) (v : Word) (r : Nat) (k : Nat) (s : State), privileged a = true ∧ Opens a pImg s ∧
      fld v 31 28 = 2 ∧ s.rb (ireg 0x040) 29 = false ∧ r = fld v 14 8 ∧ k = fld v 1 0 ∧ r < 96 ∧ s.slotState r
      k = 1 ∧ s.imageInUse (s.slotHeader r k) k = true) ∧
    (∃ (t : Nat) (a : Agent) (v : Word) (k : Nat) (s : State), privileged a = true ∧ Opens a pImg s ∧ fld v 31
      28 = 3 ∧ s.rb (ireg 0x040) 29 = false ∧ k = fld v 1 0 ∧ (∀ r, r ∈ s.cmdMask → s.slotState r k = 1) ∧
      s.metaStopped = false ∧ granted (s.claim actMeta agStw (s.cmdMask.map (resBank bMeta)) 100).1 = true) ∧
    (∃ (t : Nat) (a : Agent) (v : Word) (r : Nat) (s : State), privileged a = true ∧ Opens a pImg s ∧ fld v 31
      28 = 3 ∧ s.rb (ireg 0x040) 29 = false ∧ r ∈ s.cmdMask ∧ s.slotState r (fld v 1 0) ≠ 1) ∧
    (∃ (t : Nat) (bad : List (Fin 96)) (s : State) (z : State), z = s.upTo t ∧ (z.now < s.load.since.getD 0 +
      us 4 * s.nextWave.2 + loadTime ∨ s.load.first.any (fun f => z.now < f + us 4 * s.nextWave.2 + loadTime) =
      true)) ∧
    (∃ (t : Nat) (bad : List (Fin 96)) (r : Nat) (k : Nat) (s : State) (z : State), z = s.upTo t ∧
      s.load.since.getD 0 + us 4 * s.nextWave.2 + loadTime ≤ z.now ∧ s.load.first.all
      (fun f => f + us 4 * s.nextWave.2 + loadTime ≤ z.now) = true ∧ s.pwr.phase = .starting ∧ s.bist.tests =
      [] ∧ s.bist.todo = [] ∧ s.load.queue = [r] ∧ r < 96 ∧ s.firstCand r = some k ∧ k = s.bootSlot r ∧ k < 4 ∧
      s.load.retry = [] ∧ s.isOn (pReg r) = false ∧ (s.loadFrame r k).regionCheck r = none) ∧
    (∃ (t : Nat) (bad : List (Fin 96)) (r : Nat) (k : Nat) (l : List Nat) (s : State), s.load.failed = r :: l ∧
      s.firstCand r = some k ∧ s.slotState r k = 1 ∧ s.regionHeld r = false ∧ r < 96 ∧ s.metaStopped = false) ∧
    (∃ (t : Nat) (n : Fin 8) (bad : List (Fin 96)) (s : State), (s.swap n).verify = true ∧ s.metaStopped =
      false) :=
  ⟨⟨0, .host, 0x10000501, { sets [(ireg 0x050, 0x400), (ireg 0x054, 2)] on with ep := { busMaster := true } },
     _, rfl, by decide +kernel⟩,
   ⟨0, .host, 0x10000501,
     { sets [(ireg 0x050, 0x400), (ireg 0x054, 2)] on with ep := { busMaster := true, d3hot := true } }, _,
     rfl, by decide +kernel⟩,
   ⟨0, .host, 0x10000501, on, by decide +kernel⟩,
   ⟨(.revoke, 2), 0, .host, 0x20000000, sets [(ireg 0x040, 0x20000000)] on, by decide +kernel⟩,
   ⟨0, [5], { op := 1, slot := 1, since := 0, header := (List.replicate 8 0 ++ [0x20]), claim := some 7 }, 7,
     { { on with ledger := { claims := [{ number := 7, activity := 3, agent := 0x13, res := [], mw := 100, queued := false }] } } with store := { cmd := some { op := 1, slot := 1, since := 0, header := (List.replicate 8 0 ++ [0x20]), claim := some 7 } } },
     by decide +kernel⟩,
   ⟨0, .host, 0x20000500, 5, 0,
     { on with store := { slots := [(20, { flag := true, seq := 3, anchor := 5, image := true, header := (List.replicate 8 0 ++ [0x20]) })], boots := [(5, 1)] } },
     by decide +kernel⟩,
   ⟨0, .host, 0x20000500, 5, 0,
     { on with store := { slots := [(20, { flag := true, seq := 3, anchor := 5, image := true, header := (List.replicate 8 0 ++ [0x20]) })] } },
     by decide +kernel⟩,
   ⟨0, .host, 0x30000000, 0,
     { sets [(ireg 0x058, 0x20)] on with store := { slots := [(20, { flag := true, seq := 3, anchor := 5, image := true, header := (List.replicate 8 0 ++ [0x20]) })], boots := [(5, 1)] } },
     by decide +kernel⟩,
   ⟨0, .host, 0x30000001, 5,
     { sets [(ireg 0x058, 0x20)] on with store := { slots := [(20, { flag := true, seq := 3, anchor := 5, image := true, header := (List.replicate 8 0 ++ [0x20]) })], boots := [(5, 1)] } },
     by decide +kernel⟩,
   ⟨0, [],
     { { sets [(gclkReg, 1)] on with pwr := { phase := .starting } } with store := { words := [(wordKey 5 0 2, { data := 0 }), (wordKey 5 0 3, { data := 0 })], load := { lists := [(5, [0])], queue := [5], since := some 1023999999 } } },
     _, rfl, by decide +kernel⟩,
   ⟨0, [5], 5, 0,
     { { sets [(gclkReg, 1)] on with pwr := { phase := .starting } } with store := { words := [(wordKey 5 0 2, { data := 0 }), (wordKey 5 0 3, { data := 0 })], slots := [(20, { flag := true, seq := 3, anchor := 5, image := true, header := (List.replicate 8 0 ++ [0x20]) })], load := { lists := [(5, [0])], queue := [5] } } },
     _, rfl, by decide +kernel⟩,
   ⟨0, [5], 5, 0, [7],
     { on with store := { slots := [(20, { flag := true, seq := 3, anchor := 5, image := true, header := (List.replicate 8 0 ++ [0x20]) })], load := { lists := [(5, [0])], failed := [5, 7] } } },
     by decide +kernel⟩,
   ⟨0, 0, [], { sets [(swapStat 0, 0x80000000)] on with store := { swaps := [(0, { verify := true })] } },
     by decide +kernel⟩⟩

theorem witness_Swaps :
    (∃ (t : Nat) (a : Agent) (n : Fin 8) (v : Word) (s : State) (z : State), z = s.upTo t ∧ Opens a pImg s ∧
      s.swapState n = 0 ∧ bit v 30 = true ∧ bit v 31 = false ∧ s.lcState ≠ 5) ∧
    (∃ (t : Nat) (n : Fin 8) (s : State), s.swapState n = 1 ∧ (s.swap n).claim = none ∧ s.armFail n = none ∧
      granted (s.claim actSwap (agSwap n) ((s.swapMask n).map (fun r => resUnit (pReg r)) ++ (s.swapMask n).map
      (resBank bLoad)) (200 * (s.swapMask n).length)).1 = true) ∧
    (∃ (t : Nat) (n : Fin 8) (r : Reason) (s : State), s.swapState n = 1 ∧ (s.swap n).claim = none ∧ s.armFail
      n = some r ∧ s.inSelftest pImg = false) ∧
    (∃ (t : Nat) (a : Agent) (n : Fin 8) (v : Word) (s : State), Opens a pImg s ∧
      (s.swapState n = 1 ∨ s.swapState n = 2) ∧ bit v 30 = false ∧ bit v 31 = false) ∧
    (∃ (t : Nat) (a : Agent) (n : Fin 8) (v : Word) (s : State) (z : State), z = s.upTo t ∧ Opens a pImg s ∧
      s.swapState n ≠ 0 ∧ bit v 30 = true ∧ bit v 31 = true) ∧
    (∃ (t : Nat) (n : Fin 8) (b : Nat) (late : Bool) (s : State) (z : State), z = s.upTo t ∧
      (s.swap n).trigs.find? (fun e => atOrAfter pinCycle e.1 ≤ z.now) = some (b, late) ∧ s.swapState n = 2 ∧
      (s.swapForce n = true ∨ ∀ r, r ∈ s.swapMask n → hdr (s.slotHeader r (s.swapSlot n)) 0x010 = s.runCompat)) ∧
    (∃ (t : Nat) (n : Fin 8) (b : Nat) (late : Bool) (s : State) (z : State), z = s.upTo t ∧
      (s.swap n).trigs.find? (fun e => atOrAfter pinCycle e.1 ≤ z.now) = some (b, late) ∧ s.swapState n ≠ 2 ∧
      s.inSelftest pImg = false) ∧
    (∃ (t : Nat) (n : Fin 8) (bad : List (Fin 96)) (k : Nat) (s : State) (z : State), z = s.upTo t ∧
      s.swapState n = 3 ∧ (s.swap n).at_ + s.swapSpan n ≤ z.now ∧ k = s.swapSlot n ∧ s.inSelftest pImg = false) ∧
    (∃ (t : Nat) (n : Fin 8) (bad : List (Fin 96)) (s : State) (z : State), z = s.upTo t ∧ s.swapState n = 4 ∧
      (s.swap n).verify = false ∧ (s.swap n).at_ + 2 * s.swapSpan n ≤ z.now ∧ s.inSelftest pImg = false) :=
  ⟨⟨0, .host, 2, 0x60000001, on, _, rfl, by decide +kernel⟩,
   ⟨0, 2,
     { sets [(swapStat 2, 0x20000000), (swapReg 2 0, 0x20), (gclkReg, 0xFFFFFFFF)] on with store := { slots := [(20, { flag := true, seq := 3, anchor := 5, image := true, header := (List.replicate 8 0 ++ [0x20]) })], swaps := [(2, {})] } },
     by decide +kernel⟩,
   ⟨0, 2, .clock,
     { sets [(swapStat 2, 0x20000000), (swapReg 2 0, 0x20)] on with store := { slots := [(20, { flag := true, seq := 3, anchor := 5, image := true, header := (List.replicate 8 0 ++ [0x20]) })], swaps := [(2, {})] } },
     by decide +kernel⟩,
   ⟨0, .host, 2, 0,
     { sets [(swapStat 2, 0x40000000), (swapReg 2 0, 0x20), (swapReg 2 0xC, 0x40000000)] on with store := { slots := [(20, { flag := true, seq := 3, anchor := 5, image := true, header := (List.replicate 8 0 ++ [0x20]) })], swaps := [(2, {})] } },
     by decide +kernel⟩,
   ⟨0, .host, 2, 0xC0000000,
     { sets [(swapStat 2, 0x20000000), (swapReg 2 0, 0x20)] on with store := { slots := [(20, { flag := true, seq := 3, anchor := 5, image := true, header := (List.replicate 8 0 ++ [0x20]) })], swaps := [(2, {})] } },
     _, rfl, by decide +kernel⟩,
   ⟨0, 2, 1000, true,
     { sets [(swapStat 2, 0x40000000), (swapReg 2 0, 0x20), (reg (pReg 5) oStatus, 2)] on with store := { slots := [(20, { flag := true, seq := 3, anchor := 5, image := true, header := (List.replicate 8 0 ++ [0x20]) })], swaps := [(2, { trigs := [(2000000000, false), (1000, true)] })] } },
     _, rfl, by decide +kernel⟩,
   ⟨0, 2, 1000, true,
     { sets [(swapStat 2, 0x20000000), (swapReg 2 0, 0x20), (reg (pReg 5) oStatus, 2)] on with store := { slots := [(20, { flag := true, seq := 3, anchor := 5, image := true, header := (List.replicate 8 0 ++ [0x20]) })], swaps := [(2, { trigs := [(2000000000, false), (1000, true)] })] } },
     _, rfl, by decide +kernel⟩,
   ⟨0, 2, [5], 0,
     { sets [(swapStat 2, 0x60000000), (swapReg 2 0, 0x20)] on with store := { slots := [(20, { flag := true, seq := 3, anchor := 5, image := true, header := (List.replicate 8 0 ++ [0x20]) })], swaps := [(2, { at_ := 1000 })] } },
     _, rfl, by decide +kernel⟩,
   ⟨0, 2, [5],
     { sets [(swapStat 2, 0x80000000), (swapReg 2 0, 0x20)] on with store := { slots := [(20, { flag := true, seq := 3, anchor := 5, image := true, header := (List.replicate 8 0 ++ [0x20]) })], swaps := [(2, { at_ := 1000, old := [(5, true, 0)] })] } },
     _, rfl, by decide +kernel⟩⟩

theorem witness_LatticeLinks :
    (∃ (t : Nat) (n : Fin 8) (id : PeerId) (l : Nat) (s : State) (z : State), z = s.upTo t ∧ s.inTraining n =
      true ∧ s.wired n id = true ∧ s.level id = some l) ∧
    (∃ (t : Nat) (n : Fin 8) (id : PeerId) (s : State), s.inTraining n = true ∧
      (s.wired n id = false ∨ s.level id = none)) ∧
    (∃ (t : Nat) (n : Fin 8) (s : State) (z : State), z = s.upTo t ∧ s.inTraining n = true ∧ (s.port n).since +
      ms 2 ≤ z.now) ∧
    (∃ (t : Nat) (n : Fin 8) (id : PeerId) (s : State) (z : State), z = s.upTo t ∧ s.inTraining n = true ∧
      (s.port n).since + ms 2 ≤ z.now ∧ (s.wired n id = false ∨ s.level id = none)) ∧
    (∃ (t : Nat) (n : Fin 8) (clock : Bool) (s : State) (z : State), z = s.upTo t ∧ s.linkUp n = true ∧
      s.inSelftest (pPort n) = false) ∧
    (∃ (t : Nat) (n : Fin 8) (s : State), s.linkUp n = true ∧ s.inSelftest (pPort n) = false) ∧
    (∃ (t : Nat) (n : Fin 8) (l : BitVec 16) (f : Flit) (k : Nat) (r : List (Flit × Nat)) (s : State), s.linkUp
      n = true ∧ (s.port n).retry.dropWhile (·.1.lseq != l) = (f, k) :: r ∧ k < 16 ∧ s.inSelftest (pPort n) =
      false) ∧
    (∃ (t : Nat) (n : Fin 8) (l : BitVec 16) (f : Flit) (k : Nat) (r : List (Flit × Nat)) (s : State), s.linkUp
      n = true ∧ (s.port n).retry.dropWhile (·.1.lseq != l) = (f, k) :: r ∧ 16 ≤ k) ∧
    (∃ (t : Nat) (n : Fin 8) (f : Flit) (s : State), Arrives n f s ∧ (f.cls = 0 ∨ 8 < f.cls) ∧ s.inSelftest
      (pPort n) = false) ∧
    (∃ (t : Nat) (n : Fin 8) (f : Flit) (s : State), Arrives n f s ∧ reservedFlit f = true ∧
      (f.cls = 1 ∨ f.cls = 2)) :=
  ⟨⟨0, 3, { addr := 0x100, port := 2, size := 0x0111, pmin := 1, pmax := 1 }, 1, latOn
     [(preg 3 0x044, 0x10000000), (rtr 0x800, 0x11)] { census := [seen] }, _, rfl, by decide +kernel⟩,
   ⟨0, 3, { addr := 0x100, port := 3, size := 0x0111, pmin := 1, pmax := 1 }, latOn
     [(preg 3 0x044, 0x10000000)] { census := [seen] }, by decide +kernel⟩,
   ⟨2100000000, 3, latOn [(preg 3 0x044, 0x10000000)] { census := [seen] }, _, rfl, by decide +kernel⟩,
   ⟨2100000000, 3, { addr := 0x100, port := 2, size := 0x0111, pmin := 9, pmax := 9 }, latOn
     [(preg 3 0x044, 0x10000000)] { census := [seen] }, _, rfl, by decide +kernel⟩,
   ⟨0, 3, true, latOn [] { census := [seen] }, _, rfl, by decide +kernel⟩,
   ⟨0, 3, latOn [] { census := [seen] }, by decide +kernel⟩,
   ⟨0, 3, 5, { cls := 4, dest := 0, src := 0x100, body := .words [], lseq := 5 }, 2, [], latOn []
     { ports := [(3, { retry := [({ cls := 4, dest := 0, src := 0x100, body := .words [], lseq := 4 }, 2), ({ cls := 4, dest := 0, src := 0x100, body := .words [], lseq := 5 }, 2)] })] },
     by decide +kernel⟩,
   ⟨0, 3, 5, { cls := 4, dest := 0, src := 0x100, body := .words [], lseq := 5 }, 16, [], latOn []
     { ports := [(3, { retry := [({ cls := 4, dest := 0, src := 0x100, body := .words [], lseq := 5 }, 16)] })] },
     by decide +kernel⟩,
   ⟨0, 3, { cls := 9, dest := 0, src := 0x100, body := .words [], lseq := 5 }, latOn []
     { ports := [(3, { lseqRx := 5 })] }, by decide +kernel⟩,
   ⟨0, 3, { cls := 1, dest := 0, src := 0x100, body := .words [], lseq := 5, typ := 15 }, latOn []
     { ports := [(3, { lseqRx := 5 })] }, by decide +kernel⟩⟩

theorem witness_LatticeRouting :
    (∃ (e : (Nat → Fin 8 → Flit → Instr) × Nat) (t : Nat) (p : Nat) (n : Fin 8) (f : Flit) (s : State), True ∧
      Arrives n f s ∧ f.cls = e.2 ∧ f.dest ≠ s.ownAddr ∧ f.hops < 63 ∧ s.nextHop f.dest = some (p, false)) ∧
    (∃ (e : (Nat → Fin 8 → Flit → Instr) × Nat) (t : Nat) (n : Fin 8) (f : Flit) (s : State), True ∧ Arrives n
      f s ∧ f.cls = e.2 ∧ f.dest ≠ s.ownAddr ∧ f.hops = 63 ∧ s.inSelftest pRtr = false) ∧
    (∃ (t : Nat) (p : Nat) (det : Bool) (write : Bool) (off : Nat) (len : Nat) (data : List Byte) (n : Fin 8)
      (f : Flit) (s : State), Arrives n f s ∧ f.cls = 6 ∧ f.dest = s.ownAddr ∧ f.src ≠ s.ownAddr ∧ f.epoch = 1
      ∧ f.body = .request write off len data ∧ s.rb (rtr 0x048) 0 = false ∧ s.nextHop f.src = some (p, det)) ∧
    (∃ (t : Nat) (off : Nat) (data : List Byte) (n : Fin 8) (f : Flit) (s : State) (z : State), z = s.upTo t ∧
      Arrives n f s ∧ f.cls = 6 ∧ f.dest = s.ownAddr ∧ f.epoch = 1 ∧ f.body = .request true off data.length
      data ∧ s.rb (rtr 0x048) 0 = true ∧ off < 0x200000 ∧ s.windowDenied .lattice off = false) ∧
    (∃ (t : Nat) (off : Nat) (len : Nat) (p : Nat) (det : Bool) (data : List Byte) (n : Fin 8) (f : Flit)
      (s : State) (z : State) (w : State) (v : State), z = s.upTo t ∧ w = z.setPort n
      { s.port n with lseqRx := ((s.port n).lseqRx + 1) % 65536 } ∧ v = (windowRead .lattice off len w).2 ∧
      Arrives n f s ∧ f.cls = 6 ∧ f.dest = s.ownAddr ∧ f.epoch = 1 ∧ f.body = .request false off len data ∧
      s.rb (rtr 0x048) 0 = true ∧ s.windowDenied .lattice off = false ∧ v.nextHop f.src = some (p, det)) ∧
    (∃ (t : Nat) (data : List Byte) (m : Remote) (n : Fin 8) (f : Flit) (s : State), Arrives n f s ∧ f.cls = 5
      ∧ f.dest = s.ownAddr ∧ f.epoch = 1 ∧ f.body = .response data ∧ s.lat.remotes = [m] ∧ m.tag = f.tag.toNat
      ∧ m.got = none ∧ m.len = data.length) ∧
    (∃ (t : Nat) (r : Nat) (a : Word) (b : Word) (c : Word) (m : Remote) (n : Fin 8) (f : Flit) (s : State),
      Arrives n f s ∧ f.cls = 7 ∧ f.dest = s.ownAddr ∧ f.epoch = 1 ∧ f.body = .undeliv r a b c ∧ fld a 31 28 =
      6 ∧ fld c 15 0 = m.tag ∧ s.lat.remotes = [m] ∧ m.got = none ∧ s.inSelftest pRtr = false) ∧
    (∃ (t : Nat) (r : Nat) (a : Word) (b : Word) (c : Word) (ch : Fin 16) (n : Fin 8) (f : Flit) (s : State),
      Arrives n f s ∧ f.cls = 7 ∧ f.dest = s.ownAddr ∧ f.epoch = 1 ∧ f.body = .undeliv r a b c ∧ fld a 31 28 =
      8 ∧ fld a 23 16 = ch ∧ s.rb (rtr (0x100 + 4 * ch)) 31 = true ∧ s.rb (rtr (0x140 + 4 * ch)) 31 = false ∧
      s.inSelftest pRtr = false) ∧
    (∃ (t : Nat) (off : Nat) (len : Nat) (p : Nat) (det : Bool) (dest : BitVec 16) (data : List Byte)
      (s : State) (z : State), z = s.upTo t ∧ s.pwr.serving = true ∧ bar4Ok off = true ∧ 0 < len ∧ len ≤ 32 ∧
      s.isOn pRtr = true ∧ dest = BitVec.ofNat 16 (s.rf (rtr 0x050) 15 0) ∧ dest ≠ s.ownAddr ∧
      (List.range 8).any s.linkUp = true ∧ s.present dest = true ∧ s.nextHop dest = some (p, det)) ∧
    (∃ (t : Nat) (off : Nat) (len : Nat) (dest : BitVec 16) (data : List Byte) (s : State), s.pwr.serving =
      true ∧ bar4Ok off = true ∧ 0 < len ∧ len ≤ 64 ∧ s.isOn pRtr = true ∧ dest = BitVec.ofNat 16
      (s.rf (rtr 0x050) 15 0) ∧ dest ≠ s.ownAddr ∧ (List.range 8).any s.linkUp = true ∧ s.present dest = false
      ∧ s.lat.remotes = []) ∧
    (∃ (t : Nat) (off : Nat) (len : Nat) (write : Bool) (data : List Byte) (s : State), s.pwr.serving = true ∧
      bar4Ok off = false) ∧
    (∃ (t : Nat) (m : Remote) (s : State) (z : State), z = s.upTo t ∧ s.lat.remotes = [m] ∧ m.got = none ∧
      m.since + us (s.rf (rtr 0x054) 15 0) ≤ z.now ∧ s.inSelftest pRtr = false) :=
  ⟨⟨(.responseFlit, 5), 0, 3, 3, { cls := 5, dest := 0x100, src := 0x10, body := .response [] }, latOn []
     { census := [seen] }, by decide +kernel⟩,
   ⟨(.responseFlit, 5), 0, 3, { cls := 5, dest := 0x100, src := 0x10, body := .response [], hops := 63 }, latOn
     [] { census := [seen] }, by decide +kernel⟩,
   ⟨0, 3, false, true, 0x40, 0, [], 3, { cls := 6, dest := 0, src := 0x100, body := .request true 0x40 0 [] },
     latOn [] { census := [seen] }, by decide +kernel⟩,
   ⟨0, 0x20074, [1, 2, 3, 4], 3,
     { cls := 6, dest := 0, src := 0x100, body := .request true 0x20074 4 [1, 2, 3, 4] }, latOn
     [(rtr 0x048, 1)] { census := [seen] }, _, rfl, by decide +kernel⟩,
   ⟨0, 0x20014, 4, 3, false, [], 3, { cls := 6, dest := 0, src := 0x100, body := .request false 0x20014 4 [] },
     latOn [(rtr 0x048, 1)] { census := [seen] }, _, _, _, rfl, rfl, rfl, by decide +kernel⟩,
   ⟨0, [1, 2, 3, 4], { read := 1, tag := 7, off := 0x20040, len := 4, since := 5 }, 3,
     { cls := 5, dest := 0, src := 0x100, body := .response [1, 2, 3, 4], tag := 7 }, latOn []
     { remotes := [{ read := 1, tag := 7, off := 0x20040, len := 4, since := 5 }] }, by decide +kernel⟩,
   ⟨0, 3, 0x60000000, 0, 7, { read := 1, tag := 7, off := 0x20040, len := 4, since := 5 }, 3,
     { cls := 7, dest := 0, src := 0x100, body := .undeliv 3 0x60000000 0 7 }, latOn []
     { remotes := [{ read := 1, tag := 7, off := 0x20040, len := 4, since := 5 }] }, by decide +kernel⟩,
   ⟨0, 3, 0x80020000, 0, 9, 2, 3, { cls := 7, dest := 0, src := 0x100, body := .undeliv 3 0x80020000 0 9 },
     latOn [(rtr 0x108, 0x80000100)] { census := [seen] }, by decide +kernel⟩,
   ⟨0, 0x20014, 32, 3, false, 0x100, [], latOn [(rtr 0x050, 0x100)] { census := [seen], remoteTag := 65535 },
     _, rfl, by decide +kernel⟩,
   ⟨0, 0x20014, 32, 0x110, [], latOn [(rtr 0x050, 0x110)] { census := [seen] }, by decide +kernel⟩,
   ⟨0, 0x200000, 4, false, [], latOn [] { census := [seen] }, by decide +kernel⟩,
   ⟨0, { read := 1, tag := 7, off := 0x20040, len := 4, since := 5 }, latOn [(rtr 0x054, 9)]
     { remotes := [{ read := 1, tag := 7, off := 0x20040, len := 4, since := 5 }] }, _, rfl, by decide +kernel⟩⟩

theorem witness_LatticeStreams :
    (∃ (t : Nat) (n : Fin 8) (f : Flit) (ch : Fin 16) (r : Nat) (ws : List Word) (s : State), Arrives n f s ∧
      f.cls = 8 ∧ f.dest = s.ownAddr ∧ f.typ = ch.val ∧ s.rb (rtr (0x100 + 4 * ch)) 31 = true ∧ s.rf
      (rtr (0x100 + 4 * ch)) 15 0 = f.src.toNat ∧ nbit (s.rf (rtr 0x05C) 15 0) f.epoch = true ∧ s.rb
      (rtr (0x140 + 4 * ch)) 31 = false ∧ f.body = .words ws ∧ (s.stream ch).buf = [] ∧ f.tag.toNat =
      (s.stream ch).rxNext ∧ r = s.rf (rtr (0x100 + 4 * ch)) 26 20) ∧
    (∃ (t : Nat) (n : Fin 8) (f : Flit) (ch : Fin 16) (ws : List Word) (s : State) (z : State), z = s.upTo t ∧
      Arrives n f s ∧ f.cls = 8 ∧ f.dest = s.ownAddr ∧ f.typ = ch.val ∧ s.rb (rtr (0x100 + 4 * ch)) 31 = true ∧
      s.rf (rtr (0x100 + 4 * ch)) 15 0 = f.src.toNat ∧ nbit (s.rf (rtr 0x05C) 15 0) f.epoch = true ∧ s.rb
      (rtr (0x140 + 4 * ch)) 31 = false ∧ f.body = .words ws ∧ (s.stream ch).buf = [] ∧ (s.stream ch).gapSince
      = none ∧ (s.stream ch).rxNext < f.tag.toNat ∧ f.tag.toNat < (s.stream ch).rxNext + 16) ∧
    (∃ (t : Nat) (p : Nat) (det : Bool) (n : Fin 8) (f : Flit) (s : State), Arrives n f s ∧ f.cls = 8 ∧ f.dest
      = s.ownAddr ∧ f.src ≠ s.ownAddr ∧ (15 < f.typ ∨ s.rb (rtr (0x100 + 4 * f.typ)) 31 = false) ∧ s.nextHop
      f.src = some (p, det)) ∧
    (∃ (t : Nat) (r : Fin 96) (ch : Fin 16) (ws : List Word) (p : Nat) (det : Bool) (dest : BitVec 16)
      (s : State) (z : State), z = s.upTo t ∧ s.regionParked r = false ∧ z.portBusy r 7 = false ∧ s.rb
      (rtr (0x100 + 4 * ch)) 31 = true ∧ s.rf (rtr (0x100 + 4 * ch)) 26 20 = r ∧ s.rb (rtr (0x140 + 4 * ch)) 31
      = false ∧ 0 < (s.stream ch).credits ∧ s.isOn pRtr = true ∧ s.inSelftest pRtr = false ∧ dest =
      BitVec.ofNat 16 (s.rf (rtr (0x100 + 4 * ch)) 15 0) ∧ dest ≠ s.ownAddr ∧ (List.range 8).any s.linkUp =
      true ∧ s.present dest = true ∧ s.nextHop dest = some (p, det) ∧ ws.length = 12) ∧
    (∃ (t : Nat) (r : Fin 96) (ch : Fin 16) (ws : List Word) (s : State) (z : State), z = s.upTo t ∧
      s.regionParked r = false ∧ (z.portBusy r 7 = true ∨ s.inSelftest pRtr = false ∧ (s.rb
      (rtr (0x100 + 4 * ch)) 31 = false ∨ s.rf (rtr (0x100 + 4 * ch)) 26 20 ≠ r ∨ s.rb (rtr (0x140 + 4 * ch))
      31 = true))) ∧
    (∃ (t : Nat) (r : Fin 96) (ch : Fin 16) (ws : List Word) (s : State), s.regionParked r = true) ∧
    (∃ (t : Nat) (r : Fin 96) (ch : Fin 16) (ws : List Word) (s : State) (z : State), z = s.upTo t ∧
      s.regionParked r = false ∧ z.portBusy r 7 = false ∧ s.inSelftest pRtr = true ∧ s.rb (reg (pReg r) oCtrl)
      3 = false) ∧
    (∃ (t : Nat) (ch : Fin 16) (b : Nat) (s : State) (z : State), z = s.upTo t ∧ (s.stream ch).gapSince = some
      b ∧ b + us 100 ≤ z.now ∧ s.rb (rtr (0x100 + 4 * ch)) 31 = true ∧ s.rb (rtr (0x140 + 4 * ch)) 31 = false ∧
      s.inSelftest pRtr = false) ∧
    (∃ (t : Nat) (a : Agent) (ch : Fin 16) (v : Word) (s : State), Opens a pRtr s ∧ fld v 26 20 < 96 ∧ bit v 31
      = true ∧ s.rb (rtr (0x100 + 4 * ch)) 31 = false) ∧
    (∃ (t : Nat) (a : Agent) (ch : Fin 16) (v : Word) (s : State), Opens a pRtr s ∧ 96 ≤ fld v 26 20) :=
  ⟨⟨0, 3, { cls := 8, dest := 0, src := 0x100, body := .words (List.replicate 12 5), typ := 2 }, 2, 6,
     List.replicate 12 5, latOn [(rtr 0x108, 0x80610100), (rtr 0x05C, 2)] { census := [seen] },
     by decide +kernel⟩,
   ⟨0, 3, { cls := 8, dest := 0, src := 0x100, body := .words (List.replicate 12 5), typ := 2, tag := 15 }, 2,
     List.replicate 12 5, latOn [(rtr 0x108, 0x80610100), (rtr 0x05C, 2)] { census := [seen] }, _, rfl,
     by decide +kernel⟩,
   ⟨0, 3, false, 3, { cls := 8, dest := 0, src := 0x100, body := .words [], typ := 16 }, latOn
     [(rtr 0x108, 0x80610100), (rtr 0x05C, 2)] { census := [seen] }, by decide +kernel⟩,
   ⟨0, 6, 2, List.replicate 12 5, 3, false, 0x100, sets [(reg (pReg 6) oStatus, 2)]
     (latOn [(rtr 0x108, 0x80610100), (rtr 0x05C, 2)] { census := [seen] }), _, rfl, by decide +kernel⟩,
   ⟨0, 6, 2, List.replicate 12 5, sets [(reg (pReg 6) oStatus, 2)]
     (latOn [(rtr 0x108, 0x00610100), (rtr 0x05C, 2)] { census := [seen] }), _, rfl, by decide +kernel⟩,
   ⟨0, 6, 2, [], latOn [] { census := [seen] }, by decide +kernel⟩,
   ⟨0, 6, 2, [], sets [(reg (pReg 6) oStatus, 2), (reg pRtr oStatus, 4)] (latOn [] { census := [seen] }), _,
     rfl, by decide +kernel⟩,
   ⟨0, 2, 7, latOn [(rtr 0x108, 0x80610100), (rtr 0x05C, 2)] { streams := [(2, { gapSince := some 7 })] }, _,
     rfl, by decide +kernel⟩,
   ⟨0, .host, 2, 0x85FFFFFF, latOn [] { census := [seen] }, by decide +kernel⟩,
   ⟨0, .host, 2, 0x86000000, latOn [(rtr 0x108, 0x80610100), (rtr 0x05C, 2)] { census := [seen] },
     by decide +kernel⟩⟩

theorem witness_LatticeCensus :
    (∃ (t : Nat) (s : State) (z : State), z = s.upTo t ∧ s.isOn pRtr = true ∧
      (s.lat.lastCensus = 0 ∨ s.lat.lastCensus + ms 10 ≤ z.now)) ∧
    (∃ (t : Nat) (n : Fin 8) (f : Flit) (c : CensusInfo) (s : State) (z : State), z = s.upTo t ∧ Arrives n f s
      ∧ f.cls = 4 ∧ f.epoch = 1 ∧ f.body = .census c ∧ c.addr ≠ s.ownAddr ∧ s.present c.addr = false ∧
      s.inSelftest pRtr = false) ∧
    (∃ (t : Nat) (n : Fin 8) (f : Flit) (c : CensusInfo) (k : Nat) (e : Census) (s : State) (z : State), z =
      s.upTo t ∧ Arrives n f s ∧ f.cls = 4 ∧ f.epoch = 1 ∧ f.body = .census c ∧ c.addr ≠ s.ownAddr ∧
      s.lat.census.find? (·.1 = c.addr.toNat) = some (k, e)) ∧
    (∃ (t : Nat) (n : Fin 8) (f : Flit) (peer : BitVec 16) (k : Nat) (e : Census) (s : State), Arrives n f s ∧
      f.cls = 4 ∧ f.epoch = 1 ∧ f.body = .notice peer ∧ f.src ≠ s.ownAddr ∧ s.lat.census.find?
      (·.1 = peer.toNat) = some (k, e) ∧ (s.neighbours peer).all
      (fun a => !s.present a || (e.notices ++ [f.src]).contains a) = true ∧ s.inSelftest pRtr = false) ∧
    (∃ (t : Nat) (n : Fin 8) (f : Flit) (peer : BitVec 16) (a : BitVec 16) (k : Nat) (e : Census) (s : State),
      Arrives n f s ∧ f.cls = 4 ∧ f.epoch = 1 ∧ f.body = .notice peer ∧ f.src ≠ s.ownAddr ∧ s.lat.census.find?
      (·.1 = peer.toNat) = some (k, e) ∧ a ∈ s.neighbours peer ∧ s.present a = true ∧ a ∉ e.notices ++ [f.src]
      ∧ f.src ∉ e.notices) ∧
    (∃ (t : Nat) (a : BitVec 16) (k : Nat) (e : Census) (s : State) (z : State), z = s.upTo t ∧
      s.lat.census.find? (·.1 = a.toNat) = some (k, e) ∧ e.seen + ms 30 ≤ z.now ∧ s.inSelftest pRtr = false) :=
  ⟨⟨0, latOn [] { census := [seen] }, _, rfl, by decide +kernel⟩,
   ⟨0, 3,
     { cls := 4, dest := 0xFFFF, src := 0x110, body := .census { addr := 0x110, eligible := true, protoMax := 1, epochs := 2, delay := 5, role := 1 } },
     { addr := 0x110, eligible := true, protoMax := 1, epochs := 2, delay := 5, role := 1 }, latOn []
     { census := [seen] }, _, rfl, by decide +kernel⟩,
   ⟨0, 3,
     { cls := 4, dest := 0xFFFF, src := 0x100, body := .census { addr := 0x100, eligible := true, protoMax := 1, epochs := 2, delay := 5, role := 1 } },
     { addr := 0x100, eligible := true, protoMax := 1, epochs := 2, delay := 5, role := 1 }, 0x100, seen.2,
     latOn [] { census := [seen] }, _, rfl, by decide +kernel⟩,
   ⟨0, 3, { cls := 4, dest := 0xFFFF, src := 0x110, body := .notice 0x100 }, 0x100, 0x100, seen.2, latOn []
     { census := [seen] }, by decide +kernel⟩,
   ⟨0, 3, { cls := 4, dest := 0xFFFF, src := 0x10, body := .notice 0x100 }, 0x100, 0x110, 0x100, seen.2, latOn
     [] { census := [seen, (0x110, seen.2)] }, by decide +kernel⟩,
   ⟨40000000000, 0x100, 0x100, seen.2, latOn [] { census := [seen] }, _, rfl, by decide +kernel⟩⟩

theorem witness_CarillonTree :
    (∃ (t : Nat) (n : Fin 8) (s : State) (z : State), z = s.upTo t ∧ s.linkUp n = true ∧ s.carUse n = true ∧
      (s.port n).lastSync + us 2 ≤ z.now) ∧
    (∃ (t : Nat) (n : Fin 8) (f : Flit) (s : State) (z : State), z = s.upTo t ∧ f.cls = 2 ∧ f.typ = 2 ∧
      s.linkUp n = true ∧ s.carUse n = true) ∧
    (∃ (t : Nat) (n : Fin 8) (f : Flit) (b : Nat) (trip : Int) (ds : List Int) (s : State) (z : State), z =
      s.upTo t ∧ f.cls = 2 ∧ f.typ = 3 ∧ s.linkUp n = true ∧ (s.port n).syncOut = some b ∧ trip =
      (z.devTime : Int) - b - ((flitW2 f 5 : Int) - flitW2 f 3) ∧ ds =
      ((625 * trip - 32 * signed 16 (s.rf (preg n 0x040) 31 16)) :: (s.port n).delays).take 64) ∧
    (∃ (t : Nat) (s : State) (z : State), z = s.upTo t ∧ s.isOn pCar = true ∧ s.role = 3 ∧
      (s.lat.beatFrom : Int) ≤ z.ltime) ∧
    (∃ (t : Nat) (n : Fin 8) (f : Flit) (root : Nat) (hops : Nat) (s : State) (z : State), z = s.upTo t ∧ f.cls
      = 2 ∧ f.typ = 1 ∧ root = flitW f 5 % 65536 ∧ hops = flitW f 7 + 1 ∧ flitW f 7 < 255 ∧ s.isOn pCar = true
      ∧ s.usable n = true ∧ (s.role = 1 ∧ s.lat.lostRoot ≠ some root ∨ s.role = 3 ∧ root < s.ownAddr.toNat ∨
      s.role = 2 ∧ root = s.rootAddr ∧ ((s.port n).beatIn = true ∨ hops < s.treeHops ∨ hops = s.treeHops ∧ n <
      s.parent) ∨ s.role = 2 ∧ root ≠ s.rootAddr ∧ (s.lat.lastBeat + us 3 ≤ z.now ∨ root < s.rootAddr)) ∧
      (s.role = 1 ∨ root ≠ s.rootAddr → CanReroot s)) ∧
    (∃ (t : Nat) (n : Fin 8) (f : Flit) (root : Nat) (c : Claim × Nat) (s : State) (z : State), z = s.upTo t ∧
      f.cls = 2 ∧ f.typ = 1 ∧ root = flitW f 5 % 65536 ∧ s.isOn pCar = true ∧ s.usable n = true ∧ (s.role = 1 ∧
      s.lat.lostRoot ≠ some root ∨ s.role = 3 ∧ root < s.ownAddr.toNat ∧ root ≠ s.rootAddr) ∧ s.ledger.reroot =
      false ∧ s.clashing [resUnit pCar] = some c ∧ s.inSelftest pLedger = false) ∧
    (∃ (t : Nat) (n : Fin 8) (f : Flit) (root : Nat) (s : State) (z : State), z = s.upTo t ∧ f.cls = 2 ∧ f.typ
      = 1 ∧ root = flitW f 5 % 65536 ∧ (s.isOn pCar = false ∨ s.usable n = false ∨ s.role = 3 ∧ s.ownAddr.toNat
      ≤ root ∨ s.role = 2 ∧ z.now < s.lat.lastBeat + us 3 ∧ s.rootAddr < root ∨ s.role = 2 ∧ root = s.rootAddr
      ∧ (s.port n).beatIn = false ∧ s.treeHops < flitW f 7 % 256 + 1)) ∧
    (∃ (t : Nat) (s : State) (z : State), z = s.upTo t ∧ s.isOn pCar = true ∧ s.role = 1 ∧ s.lat.electSince +
      us 8 ≤ z.now ∧ s.eligible = true ∧ s.lat.lostRoot ≠ some s.ownAddr.toNat ∧ s.lowerListed s.lat.lostRoot =
      false ∧ CanReroot s) ∧
    (∃ (t : Nat) (s : State) (z : State), z = s.upTo t ∧ s.isOn pCar = true ∧ s.role = 2 ∧ s.lat.lastBeat + us
      8 ≤ z.now ∧ s.eligible = false ∧ s.clashing [resUnit pCar] = none) ∧
    (∃ (t : Nat) (s : State) (z : State), z = s.upTo t ∧ s.isOn pCar = true ∧ s.role = 2 ∧ s.lat.lastBeat + us
      8 ≤ z.now ∧ s.eligible = true ∧ s.rootAddr ≠ s.ownAddr.toNat ∧ s.lowerListed (some s.rootAddr) = false ∧
      s.clashing [resUnit pCar] = none) ∧
    (∃ (t : Nat) (lost : Nat) (n : Fin 8) (f : Flit) (s : State), Arrives n f s ∧ f.cls = 2 ∧ f.typ = 5 ∧
      s.isOn pCar = true ∧ lost = flitW f 3 % 65536 ∧ (2 ≤ s.role ∧ lost = s.rootAddr ∨ 1 ≤ s.role ∧
      s.lat.lastLost ≠ some lost) ∧ s.eligible = false ∧ s.clashing [resUnit pCar] = none ∧ f.hops < 63) ∧
    (∃ (t : Nat) (n : Fin 8) (f : Flit) (s : State), Arrives n f s ∧ f.cls = 2 ∧ f.typ = 5 ∧
      (s.role = 1 ∨ flitW f 3 % 65536 ≠ s.rootAddr) ∧ s.lat.lastLost = some (flitW f 3 % 65536)) ∧
    (∃ (t : Nat) (a : Nat) (l : List Nat) (s : State) (z : State), z = s.upTo t ∧ s.isOn pCar = true ∧ s.role =
      3 ∧ a < 65536 ∧ (s.lat.census.filter fun e => e.2.info.eligible && decide (e.1 < s.ownAddr.toNat) &&
      decide (e.2.since + ms 10 ≤ z.now)).map (·.1) = a :: l ∧ CanReroot s) ∧
    (∃ (t : Nat) (n : Fin 8) (f : Flit) (s : State), Arrives n f s ∧ f.cls = 2 ∧ f.typ = 6 ∧ s.isOn pCar = true
      ∧ s.role = 2 ∧ flitW f 3 % 65536 = s.ownAddr.toNat ∧ CanReroot s) ∧
    (∃ (t : Nat) (n : Fin 8) (f : Flit) (s : State), Arrives n f s ∧ f.cls = 2 ∧ f.typ = 6 ∧ s.isOn pCar = true
      ∧ s.role = 2 ∧ flitW f 3 % 65536 ≠ s.ownAddr.toNat ∧ f.hops < 63) :=
  ⟨⟨1030000000, 3, latOn [(reg pCar oStatus, 2), (preg 3 0x040, 1)]
     { census := [seen], ports := [(3, { exchanges := 64 })] }, _, rfl, by decide +kernel⟩,
   ⟨0, 3, { cls := 2, dest := 0xFFFF, src := 0x100, body := .words [1, 2], typ := 2 }, latOn
     [(reg pCar oStatus, 2), (preg 3 0x040, 1)] { census := [seen], ports := [(3, { exchanges := 64 })] }, _,
     rfl, by decide +kernel⟩,
   ⟨0, 3, { cls := 2, dest := 0xFFFF, src := 0x100, body := .words [100, 0, 140, 0], typ := 3 }, 51200000-500,
     460, [287500, 287500], latOn [(reg pCar oStatus, 2), (preg 3 0x040, 1)]
     { ports := [(3, { syncOut := some (51200000 - 500), delays := [287500] })] }, _, rfl, by decide +kernel⟩,
   ⟨0, latOn [(reg pCar oStatus, 2), (preg 3 0x040, 1), (car 0x044, 0x70000000)]
     { census := [seen], ports := [(3, { exchanges := 64 })] }, _, rfl, by decide +kernel⟩,
   ⟨0, 3, { cls := 2, dest := 0xFFFF, src := 0x100, body := .words [9, 0, 256, 77, 0], typ := 1 }, 0x100, 1,
     latOn [(reg pCar oStatus, 2), (preg 3 0x040, 1), (car 0x044, 0x20000200), (preg 3 0x04C, 0x30)]
     { census := [seen], ports := [(3, { exchanges := 64 })] }, _, rfl, by decide +kernel⟩,
   ⟨0, 3, { cls := 2, dest := 0xFFFF, src := 0x100, body := .words [9, 0, 256, 77, 0], typ := 1 }, 0x100,
     ({ number := 7, activity := 3, agent := 1, res := [resUnit pCar], mw := 100, queued := false }, 0),
     { latOn [(reg pCar oStatus, 2), (preg 3 0x040, 1), (car 0x044, 0x20000000)] { census := [seen], ports := [(3, { exchanges := 64 })] } with ledger := { claims := [{ number := 7, activity := 3, agent := 1, res := [resUnit pCar], mw := 100, queued := false }] } },
     _, rfl, by decide +kernel⟩,
   ⟨0, 3, { cls := 2, dest := 0xFFFF, src := 0x100, body := .words [9, 0, 256, 77, 0], typ := 1 }, 0x100, latOn
     [(reg pCar oStatus, 2), (preg 3 0x040, 1), (car 0x044, 0x70000000)]
     { census := [seen], ports := [(3, { exchanges := 64 })] }, _, rfl, by decide +kernel⟩,
   ⟨1034000000, latOn [(reg pCar oStatus, 2), (preg 3 0x040, 1), (car 0x044, 0x20000000), (car 0x040, 1)]
     { census := [seen], ports := [(3, { exchanges := 64 })] }, _, rfl, by decide +kernel⟩,
   ⟨1034000000, latOn [(reg pCar oStatus, 2), (preg 3 0x040, 1), (car 0x044, 0x53010100)]
     { census := [seen], ports := [(3, { exchanges := 64 })] }, _, rfl, by decide +kernel⟩,
   ⟨1034000000, latOn [(reg pCar oStatus, 2), (preg 3 0x040, 1), (car 0x044, 0x53010100), (car 0x040, 1)]
     { census := [seen], ports := [(3, { exchanges := 64 })] }, _, rfl, by decide +kernel⟩,
   ⟨0, 0x100, 3, { cls := 2, dest := 0xFFFF, src := 0x100, body := .words [256], typ := 5 }, latOn
     [(reg pCar oStatus, 2), (preg 3 0x040, 1), (car 0x044, 0x53010100)]
     { census := [seen], ports := [(3, { exchanges := 64 })] }, by decide +kernel⟩,
   ⟨0, 3, { cls := 2, dest := 0xFFFF, src := 0x100, body := .words [255], typ := 5 }, latOn
     [(reg pCar oStatus, 2), (preg 3 0x040, 1), (car 0x044, 0x53010100)]
     { census := [seen], ports := [(3, { exchanges := 64 })], lastLost := some 255 }, by decide +kernel⟩,
   ⟨20480000000, 0x100, [], latOn [(reg pCar oStatus, 2), (preg 3 0x040, 1), (car 0x044, 0x70000110),
     (rtr 0x040, 0x110)] { census := [seen], ports := [(3, { exchanges := 64 })] }, _, rfl, by decide +kernel⟩,
   ⟨0, 3, { cls := 2, dest := 0xFFFF, src := 0x100, body := .words [0, 300, 0], typ := 6 }, latOn
     [(reg pCar oStatus, 2), (preg 3 0x040, 1), (car 0x044, 0x53010100)]
     { census := [seen], ports := [(3, { exchanges := 64 })] }, by decide +kernel⟩,
   ⟨0, 3, { cls := 2, dest := 0xFFFF, src := 0x100, body := .words [7, 300, 0], typ := 6 }, latOn
     [(reg pCar oStatus, 2), (preg 3 0x040, 1), (car 0x044, 0x53010100)]
     { census := [seen], ports := [(3, { exchanges := 64 })] }, by decide +kernel⟩⟩

theorem witness_GlobalDomains :
    (∃ (t : Nat) (d : Fin 16) (g : Nat) (s : State) (z : State), z = s.upTo t ∧ g = s.pubGdom d ∧ s.isOn
      (pDom d) = true ∧ s.pubEn d = true ∧ s.treeStands = true ∧ (s.lat.segSent.find? (·.1 = g)).all
      (fun e => e.2 + us 2 ≤ z.now) = true) ∧
    (∃ (t : Nat) (n : Fin 8) (f : Flit) (s : State) (z : State), z = s.upTo t ∧ Arrives n f s ∧ f.cls = 2 ∧
      f.typ = 4 ∧ s.isOn pCar = true ∧ f.hops < 63) ∧
    (∃ (t : Nat) (a : Agent) (d : Fin 16) (v : Word) (s : State) (z : State), z = s.upTo t ∧ Opens a pCar s ∧
      bit v 31 = true ∧ (∀ e, e < 16 → e ≠ d.val → s.pubEn e = true → s.pubGdom e ≠ fld v 7 0) ∧ (z.gdomCurrent
      (fld v 7 0) = true → (z.gseg (fld v 7 0)).any (·.publisher != s.ownAddr) = false)) ∧
    (∃ (t : Nat) (a : Agent) (d : Fin 16) (v : Word) (s : State) (z : State), z = s.upTo t ∧ Opens a pCar s ∧
      bit v 31 = true ∧ ((List.range 16).any (fun e => e != d.val && s.pubEn e && s.pubGdom e = fld v 7 0) =
      true ∨ z.gdomCurrent (fld v 7 0) = true ∧ (z.gseg (fld v 7 0)).any (·.publisher != s.ownAddr) = true)) ∧
    (∃ (t : Nat) (a : Agent) (v : Word) (s : State), Opens a pCar s ∧ s.isOn pCar = true ∧
      (s.role = 3 ∨ s.lat.beatSeen = false)) ∧
    (∃ (t : Nat) (a : Agent) (v : Word) (s : State), Opens a pCar s ∧ s.isOn pCar = true ∧ s.role = 2 ∧
      s.lat.beatSeen = true ∧ s.linkUp s.parent = true) ∧
    (∃ (t : Nat) (n : Fin 8) (f : Flit) (s : State), Arrives n f s ∧ f.cls = 2 ∧ f.typ = 7 ∧ s.isOn pCar = true
      ∧ s.role = 3) ∧
    (∃ (t : Nat) (n : Fin 8) (f : Flit) (s : State), Arrives n f s ∧ f.cls = 2 ∧ f.typ = 7 ∧ s.isOn pCar = true
      ∧ s.role = 2 ∧ s.linkUp s.parent = true ∧ f.hops < 63) ∧
    (∃ (t : Nat) (s : State) (z : State), z = s.upTo t ∧ Reads pCar s ∧ s.lockedTime = true) :=
  ⟨⟨0, 2, 7, sets [(reg (pDom 2) oStatus, 2)]
     (latOn [(reg pCar oStatus, 2), (preg 3 0x040, 1), (car 0x044, 0x70000000), (car 0x108, 0x80000007), (preg 3 0x044, 0x20140000)] { census := [seen], ports := [(3, { exchanges := 64 })] }),
     _, rfl, by decide +kernel⟩,
   ⟨0, 3,
     { cls := 2, dest := 0xFFFF, src := 0x100, body := .words [7, 4096, 0, 1, 5, 0, 0, 4096000, 0, 51200000, 0], typ := 4 },
     latOn [(reg pCar oStatus, 2), (preg 3 0x040, 1), (car 0x044, 0x53010100)]
     { census := [seen], ports := [(3, { exchanges := 64 })] }, _, rfl, by decide +kernel⟩,
   ⟨0, .host, 2, 0x80000007, latOn [(reg pCar oStatus, 2), (preg 3 0x040, 1), (car 0x044, 0x53010100),
     (car 0x104, 0x80000005)]
     { census := [seen], ports := [(3, { exchanges := 64 })],  gdoms := [(7, { pos := 4096, cyc := 1, vel := 5, acc := 0, modulus := 1000, ltime := 51200000, publisher := 0, arrived := 1024000000 })] },
     _, rfl, by decide +kernel⟩,
   ⟨0, .host, 2, 0x80000005, latOn [(reg pCar oStatus, 2), (preg 3 0x040, 1), (car 0x044, 0x53010100),
     (car 0x104, 0x80000005)] { census := [seen], ports := [(3, { exchanges := 64 })] }, _, rfl,
     by decide +kernel⟩,
   ⟨0, .host, 12, latOn [(reg pCar oStatus, 2), (preg 3 0x040, 1), (car 0x044, 0x70000000)]
     { census := [seen], ports := [(3, { exchanges := 64 })] }, by decide +kernel⟩,
   ⟨0, .host, 12, latOn [(reg pCar oStatus, 2), (preg 3 0x040, 1), (car 0x044, 0x53010100)]
     { census := [seen], ports := [(3, { exchanges := 64 })], beatSeen := true }, by decide +kernel⟩,
   ⟨0, 3, { cls := 2, dest := 0xFFFF, src := 0x100, body := .words [12], typ := 7 }, latOn
     [(reg pCar oStatus, 2), (preg 3 0x040, 1), (car 0x044, 0x70000000)]
     { census := [seen], ports := [(3, { exchanges := 64 })] }, by decide +kernel⟩,
   ⟨0, 3, { cls := 2, dest := 0xFFFF, src := 0x100, body := .words [12], typ := 7 }, latOn
     [(reg pCar oStatus, 2), (preg 3 0x040, 1), (car 0x044, 0x53010100)]
     { census := [seen], ports := [(3, { exchanges := 64 })] }, by decide +kernel⟩,
   ⟨0, latOn [(reg pCar oStatus, 2), (preg 3 0x040, 1), (car 0x044, 0x53010100)]
     { census := [seen], ports := [(3, { exchanges := 64 })] }, _, rfl, by decide +kernel⟩⟩

theorem witness_Peals :
    (∃ (t : Nat) (n : Nat) (a : Agent) (v : Word) (tot : Int) (s : State) (z : State), z = s.upTo t ∧ Opens a
      pCar s ∧ bit v 4 = true ∧ n = fld v 3 0 ∧ (z.pealForm n (s.posPair (desc n 0) (desc n 4))).toOption =
      some tot ∧ s.treeStands = true) ∧
    (∃ (t : Nat) (n : Nat) (a : Agent) (v : Word) (tot : Int) (s : State) (z : State), z = s.upTo t ∧ Opens a
      pCar s ∧ bit v 4 = true ∧ n = fld v 3 0 ∧ (z.pealForm n (s.posPair (desc n 0) (desc n 4))).toOption =
      some tot ∧ s.treeStands = false) ∧
    (∃ (t : Nat) (n : Nat) (a : Agent) (v : Word) (r : Reason) (short : Bool) (s : State) (z : State), z =
      s.upTo t ∧ Opens a pCar s ∧ bit v 4 = true ∧ n = fld v 3 0 ∧ errorOf
      (z.pealForm n (s.posPair (desc n 0) (desc n 4))) = some (r, short)) ∧
    (∃ (t : Nat) (w : Nat) (n : Nat) (p : Nat) (q : Fin 48) (tot : Int) (s : State) (z : State), z = s.upTo t ∧
      Executes q 0x2C w z ∧ n = bits w 3 0 ∧ p = (if nbit w 4 then (s.gpr q (iA w)).toNat * 4096 else s.posPair
      (desc n 0) (desc n 4)) ∧ (z.pealForm n p).toOption = some tot ∧ s.treeStands = true) ∧
    (∃ (t : Nat) (w : Nat) (n : Nat) (p : Nat) (q : Fin 48) (tot : Int) (s : State) (z : State), z = s.upTo t ∧
      Executes q 0x2C w z ∧ n = bits w 3 0 ∧ p = (if nbit w 4 then (s.gpr q (iA w)).toNat * 4096 else s.posPair
      (desc n 0) (desc n 4)) ∧ (z.pealForm n p).toOption = some tot ∧ s.treeStands = false) ∧
    (∃ (t : Nat) (w : Nat) (n : Nat) (p : Nat) (q : Fin 48) (r : Reason) (short : Bool) (s : State)
      (z : State), z = s.upTo t ∧ Executes q 0x2C w z ∧ n = bits w 3 0 ∧ p = (if nbit w 4 then
      (s.gpr q (iA w)).toNat * 4096 else s.posPair (desc n 0) (desc n 4)) ∧ errorOf (z.pealForm n p) = some
      (r, short)) ∧
    (∃ (t : Nat) (w : HeldPeal) (x : GSeg) (s : State) (z : State), z = s.upTo t ∧ s.treeStands = true ∧
      s.lockedTime = true ∧ s.lat.held = [w] ∧ s.gseg w.gdom = some x ∧ z.gdomCurrent w.gdom = true ∧ trajAt
      (s.gsegTraj x) z.now + (z.lead x * 4096 : Nat) * posUnit ≤ w.total) ∧
    (∃ (t : Nat) (w : HeldPeal) (x : GSeg) (s : State) (z : State), z = s.upTo t ∧ s.treeStands = true ∧
      s.lockedTime = true ∧ s.lat.held = [w] ∧ w.desc < 16 ∧ s.gseg w.gdom = some x ∧ z.gdomCurrent w.gdom =
      true ∧ w.total < trajAt (s.gsegTraj x) z.now + (z.lead x * 4096 : Nat) * posUnit) ∧
    (∃ (t : Nat) (g : Nat) (m : Nat) (tot : Int) (mask : BitVec 16) (addr : BitVec 16) (seq : BitVec 16)
      (n : Fin 8) (f : Flit) (s : State) (z : State), z = s.upTo t ∧ Arrives n f s ∧ f.cls = 3 ∧ f.hops < 63 ∧
      f.body = .peal g tot m mask addr seq ∧ s.isOn pCar = true ∧
      (s.lat.pealSeen.find? (·.1 = f.src.toNat)).all (fun e => (seq.toNat + 65536 - e.2) % 65536 != 0 && decide
      ((seq.toNat + 65536 - e.2) % 65536 < 32768)) = true) ∧
    (∃ (t : Nat) (g : Nat) (m : Nat) (tot : Int) (mask : BitVec 16) (addr : BitVec 16) (seq : BitVec 16)
      (n : Fin 8) (k : Nat) (l : Nat) (f : Flit) (s : State), Arrives n f s ∧ f.cls = 3 ∧ f.body = .peal g tot
      m mask addr seq ∧ s.lat.pealSeen.find? (·.1 = f.src.toNat) = some (k, l) ∧ l = seq.toNat) :=
  ⟨⟨0, 1, .host, 0x11, (4100096 + 8192) * posUnit, latOn [(reg pCar oStatus, 2), (preg 3 0x040, 1),
     (car 0x044, 0x53010100), (desc 1 0, 8192), (desc 1 8, 0x00850007), (desc 1 12, 0x000F0000),
     (preg 3 0x044, 0x20140000)]
     { census := [seen], ports := [(3, { exchanges := 64 })], gdoms := [(7, { pos := 4096, cyc := 1, vel := 0, acc := 0, modulus := 1000, ltime := 51200000, publisher := 0x100, arrived := 1024000000 })] },
     _, rfl, by decide +kernel⟩,
   ⟨0, 1, .host, 0x11, (4100096 + 8192) * posUnit, latOn [(reg pCar oStatus, 2), (preg 3 0x040, 1),
     (car 0x044, 0x20000000), (car 0x044, 0x10000000), (desc 1 0, 8192), (desc 1 8, 0x00850007),
     (desc 1 12, 0x000F0000), (preg 3 0x044, 0x20140000)]
     { census := [seen], ports := [(3, { exchanges := 64 })], gdoms := [(7, { pos := 4096, cyc := 1, vel := 0, acc := 0, modulus := 1000, ltime := 51200000, publisher := 0x100, arrived := 1024000000 })] },
     _, rfl, by decide +kernel⟩,
   ⟨0, 1, .host, 0x11, .range, true, latOn [(reg pCar oStatus, 2), (preg 3 0x040, 1), (car 0x044, 0x53010100),
     (desc 1 0, 4095), (desc 1 8, 0x00850007), (desc 1 12, 0x000F0000), (preg 3 0x044, 0x20140000)]
     { census := [seen], ports := [(3, { exchanges := 64 })], gdoms := [(7, { pos := 4096, cyc := 1, vel := 0, acc := 0, modulus := 1000, ltime := 51200000, publisher := 0x100, arrived := 1024000000 })] },
     _, rfl, by decide +kernel⟩,
   ⟨0, 0xb009000000000011, 1, 8192, 3, (4100096 + 8192) * posUnit,
     { sets [(reg pCar oStatus, 2), (preg 3 0x040, 1), (car 0x044, 0x53010100), (desc 1 0, 8192), (desc 1 8, 0x00850007), (desc 1 12, 0x000F0000), (preg 3 0x044, 0x20140000), (reg pRtr oStatus, 2), (reg (pPort 3) oStatus, 2), (preg 3 0x048, 0x20100), (qreg 3 (0x100 + 4 * 2), 2)] (seqOn 0xb009000000000011 {}) with lat := { census := [seen], ports := [(3, { exchanges := 64 })], gdoms := [(7, { pos := 4096, cyc := 1, vel := 0, acc := 0, modulus := 1000, ltime := 51200000, publisher := 0x100, arrived := 1024000000 })] } },
     _, rfl, by decide +kernel⟩,
   ⟨0, 0xb009000000000001, 1, 8192, 3, (4100096 + 8192) * posUnit,
     { sets [(reg pCar oStatus, 2), (preg 3 0x040, 1), (car 0x044, 0x20000000), (car 0x044, 0x10000000), (desc 1 0, 8192), (desc 1 8, 0x00850007), (desc 1 12, 0x000F0000), (preg 3 0x044, 0x20140000), (reg pRtr oStatus, 2), (reg (pPort 3) oStatus, 2), (preg 3 0x048, 0x20100), (qreg 3 (0x100 + 4 * 2), 2)] (seqOn 0xb009000000000001 {}) with lat := { census := [seen], ports := [(3, { exchanges := 64 })], gdoms := [(7, { pos := 4096, cyc := 1, vel := 0, acc := 0, modulus := 1000, ltime := 51200000, publisher := 0x100, arrived := 1024000000 })] } },
     _, rfl, by decide +kernel⟩,
   ⟨0, 0xb009000000000011, 1, 1000 * 4096, 3, .range, false,
     { sets [(reg pCar oStatus, 2), (preg 3 0x040, 1), (car 0x044, 0x53010100), (desc 1 0, 8192), (desc 1 8, 0x00850007), (desc 1 12, 0x000F0000), (preg 3 0x044, 0x20140000), (reg pRtr oStatus, 2), (reg (pPort 3) oStatus, 2), (preg 3 0x048, 0x20100), (qreg 3 (0x100 + 4 * 2), 1000)] (seqOn 0xb009000000000011 {}) with lat := { census := [seen], ports := [(3, { exchanges := 64 })], gdoms := [(7, { pos := 4096, cyc := 1, vel := 0, acc := 0, modulus := 1000, ltime := 51200000, publisher := 0x100, arrived := 1024000000 })] } },
     _, rfl, by decide +kernel⟩,
   ⟨0, { desc := 1, gdom := 7, total := (4100096 + 8192) * posUnit, mark := 5, mask := 15, addr := 0 },
     { pos := 4096, cyc := 1, vel := 0, acc := 0, modulus := 1000, ltime := 51200000, publisher := 0x100, arrived := 1024000000 },
     latOn [(reg pCar oStatus, 2), (preg 3 0x040, 1), (car 0x044, 0x53010100), (desc 1 0, 8192),
     (desc 1 8, 0x00850007), (desc 1 12, 0x000F0000), (preg 3 0x044, 0x20140000)]
     { census := [seen], ports := [(3, { exchanges := 64 })], gdoms := [(7, { pos := 4096, cyc := 1, vel := 0, acc := 0, modulus := 1000, ltime := 51200000, publisher := 0x100, arrived := 1024000000 })], held := [{ desc := 1, gdom := 7, total := (4100096 + 8192) * posUnit, mark := 5, mask := 15, addr := 0 }] },
     _, rfl, by decide +kernel⟩,
   ⟨0, { desc := 1, gdom := 7, total := 5, mark := 5, mask := 15, addr := 0 },
     { pos := 4096, cyc := 1, vel := 0, acc := 0, modulus := 1000, ltime := 51200000, publisher := 0x100, arrived := 1024000000 },
     latOn [(reg pCar oStatus, 2), (preg 3 0x040, 1), (car 0x044, 0x53010100), (desc 1 0, 8192),
     (desc 1 8, 0x00850007), (desc 1 12, 0x000F0000), (preg 3 0x044, 0x20140000)]
     { census := [seen], ports := [(3, { exchanges := 64 })], gdoms := [(7, { pos := 4096, cyc := 1, vel := 0, acc := 0, modulus := 1000, ltime := 51200000, publisher := 0x100, arrived := 1024000000 })], held := [{ desc := 1, gdom := 7, total := 5, mark := 5, mask := 15, addr := 0 }] },
     _, rfl, by decide +kernel⟩,
   ⟨0, 7, 5, (4100096 + 8192) * posUnit, 15, 0, 9, 3,
     { cls := 3, dest := 0xFFFF, src := 0x100, body := .peal 7 ((4100096 + 8192) * posUnit) 5 15 0 9 }, sets
     [(reg (pDom 2) oStatus, 2), (dreg 2 0x040, 0x704), (mreg 2 5 8, 9)]
     (latOn [(reg pCar oStatus, 2), (preg 3 0x040, 1), (car 0x044, 0x53010100), (desc 1 0, 8192), (desc 1 8, 0x00850007), (desc 1 12, 0x000F0000), (preg 3 0x044, 0x20140000)] { census := [seen], ports := [(3, { exchanges := 64 })], gdoms := [(7, { pos := 4096, cyc := 1, vel := 0, acc := 0, modulus := 1000, ltime := 51200000, publisher := 0x100, arrived := 1024000000 })], pealSeen := [(256, 65530)] }),
     _, rfl, by decide +kernel⟩,
   ⟨0, 7, 5, (4100096 + 8192) * posUnit, 15, 0, 9, 3, 256, 9,
     { cls := 3, dest := 0xFFFF, src := 0x100, body := .peal 7 ((4100096 + 8192) * posUnit) 5 15 0 9 }, latOn
     [(reg pCar oStatus, 2), (preg 3 0x040, 1), (car 0x044, 0x53010100), (desc 1 0, 8192),
     (desc 1 8, 0x00850007), (desc 1 12, 0x000F0000), (preg 3 0x044, 0x20140000)]
     { census := [seen], ports := [(3, { exchanges := 64 })], gdoms := [(7, { pos := 4096, cyc := 1, vel := 0, acc := 0, modulus := 1000, ltime := 51200000, publisher := 0x100, arrived := 1024000000 })], pealSeen := [(256, 9)] },
     by decide +kernel⟩⟩

theorem witness_Gong :
    (∃ (t : Nat) (a : Agent) (v : Word) (id : BitVec 32) (s : State), privileged a = true ∧ Opens a pRtr s ∧
      bit v 0 = true ∧ bit v 1 = false ∧ s.rb (rtr 0x060) 0 = false ∧ id = BitVec.ofNat 32
      (s.ownAddr.toNat * 65536 + (s.lat.gongSeq + 1) % 65536)) ∧
    (∃ (t : Nat) (a : Agent) (v : Word) (s : State), privileged a = true ∧ Opens a pRtr s ∧ bit v 0 = false ∧
      bit v 1 = true ∧ s.gong = true ∧ s.lat.abortLow = false) ∧
    (∃ (t : Nat) (a : Agent) (v : Word) (s : State), privileged a = true ∧ Opens a pRtr s ∧ bit v 0 = true ∧
      bit v 1 = true ∧ s.gong = true ∧ s.rb (rtr 0x060) 0 = true) ∧
    (∃ (t : Nat) (a : Agent) (v : Word) (s : State), privileged a = false) ∧
    (∃ (t : Nat) (n : Fin 8) (f : Flit) (id : BitVec 32) (s : State), Arrives n f s ∧ f.cls = 1 ∧ f.typ = 1 ∧
      id = BitVec.ofNat 32 (flitW f 3) ∧ id ∉ s.lat.gongs ∧ f.hops < 63) ∧
    (∃ (t : Nat) (n : Fin 8) (f : Flit) (s : State), Arrives n f s ∧ f.cls = 1 ∧ f.typ = 1 ∧ BitVec.ofNat 32
      (flitW f 3) ∈ s.lat.gongs) ∧
    (∃ (t : Nat) (n : Fin 8) (f : Flit) (s : State), Arrives n f s ∧ f.cls = 1 ∧ f.typ = 2 ∧ flitW f 3 =
      (s.rd (rtr 0x068)).toNat ∧ s.gong = true ∧ s.lat.abortLow = false ∧ s.rb (rtr 0x060) 0 = false ∧
      s.inSelftest pRtr = false) ∧
    (∃ (t : Nat) (n : Fin 8) (f : Flit) (s : State), Arrives n f s ∧ f.cls = 1 ∧ f.typ = 2 ∧ flitW f 3 < 2 ^ 32
      ∧ flitW f 3 ≠ (s.rd (rtr 0x068)).toNat ∧ s.lat.cleared = false) ∧
    (∃ (t : Nat) (s : State) (z : State), z = s.upTo t) ∧
    (∃ (t : Nat) (b : Nat) (id : BitVec 32) (s : State) (z : State), z = s.upTo t ∧ s.lat.abortFall = some b ∧
      b + ns 100 ≤ z.now ∧ id = BitVec.ofNat 32 (s.ownAddr.toNat * 65536 + (s.lat.gongSeq + 1) % 65536)) ∧
    (∃ (t : Nat) (s : State), s.gong = true ∧ s.lat.cleared = true ∧ s.rb (rtr 0x060) 0 = false ∧ s.inSelftest
      pRtr = false) ∧
    (∃ (t : Nat) (s : State), (s.gong = false ∨ s.lat.cleared = false ∨ s.rb (rtr 0x060) 0 = true)) :=
  ⟨⟨0, .host, 1, 1,
     { sets [(reg (pSeq 5) oStatus, 2), (qreg 5 0x05C, 2)] (latOn [] { census := [seen] }) with pins := [(5, {})] },
     by decide +kernel⟩,
   ⟨0, .host, 2, latOn [(rtr 0x064, 1), (rtr 0x068, 7), (rtr 0x06C, 1)] { census := [seen] },
     by decide +kernel⟩,
   ⟨0, .host, 3, latOn [(rtr 0x064, 1), (rtr 0x068, 7), (rtr 0x06C, 1), (rtr 0x060, 1)] { census := [seen] },
     by decide +kernel⟩,
   ⟨0, (.seq 3), 0, latOn [] { census := [seen] }, by decide +kernel⟩,
   ⟨0, 3, { cls := 1, dest := 0xFFFF, src := 0x100, body := .words [0x1000009, 0x11], typ := 1 }, 0x1000009,
     latOn [] { census := [seen], gongs := [7] }, by decide +kernel⟩,
   ⟨0, 3, { cls := 1, dest := 0xFFFF, src := 0x100, body := .words [7, 1], typ := 1 }, latOn []
     { census := [seen], gongs := [7] }, by decide +kernel⟩,
   ⟨0, 3, { cls := 1, dest := 0xFFFF, src := 0x100, body := .words [7], typ := 2 }, latOn
     [(rtr 0x064, 1), (rtr 0x068, 7), (rtr 0x06C, 1)] { census := [seen] }, by decide +kernel⟩,
   ⟨0, 3, { cls := 1, dest := 0xFFFF, src := 0x100, body := .words [8], typ := 2 }, latOn
     [(rtr 0x064, 1), (rtr 0x068, 7), (rtr 0x06C, 1)] { census := [seen] }, by decide +kernel⟩,
   ⟨0, latOn [(rtr 0x060, 8)] { census := [seen] }, _, rfl⟩,
   ⟨0, 1023000000, 1, latOn [(rtr 0x060, 8)]
     { census := [seen], abortLow := true, abortFall := some 1023000000 }, _, rfl, by decide +kernel⟩,
   ⟨0, latOn [(rtr 0x064, 1), (rtr 0x068, 7), (rtr 0x06C, 1), (rtr 0x060, 8)]
     { census := [seen], abortLow := true, cleared := true }, by decide +kernel⟩,
   ⟨0, latOn [(rtr 0x064, 1), (rtr 0x068, 7), (rtr 0x06C, 1), (rtr 0x060, 8)]
     { census := [seen], abortLow := true }, by decide +kernel⟩⟩

theorem witness_PcieEndpoint :
    (∃ (t : Nat) (v : Fin 256) (s : State), tabGet false s.ep.pend v = true ∧ s.ep.funcMask = false ∧ s.cond v
      = true ∧ s.ep.d3hot = false ∧ s.pwr.serving = true) ∧
    (∃ (t : Nat) (v : Fin 256) (s : State), tabGet false s.ep.pend v = true ∧ s.ep.d3hot = true ∧ s.pwr.serving
      = true) ∧
    (∃ (t : Nat) (v : Fin 256) (s : State), s.cond v = false ∧ s.pwr.serving = true) ∧
    (∃ (t : Nat) (s : State), s.ep.d3hot = false ∧ s.retryStatus = false) ∧
    (∃ (e : (Nat → Instr) × Nat) (t : Nat) (s : State), True) ∧
    (∃ (t : Nat) (s : State), s.retryStatus = false) ∧
    (∃ (t : Nat) (enter : Bool) (bme : Bool) (c : PcieCfg) (s : State), s.retryStatus = true) ∧
    (∃ (t : Nat) (s : State), s.ep.perst = false ∧ s.rb (reg pPcie 0x040) 0 = true) ∧
    (∃ (t : Nat) (s : State), s.ep.perst = false ∧ s.rb (reg pPcie 0x040) 0 = false) ∧
    (∃ (t : Nat) (enter : Bool) (bme : Bool) (c : PcieCfg) (s : State), s.retryStatus = false) ∧
    (∃ (t : Nat) (enter : Bool) (c : PcieCfg) (k : ImgCmd) (s : State) (z : State), z = s.upTo t ∧
      s.retryStatus = false ∧ s.store.cmd = some k ∧ headerDue k = true) ∧
    (∃ (t : Nat) (enter : Bool) (c : PcieCfg) (k : ImgCmd) (s : State), s.retryStatus = false ∧ s.store.cmd =
      some k ∧ headerDue k = true) ∧
    (∃ (t : Nat) (speed : Fin 6) (width : BitVec 5) (s : State), s.ep.perst = false ∧ s.pwr.phase ≠ .reset ∧
      s.pwr.phase ≠ .fault ∧ s.inSelftest pPcie = false) ∧
    (∃ (t : Nat) (off : Nat) (be : BitVec 4) (v : Word) (s : State) (z : State), z = bar2Finds off (s.upTo t) ∧
      s.pwr.serving = true ∧ s.pwr.phase ≠ .done ∧ Window off be.toNat v z) ∧
    (∃ (t : Nat) (off : Nat) (be : BitVec 4) (v : Word) (s : State) (z : State), z = s.upTo t ∧ s.pwr.serving =
      true ∧ s.pwr.phase ≠ .done ∧ off % 4 = 0 ∧ (off < 0x01800000 ∧ vecBad
      (mergeBytes be.toNat (s.memWord off) v) = false ∨ 0x03000000 ≤ off ∧ off < 0x03600000) ∧ z.outranked
      (memKey off) 0 = true) ∧
    (∃ (t : Nat) (off : Nat) (v : Word) (s : State), s.pwr.serving = true ∧ s.pwr.phase ≠ .done ∧ off % 4 = 0 ∧
      off < 0x01800000 ∧ s.memShut (pSeq (off / 0x80000)) = false ∧ vecBad v = true) ∧
    (∃ (t : Nat) (k : Fin 256) (v : Word) (s : State), s.pwr.serving = true) ∧
    (∃ (t : Nat) (off : Nat) (be : BitVec 4) (s : State), s.pwr.serving = true ∧ off % 4 = 0 ∧ (s.pwr.phase ≠
      .done ∧ (off < 0x01800000 ∧ s.memShut (pSeq (off / 0x80000)) = false ∨ 0x03000000 ≤ off ∧ off <
      0x03600000 ∧ s.memShut (pSeq ((off - 0x03000000) / 0x20000)) = false ∨ 0x03800000 ≤ off ∧ off <
      0x03B00000 ∧ s.memShut (pSeq ((off - 0x03800000) / 0x10000)) = false))) ∧
    (∃ (t : Nat) (off : Nat) (k : Nat) (be : BitVec 4) (s : State) (z : State), z = bar2Finds off (s.upTo t) ∧
      s.pwr.serving = true ∧ off % 4 = 0 ∧ s.pwr.phase ≠ .done ∧ 0x02000000 ≤ off ∧ off < 0x02800000 ∧ k =
      (off - 0x02000000) / 0x80000 ∧ z.deepHeld k = false ∧ z.deepClash k (off % 0x80000 / 8) true false = none
      ∧ z.deepUndef k (off % 0x80000 / 8) = false) ∧
    (∃ (t : Nat) (v : Fin 256) (be : BitVec 4) (s : State), s.pwr.serving = true) ∧
    (∃ (t : Nat) (o : Nat) (be : BitVec 4) (s : State), s.pwr.serving = true ∧ o < 0x1000 ∧ o % 4 = 0) ∧
    (∃ (t : Nat) (off : Nat) (be : BitVec 4) (v : Option Word) (s : State), s.pwr.serving = false) ∧
    (∃ (t : Nat) (bs : List Byte) (c : ImgCmd) (h : List Word) (s : State) (z : State), z = s.upTo t ∧
      s.store.cmd = some c ∧ c.fetch = true ∧ c.asked = true ∧ h = (List.range 256).map
      (fun i => bytesWord (bs.drop (4 * i))) ∧ headerOk h = true ∧ (s.usableKey (hdr h 0x018)).isSome = true ∧
      taken (s.claim actCommit agStw ((hdrMask h).map (resBank bLoad)) 500).1 = true) ∧
    (∃ (t : Nat) (bs : List Byte) (c : ImgCmd) (s : State), s.store.cmd = some c ∧ c.fetch = true ∧ c.asked =
      true ∧ headerOk ((List.range 256).map (fun i => bytesWord (bs.drop (4 * i)))) = false) ∧
    (∃ (t : Nat) (q : Nat) (bs : List Byte) (j : Job) (ws : List (BitVec 64)) (s : State), s.fetching = some
      (q, j) ∧ j ∈ (s.dq q).running ∧ j.desc.op = opProgram ∧ j.stopped = none ∧ j.verdict = none ∧ ws =
      wordsOf (bufLen j.desc / 8) bs ∧ (∀ i (h : i < ws.length), 504 ≤ j.desc.first + i → flagOk ws[i] = true)
      ∧ j.desc.overp = false) ∧
    (∃ (e : DmaEnd × Nat) (t : Nat) (c : ImgCmd) (s : State), True ∧ s.store.cmd = some c ∧ c.fetch = true ∧
      c.asked = true) ∧
    (∃ (e : DmaEnd × Nat) (t : Nat) (q : Nat) (j : Job) (s : State), True ∧ s.fetching = some (q, j) ∧
      j.stopped = none ∧ s.behind q j = false ∧ (∀ k, k ∈ (s.dq q).running → k.ended = none)) ∧
    (∃ (t : Nat) (c : ImgCmd) (s : State) (z : State), z = s.upTo t ∧ s.store.cmd = some c ∧ c.fetch = true ∧
      c.asked = true ∧ c.since + ms 10 ≤ z.now) ∧
    (∃ (t : Nat) (q : Nat) (j : Job) (s : State) (z : State), z = s.upTo t ∧ s.fetching = some (q, j) ∧ j.since
      + ms 10 ≤ z.now ∧ j.stopped = none ∧ s.behind q j = false ∧ (∀ k, k ∈ (s.dq q).running → k.ended = none)) ∧
    (∃ (t : Nat) (n : Nat) (c : ImgCmd) (s : State) (z : State), z = s.upTo t ∧ s.store.queues = [] ∧
      s.store.cmd = some c ∧ c.claim = some n ∧ (s.claimOf n).any (·.queued) = true ∧ c.since + ms 10 < z.now) ∧
    (∃ (t : Nat) (q : Nat) (n : Nat) (x : DQueue) (j : Job) (s : State) (z : State), z = s.upTo t ∧
      s.store.queues = [(q, x)] ∧ x.running = [j] ∧ isMeta j.desc.op = true ∧ j.ended = none ∧ j.claim = some n
      ∧ (s.claimOf n).any (·.queued) = true ∧ j.since + ms 10 < z.now ∧ s.fifoFull q j.desc = false) :=
  ⟨⟨0, 9,
     { sets [(reg pPcie 0x400, 0x00000900), (reg 1 oEvent, 1), (reg 1 oMask, 0)] on with ep := { pend := [(9, true)], masked := [(9, false)] } },
     by decide +kernel⟩,
   ⟨0, 9, { on with ep := { d3hot := true, pend := [(9, true)], masked := [(9, true)] } }, by decide +kernel⟩,
   ⟨0, 9, on, by decide +kernel⟩,
   ⟨0,
     { sets [(reg pPcie 0x400, 0x00000900), (reg 1 oEvent, 1), (reg 1 oMask, 0)] on with ep := { pend := [(9, true)], masked := [(9, false)] } },
     by decide +kernel⟩,
   ⟨(.hotReset, 4), 0, sets [(reg pPcie 0x040, 0x403), (reg pPcie 0x400, 5)]
     { on with ep := { busMaster := true, table := [(3, 4)] } }, by decide +kernel⟩,
   ⟨0, sets [(reg pPcie 0x040, 0x403), (reg pPcie 0x400, 5)]
     { on with ep := { busMaster := true, table := [(3, 4)] } }, by decide +kernel⟩,
   ⟨0, true, true, { fmask := false }, { on with pwr := { phase := .starting, vaux := true } },
     by decide +kernel⟩,
   ⟨0, sets [(reg pPcie 0x040, 0x403), (reg pPcie 0x400, 5)]
     { on with ep := { busMaster := true, table := [(3, 4)] } }, by decide +kernel⟩,
   ⟨0, sets [(reg pPcie 0x040, 0x402), (reg pPcie 0x400, 5)]
     { on with ep := { busMaster := true, table := [(3, 4)] } }, by decide +kernel⟩,
   ⟨0, false, true, { fmask := false },
     { sets [(reg pPcie 0x400, 0x00000900), (reg 1 oEvent, 1), (reg 1 oMask, 0)] on with ep := { pend := [(9, true)], masked := [(9, false)] } },
     by decide +kernel⟩,
   ⟨0, false, { fmask := false }, { op := 1, slot := 1, since := 0, fetch := true },
     { sets [(ireg 0x050, 0x400), (ireg 0x054, 2)] on with ep := { d3hot := true }, store := { cmd := some { op := 1, slot := 1, since := 0, fetch := true } } },
     _, rfl, by decide +kernel⟩,
   ⟨0, false, { fmask := false }, { op := 1, slot := 1, since := 0, fetch := true },
     { sets [(ireg 0x050, 0x400), (ireg 0x054, 2)] on with ep := { d3hot := true }, store := { cmd := some { op := 1, slot := 1, since := 0, fetch := true } } },
     by decide +kernel⟩,
   ⟨0, 5, 16, sets [(reg pPcie 0x040, 0x403), (reg pPcie 0x400, 5)]
     { on with ep := { busMaster := true, table := [(3, 4)] } }, by decide +kernel⟩,
   ⟨0, 0x02000040, 6, 0x11223344, on, _, rfl, by decide +kernel⟩,
   ⟨0, 0x40, 15, 0, on.take (memKey 0x40) pageCycle 1, _, rfl, by decide +kernel⟩,
   ⟨0, 0x00080040, 0xC, on, by decide +kernel⟩,
   ⟨0, 255, 1, on, by decide +kernel⟩,
   ⟨0, 0x40, 15, on, by decide +kernel⟩,
   ⟨0, 0x02000040, 0, 15, on, _, rfl, by decide +kernel⟩,
   ⟨0, 9, 15, { on with ep := { pend := [(9, true)], masked := [(9, false)] } }, by decide +kernel⟩,
   ⟨0, 12, 15, { on with ep := { pend := [(9, true)], masked := [(9, false)] } }, by decide +kernel⟩,
   ⟨0, 0x40, 0, some 5, { on with pwr := { phase := .user } }, by decide +kernel⟩,
   ⟨0, ((List.replicate 256 (0 : Word)).set 0 0x36394E43 |>.set 1 1 |>.set 5 0x0096B000 |>.set 6 0xA5 |>.set 8
     0x20).flatMap wordBytes, { op := 1, slot := 1, since := 0, fetch := true, asked := true },
     ((List.replicate 256 (0 : Word)).set 0 0x36394E43 |>.set 1 1 |>.set 5 0x0096B000 |>.set 6 0xA5 |>.set 8
     0x20),
     { on with store := { cmd := some { op := 1, slot := 1, since := 0, fetch := true, asked := true } }, life := { keys := [(3, { value := some (0xA5, []), commit := true })] } },
     _, rfl, by decide +kernel⟩,
   ⟨0, [1, 2, 3], { op := 1, slot := 1, since := 0, fetch := true, asked := true },
     { on with store := { cmd := some { op := 1, slot := 1, since := 0, fetch := true, asked := true } } },
     by decide +kernel⟩,
   ⟨0, 1, [1, 2, 3, 4, 5, 6, 7, 8],
     { desc := { src := .host, ws := [0x90002, 0x1407000, 117440513, 1, 16, 2, 3, 0] }, since := 7, fetch := true },
     [0x0807060504030201], (sets [(reg pStore 0x040, 1), (reg pStore 0x800, 0x3F1F)] on).setDq 1
     { held := [], running := [{ desc := { src := .host, ws := [0x90002, 0x1407000, 117440513, 1, 16, 2, 3, 0] }, since := 7, fetch := true }], comps := [] },
     by decide +kernel, by decide +kernel, by decide +kernel, by decide +kernel, by decide +kernel,
     by decide +kernel, by decide +kernel, by decide +kernel⟩,
   ⟨(.ur, 2), 0, { op := 1, slot := 1, since := 0, fetch := true, asked := true },
     { on with store := { cmd := some { op := 1, slot := 1, since := 0, fetch := true, asked := true } } },
     by decide +kernel⟩,
   ⟨(.ur, 2), 0, 1,
     { desc := { src := .host, ws := [0x90002, 0x1407000, 117440513, 1, 16, 2, 3, 0] }, since := 7, fetch := true },
     (on.setDq 1 { running := [{ desc := { src := .host, ws := [0x90002, 0x1407000, 117440513, 1, 16, 2, 3, 0] }, since := 7, fetch := true }] }),
     by decide +kernel⟩,
   ⟨20480000000, { op := 1, slot := 1, since := 0, fetch := true, asked := true },
     { on with store := { cmd := some { op := 1, slot := 1, since := 0, fetch := true, asked := true } } }, _,
     rfl, by decide +kernel⟩,
   ⟨20480000000, 1,
     { desc := { src := .host, ws := [0x90002, 0x1407000, 117440513, 1, 16, 2, 3, 0] }, since := 7, fetch := true },
     (on.setDq 1 { running := [{ desc := { src := .host, ws := [0x90002, 0x1407000, 117440513, 1, 16, 2, 3, 0] }, since := 7, fetch := true }] }),
     _, rfl, by decide +kernel⟩,
   ⟨20480000000, 7, { op := 1, slot := 1, since := 0, claim := some 7 },
     { on with store := { cmd := some { op := 1, slot := 1, since := 0, claim := some 7 } }, ledger := { claims := [{ number := 7, activity := 3, agent := 1, res := [], mw := 100, queued := true }] } },
     _, rfl, by decide +kernel⟩,
   ⟨20480000000, 1, 7,
     { running := [{ desc := { src := .host, ws := [0x90008, 0x1407000, 1, 3, 16, 2, 3, 0] }, since := 7, claim := some 7 }] },
     { desc := { src := .host, ws := [0x90008, 0x1407000, 1, 3, 16, 2, 3, 0] }, since := 7, claim := some 7 },
     { on with store := { queues := [(1, { running := [{ desc := { src := .host, ws := [0x90008, 0x1407000, 1, 3, 16, 2, 3, 0] }, since := 7, claim := some 7 }] })] }, ledger := { claims := [{ number := 7, activity := 3, agent := 1, res := [], mw := 100, queued := true }] } },
     _, rfl, by decide +kernel⟩⟩

theorem witness_SmbusTarget :
    (∃ (t : Nat) (d : List Byte) (s : State), s.pwr.vaux = true ∧ s.factoryGood = true ∧ d = wordBytes
      (word (bits (factoryWord 1).toNat 31 0)) ++ wordBytes (word (bits (factoryWord 1).toNat 63 32)) ++
      [BitVec.ofNat 8 (bits (factoryWord 4).toNat 7 0), BitVec.ofNat 8 (bits (factoryWord 4).toNat 11 9),
      BitVec.ofNat 8 (bits (factoryWord 4).toNat 8 8), BitVec.ofNat 8 s.lcState]) ∧
    (∃ (t : Nat) (s : State), s.pwr.vaux = true ∧ s.factoryGood = false) ∧
    (∃ (t : Nat) (d : List Byte) (s : State), s.pwr.vaux = true ∧ d = natBytes 2
      (s.rf (reg pPower 0x054) 15 0)) ∧
    (∃ (t : Nat) (s : State), s.pwr.vaux = true) ∧
    (∃ (t : Nat) (d : List Byte) (s : State), s.pwr.vaux = true ∧ (d = (if s.pwr.phase = .fault ∨
      s.pwr.clockWait = true then natBytes 2 (s.rf (reg pStw 0x044) 15 0) else [0, 0]))) ∧
    (∃ (t : Nat) (a : BitVec 7) (s : State), s.pwr.vaux = true) ∧
    (∃ (t : Nat) (i : BitVec 128) (a : BitVec 7) (s : State), i ≠ s.smbUdid) ∧
    (∃ (t : Nat) (s : State), s.pwr.vaux = true) ∧
    (∃ (t : Nat) (d : List Byte) (s : State), s.pwr.vaux = true ∧ s.pwr.smbAr = false ∧ d =
      (natBytes 16 s.smbUdid.toNat).reverse ++ [BitVec.ofNat 8 (2 * s.pwr.smbAddr + 1)]) ∧
    (∃ (t : Nat) (s : State), s.pwr.smbAr = true) ∧
    (∃ (t : Nat) (a : BitVec 7) (c : Byte) (s : State), s.pwr.vaux = true ∧ a.toNat = s.pwr.smbAddr ∧ 3 <
      c.toNat) ∧
    (∃ (t : Nat) (a : BitVec 7) (c : Byte) (s : State), a.toNat ≠ s.pwr.smbAddr) ∧
    (∃ (t : Nat) (o : SmbArp) (s : State), s.pwr.vaux = false) :=
  ⟨⟨0, (wordBytes (word (bits (factoryWord 1).toNat 31 0)) ++ wordBytes
     (word (bits (factoryWord 1).toNat 63 32)) ++ [BitVec.ofNat 8 (bits (factoryWord 4).toNat 7 0),
     BitVec.ofNat 8 (bits (factoryWord 4).toNat 11 9), BitVec.ofNat 8 (bits (factoryWord 4).toNat 8 8),
     BitVec.ofNat 8 (sets [(reg 0 0x064, 1)] on).lcState]), sets [(reg 0 0x064, 1)] on, by decide +kernel,
     by decide +kernel, rfl⟩,
   ⟨0, on, by decide +kernel⟩,
   ⟨0, [0x23, 1], sets [(reg pPower 0x054, 0x123)] on, by decide +kernel⟩,
   ⟨0, on, by decide +kernel⟩,
   ⟨0, [0x34, 0x12], { sets [(reg pStw 0x044, 0x1234)] on with pwr := { phase := .fault } }, by decide +kernel⟩,
   ⟨0, 0x33, on, by decide +kernel⟩,
   ⟨0, on.smbUdid + 1, 0x33, on, by bv_omega⟩,
   ⟨0, on, by decide +kernel⟩,
   ⟨0, ((natBytes 16 on.smbUdid.toNat).reverse ++ [BitVec.ofNat 8 (2 * on.pwr.smbAddr + 1)]), on,
     by decide +kernel, by decide +kernel, rfl⟩,
   ⟨0, { on with pwr := { smbAr := true } }, by decide +kernel⟩,
   ⟨0, 0x5A, 9, on, by decide +kernel⟩,
   ⟨0, 0x33, 9, on, by decide +kernel⟩,
   ⟨0, .prepare, { on with pwr := { vaux := false } }, by decide +kernel⟩⟩

theorem witness_UserLanes :
    (∃ (t : Nat) (k : Fin 16) (w : BitVec 72) (errs : LaneErrs) (s : State) (z : State), z = s.upTo t ∧ s.isOn
      (pUlane k) = true ∧ s.laneAligned k = true ∧ s.rf (lreg k 0x040) 8 7 = 0 ∧ s.rf (lreg k 0x040) 6 5 = 0 ∧
      s.laneEth k = false ∧ (z.laneHeld k).length < 32) ∧
    (∃ (t : Nat) (k : Fin 16) (w : BitVec 72) (errs : LaneErrs) (i : Fin 8) (s : State) (z : State), z = s.upTo
      t ∧ s.isOn (pUlane k) = true ∧ s.laneAligned k = true ∧ s.rf (lreg k 0x040) 8 7 = 0 ∧ s.laneEth k = false
      ∧ (z.laneHeld k).length < 32 ∧ s.laneMode k = 1 ∧ errs.bad.getLsbD i = true) ∧
    (∃ (t : Nat) (k : Fin 16) (w : BitVec 72) (errs : LaneErrs) (s : State) (z : State), z = s.upTo t ∧ s.isOn
      (pUlane k) = true ∧ s.laneAligned k = true ∧ s.rf (lreg k 0x040) 8 7 = 0 ∧ s.laneEth k = false ∧ 32 ≤
      (z.laneHeld k).length) ∧
    (∃ (t : Nat) (k : Fin 16) (w : BitVec 72) (errs : LaneErrs) (s : State), s.isOn (pUlane k) = true ∧
      s.laneAligned k = true ∧ s.rf (lreg k 0x040) 8 7 ≠ 1 ∧ s.rf (lreg k 0x040) 6 5 ≠ 0) ∧
    (∃ (t : Nat) (k : Fin 16) (w : BitVec 72) (errs : LaneErrs) (s : State), (s.isOn (pUlane k) = false ∨
      s.laneAligned k = false ∨ s.rf (lreg k 0x040) 8 7 = 1)) ∧
    (∃ (t : Nat) (k : Fin 16) (w : BitVec 72) (r : List (BitVec 72)) (s : State), s.isOn (pUlane k) = true ∧
      s.laneEth k = false ∧ s.rf (lreg k 0x040) 8 7 = 0 ∧ s.rf (lreg k 0x040) 6 5 = 0 ∧ (s.lane k).tx = w :: r) ∧
    (∃ (t : Nat) (k : Fin 16) (s : State), s.isOn (pUlane k) = true ∧ s.laneEth k = false ∧ s.rf (lreg k 0x040)
      8 7 = 0 ∧ s.rf (lreg k 0x040) 6 5 = 0 ∧ (s.lane k).tx = [] ∧ s.inSelftest (pUlane k) = false) ∧
    (∃ (t : Nat) (k : Fin 16) (w : BitVec 72) (r : List (BitVec 72)) (s : State) (z : State), z = s.upTo t ∧
      s.isOn (pUlane k) = true ∧ s.laneEth k = false ∧ s.rf (lreg k 0x040) 8 7 = 1 ∧ s.rf (lreg k 0x040) 6 5 =
      0 ∧ (s.lane k).tx = w :: r ∧ (z.laneHeld k).length < 32) ∧
    (∃ (t : Nat) (k : Fin 16) (q : Nat × Nat) (s : State), s.isOn (pUlane k) = true ∧ s.rf (lreg k 0x040) 8 7 =
      0 ∧ s.rf (lreg k 0x040) 6 5 ≠ 0 ∧ q = prbsWord (s.rf (lreg k 0x040) 6 5) (s.lane k).prbs) ∧
    (∃ (t : Nat) (r : Fin 96) (k : Fin 16) (w : BitVec 72) (s : State) (z : State), z = s.upTo t ∧ Served r
      (8 + k) (pUlane k) z ∧ s.laneEth k = false ∧ s.laneRegion k = r ∧ s.isOn (pUlane k) = true ∧
      (s.lane k).tx.length < 32) ∧
    (∃ (t : Nat) (r : Fin 96) (k : Fin 16) (w : BitVec 72) (s : State) (z : State), z = s.upTo t ∧ Served r
      (8 + k) (pUlane k) z ∧ s.laneEth k = false ∧ s.laneRegion k = r ∧ s.isOn (pUlane k) = true ∧ 32 ≤
      (s.lane k).tx.length) ∧
    (∃ (t : Nat) (r : Fin 96) (k : Fin 16) (w : BitVec 72) (s : State) (z : State), z = s.upTo t ∧ Served r
      (8 + k) (pUlane k) z ∧ (s.laneEth k = true ∨ s.laneRegion k ≠ r ∨ s.isOn (pUlane k) = false)) ∧
    (∃ (t : Nat) (k : Fin 16) (lk : Fin 3) (khz : BitVec 19) (s : State), s.isOn (pUlane k) = true) ∧
    (∃ (t : Nat) (k : Fin 16) (s : State), Reads (pUlane k) s) ∧
    (∃ (t : Nat) (k : Fin 16) (s : State), Reads (pUlane k) s) :=
  ⟨⟨0, 5, 7, {}, (sets [(reg (pUlane 5) oStatus, 2), (lreg 5 0x044, 0x80000005)] (on)).setLane 5
     { rx := [(1, 9)] }, _, rfl, by decide +kernel⟩,
   ⟨0, 5, 7, { bad := 4 }, 2, (sets [(reg (pUlane 5) oStatus, 2), (lreg 5 0x044, 0x80000005),
     (lreg 5 0x040, 0x00400000)] (on)).setLane 5 {}, _, rfl, by decide +kernel⟩,
   ⟨0, 5, 7, {}, (sets [(reg (pUlane 5) oStatus, 2), (lreg 5 0x044, 0x80000005)] (on)).setLane 5
     { rx := List.replicate 32 (0, 9) }, _, rfl, by decide +kernel⟩,
   ⟨0, 5, 7, { bits := 3 }, (sets [(reg (pUlane 5) oStatus, 2), (lreg 5 0x040, 0x20),
     (lreg 5 0x044, 0x80000005)] (on)).setLane 5 {}, by decide +kernel⟩,
   ⟨0, 5, 7, {}, on, by decide +kernel⟩,
   ⟨0, 5, 7, [8], (sets [(reg (pUlane 5) oStatus, 2)] (on)).setLane 5 { tx := [7, 8] }, by decide +kernel⟩,
   ⟨0, 5, (sets [(reg (pUlane 5) oStatus, 2), (lreg 5 0x040, 0x00400000)] (on)).setLane 5 {},
     by decide +kernel⟩,
   ⟨0, 5, 7, [8], (sets [(reg (pUlane 5) oStatus, 2), (lreg 5 0x040, 0x80)] (on)).setLane 5 { tx := [7, 8] },
     _, rfl, by decide +kernel⟩,
   ⟨0, 5, prbsWord 1 0, (sets [(reg (pUlane 5) oStatus, 2), (lreg 5 0x040, 0x20)] (on)).setLane 5 {},
     by decide +kernel⟩,
   ⟨0, 6, 5, 7, (sets [(reg (pUlane 5) oStatus, 2), (reg (pReg 6) oStatus, 2), (lreg 5 0x040, 0x06000000)]
     (on)).setLane 5 { tx := [9] }, _, rfl, by decide +kernel⟩,
   ⟨0, 6, 5, 7, (sets [(reg (pUlane 5) oStatus, 2), (reg (pReg 6) oStatus, 2), (lreg 5 0x040, 0x06000000)]
     (on)).setLane 5 { tx := List.replicate 32 9 }, _, rfl, by decide +kernel⟩,
   ⟨0, 6, 5, 7, (sets [(reg (pUlane 5) oStatus, 2), (reg (pReg 6) oStatus, 2), (lreg 5 0x040, 0x06000000),
     (lreg 5 0x040, 0x07000000)] (on)).setLane 5 {}, _, rfl, by decide +kernel⟩,
   ⟨0, 5, 2, 156250, (sets [(reg (pUlane 5) oStatus, 2), (lreg 5 0x044, 0x40000005)] (on)).setLane 5 {},
     by decide +kernel⟩,
   ⟨0, 5, (sets [(reg (pUlane 5) oStatus, 2), (lreg 5 0x044, 0x40000005)] (on)).setLane 5 {},
     by decide +kernel⟩,
   ⟨0, 5, (sets [(reg (pUlane 5) oStatus, 2), (lreg 5 0x04C, 5)] (on)).setLane 5 {}, by decide +kernel⟩⟩

theorem witness_ProtocolSending :
    (∃ (t : Nat) (a : Agent) (p : Fin 512) (v : Word) (n : Nat) (s : State), isProto p = true ∧ Opens a p s ∧
      s.fabricPath p = false ∧ bit v 0 = true ∧ bit v 1 = false ∧ TxRoom p (txHeaders p s) s ∧ n = dataLen p
      ((txHeaders p s).getD 0 0) ∧ n ≤ 4 * (s.proto p).txData.length) ∧
    (∃ (t : Nat) (a : Agent) (p : Fin 512) (v : Word) (s : State), isProto p = true ∧ Opens a p s ∧
      s.fabricPath p = false ∧ bit v 0 = true ∧ bit v 1 = false ∧ txSize ((blockOf p).getD .can) ≤
      (s.proto p).tx.length) ∧
    (∃ (t : Nat) (a : Agent) (p : Fin 512) (v : Word) (s : State), isProto p = true ∧ Opens a p s ∧
      s.fabricPath p = false ∧ bit v 0 = true ∧ bit v 1 = false ∧ (s.proto p).tx.length < txSize
      ((blockOf p).getD .can) ∧ blockOf p ≠ some .eth ∧ s.txBad p (txHeaders p s) = true) ∧
    (∃ (e : Nat → Agent → Fin 512 → Word → Instr) (t : Nat) (a : Agent) (p : Fin 512) (v : Word) (s : State),
      True ∧ isProto p = true ∧ Opens a p s ∧ s.fabricPath p = true) ∧
    (∃ (t : Nat) (a : Agent) (p : Fin 512) (v : Word) (s : State), isProto p = true ∧ Opens a p s ∧
      s.fabricPath p = false ∧ bit v 1 = true ∧ bit v 0 = false) ∧
    (∃ (t : Nat) (a : Agent) (p : Fin 512) (v : Word) (s : State), isProto p = true ∧ Opens a p s ∧
      s.fabricPath p = false) ∧
    (∃ (t : Nat) (p : Fin 512) (e : Entry) (r : List Entry) (s : State) (z : State), z = s.upTo t ∧ isProto p =
      true ∧ (s.proto p).tx = e :: r ∧ e.held = true ∧ s.isOn (pDom (s.tsDom p)) = true ∧ s.atTarget p e ≤
      z.armRef (s.tsDom p)) ∧
    (∃ (t : Nat) (p : Fin 512) (status : Fin 8) (start : Nat) (e : Entry) (r : List Entry) (s : State)
      (z : State), z = s.upTo t ∧ isProto p = true ∧ blockOf p ≠ some .can ∧ s.protoLive p = true ∧
      (s.proto p).tx = e :: r ∧ e.held = false ∧ s.maySend p e start = true ∧ SendsLine p s ∧
      (s.proto p).rx.length < rxSize ((blockOf p).getD .can) ∧ ((s.proto p).rx.map (·.data.length)).sum ≤
      32768) ∧
    (∃ (t : Nat) (p : Fin 512) (status : Fin 8) (start : Nat) (s : State), isProto p = true ∧ (s.protoLive p =
      false ∨ s.busOff p = true ∨ (s.proto p).tx.head?.all (fun e => e.held || !s.maySend p e start) = true)) ∧
    (∃ (t : Nat) (p : Fin 512) (start : Nat) (e : Entry) (r : List Entry) (s : State), isProto p (some .can) =
      true ∧ s.protoLive p = true ∧ s.busOff p = false ∧ (s.proto p).tx = e :: r ∧ e.held = false ∧ s.rb
      (reg p 0x100) 3 = false ∧ s.rf (canErr p) 24 16 < 256 ∧ bit (e.h.getD 0 0) 6 = false) ∧
    (∃ (t : Nat) (p : Fin 512) (start : Nat) (e : Entry) (r : List Entry) (s : State), isProto p (some .can) =
      true ∧ s.protoLive p = true ∧ s.busOff p = false ∧ (s.proto p).tx = e :: r ∧ e.held = false ∧ s.rb
      (reg p 0x100) 3 = false ∧ s.rb (reg p 0x100) 2 = false) ∧
    (∃ (t : Nat) (a : Agent) (p : Fin 512) (v : Word) (s : State), isProto p (some .lin) = true ∧ Opens a p s ∧
      bit v 0 = true ∧ s.protoLive p = true) ∧
    (∃ (t : Nat) (a : Agent) (p : Fin 512) (v : Word) (s : State), isProto p (some .eth) = true ∧ Opens a p s ∧
      s.rb (reg p 0x114) 31 = false ∧ fld v 29 28 ≠ 3 ∧ bit v 31 = true ∧ s.protoLive p = true) ∧
    (∃ (t : Nat) (a : Agent) (p : Fin 512) (v : Word) (s : State), isProto p (some .eth) = true ∧ Opens a p s ∧
      s.rb (reg p 0x114) 31 = false ∧ fld v 29 28 = 3) ∧
    (∃ (t : Nat) (p : Fin 512) (data : BitVec 16) (s : State), isProto p (some .eth) = true ∧ s.rb
      (reg p 0x114) 31 = true ∧ s.inSelftest p = false) :=
  ⟨⟨0, .host, 0x50, 1, 8, (sets [(reg 0x50 oStatus, 2), (reg 0x50 0x060, 0x10080000), (reg 0x50 0x064, 5)]
     (on)).setProto 0x50 { txData := [1, 2] }, by decide +kernel⟩,
   ⟨0, .host, 0x50, 1, (sets [(reg 0x50 oStatus, 2)] (on)).setProto 0x50
     { tx := List.replicate 32 { h := [0x10080000, 5, 0, 0, 0, 0], data := [1, 2] } }, by decide +kernel⟩,
   ⟨0, .host, 0x50, 1, (sets [(reg 0x50 oStatus, 2), (reg 0x50 0x060, 0x10090000), (reg 0x50 0x064, 5)]
     (on)).setProto 0x50 {}, by decide +kernel⟩,
   ⟨.txPush, 0, .host, 0x50, 0, (sets [(reg 0x50 oStatus, 2), (reg (pReg 6) oStatus, 2),
     (reg 0x50 0x040, 0x08600000)] (on)).setProto 0x50 {}, by decide +kernel⟩,
   ⟨0, .host, 0x50, 2, (sets [(reg 0x50 oStatus, 2)] (on)).setProto 0x50
     { tx := [{ h := [0x10080000, 5, 0, 0, 0, 0], data := [1, 2], started := true }, { h := [0x10080000, 5, 0, 0, 0, 0], data := [1, 2] }] },
     by decide +kernel⟩,
   ⟨0, .host, 0xAF, 7, (sets [(reg 0xAF oStatus, 2)] (on)).setProto 0xAF {}, by decide +kernel⟩,
   ⟨2000000000, 0xA7, { h := [0x10080000, 5, 0, 0, 0, 0], data := [1, 2], held := true, ref := -5 }, [],
     (sets [(reg 0xA7 oStatus, 2)] (domOn 2 { pos := 0, traj := { w := 1000000000 * velUnit } })).setProto 0xA7
     { tx := [{ h := [0x10080000, 5, 0, 0, 0, 0], data := [1, 2], held := true, ref := -5 }] }, _, rfl,
     by decide +kernel⟩,
   ⟨0, 0x8F, 0, 1000000000, { h := [0x10020040, 5, 0, 0, 0, 0], data := [1, 2] }, [], (sets
     [(reg 0x8F oStatus, 2), (reg (pDom 0) oStatus, 2), (dreg 0 0x040, 2), (dreg 0 0x100, 5000)] (on)).setProto
     0x8F { tx := [{ h := [0x10020040, 5, 0, 0, 0, 0], data := [1, 2] }] }, _, rfl, by decide +kernel⟩,
   ⟨0, 0x50, 0, 0, (sets [(reg 0x50 oStatus, 2)] (on)).setProto 0x50 {}, by decide +kernel⟩,
   ⟨0, 0x50, 1000000000, { h := [0x10080000, 5, 0, 0, 0, 0], data := [1, 2] }, [],
     (sets [(reg 0x50 oStatus, 2), (canErr 0x50, 0x00070000)] (on)).setProto 0x50
     { tx := [{ h := [0x10080000, 5, 0, 0, 0, 0], data := [1, 2] }] }, by decide +kernel⟩,
   ⟨0, 0x50, 1000000000, { h := [0x10080000, 5, 0, 0, 0, 0], data := [1, 2] }, [],
     (sets [(reg 0x50 oStatus, 2), (canErr 0x50, 0x00F80000)] (on)).setProto 0x50
     { tx := [{ h := [0x10080000, 5, 0, 0, 0, 0], data := [1, 2] }] }, by decide +kernel⟩,
   ⟨0, .host, 0x8F, 1, (sets [(reg 0x8F oStatus, 2)] (on)).setProto 0x8F {}, by decide +kernel⟩,
   ⟨0, .host, 0xAF, 0x90000005, (sets [(reg 0xAF oStatus, 2)] (on)).setProto 0xAF {}, by decide +kernel⟩,
   ⟨0, .host, 0xAF, 0x30000005, (sets [(reg 0xAF oStatus, 2)] (on)).setProto 0xAF {}, by decide +kernel⟩,
   ⟨0, 0xAF, 0x1234, (sets [(reg 0xAF oStatus, 2), (reg 0xAF 0x114, 0xA0000005)] (on)).setProto 0xAF {},
     by decide +kernel⟩⟩

theorem witness_ProtocolReceiving :
    (∃ (t : Nat) (p : Fin 512) (fr : Frame) (s : State) (z : State), z = s.upTo t ∧ isProto p = true ∧ Hears p
      fr s ∧ (blockOf p = some .can → s.rf (canErr p) 24 16 < 256) ∧ s.frameStatus p fr = 0 ∧
      (blockOf p = some .eth → fr.pflags.getLsbD 5 = false) ∧ s.keepsFrame p fr = true ∧ RxRoom p
      fr.data.length s) ∧
    (∃ (t : Nat) (p : Fin 512) (fr : Frame) (s : State), isProto p (some .sent) = true ∧ Hears p fr s ∧
      s.frameStatus p fr = 0 ∧ rxSize .sent ≤ (s.proto p).rx.length) ∧
    (∃ (t : Nat) (p : Fin 512) (fr : Frame) (s : State) (z : State), z = s.upTo t ∧ isProto p (some .sent) =
      true ∧ Hears p fr s ∧ s.frameStatus p fr ≠ 0 ∧ RxRoom p fr.data.length s) ∧
    (∃ (t : Nat) (p : Fin 512) (fr : Frame) (s : State), isProto p = true ∧
      (s.protoLive p = false ∨ s.busOff p = true ∨ s.deaf p = true)) ∧
    (∃ (t : Nat) (p : Fin 512) (fr : Frame) (s : State), isProto p = true ∧ s.protoLive p = true ∧ s.busOff p =
      false ∧ s.deaf p = false ∧ (s.calOk p fr).1 = false) ∧
    (∃ (t : Nat) (p : Fin 512) (fr : Frame) (n : Nat) (k : Nat) (bs : List Byte) (s : State), isProto p
      (some .lin) = true ∧ Hears p fr s ∧ fr.pflags.getLsbD 4 = true ∧ k = fr.id.toNat % 64 ∧ s.linAnswers p k
      = some true ∧ n = s.rf (reg p (0x200 + 4 * k)) 3 0 ∧ bs = (wordBytes (s.rd (reg p (0x300 + 8 * k))) ++
      wordBytes (s.rd (reg p (0x304 + 8 * k)))).take n) ∧
    (∃ (t : Nat) (p : Fin 512) (fr : Frame) (q : Nat) (bitT : Nat) (s : State) (z : State), z = s.upTo t ∧
      isProto p (some .eth) = true ∧ Hears p fr s ∧ s.frameStatus p fr = 0 ∧ fr.pflags.getLsbD 5 = true ∧ s.rb
      (reg p 0x100) 3 = true ∧ q = (fr.data.getD 16 0).toNat * 256 + (fr.data.getD 17 0).toNat ∧ bitT = ns 100
      / 10 ^ s.rf (reg p 0x100) 1 0) ∧
    (∃ (t : Nat) (a : Agent) (p : Fin 512) (v : Word) (e : Entry) (r : List Entry) (s : State), isProto p =
      true ∧ Opens a p s ∧ s.fabricPath p = false ∧ bit v 0 = true ∧ (s.proto p).rx = e :: r) ∧
    (∃ (t : Nat) (p : Fin 512) (w : Word) (r : List Word) (s : State), isProto p = true ∧ Reads p s ∧
      s.fabricPath p = false ∧ (s.proto p).rxData = w :: r) ∧
    (∃ (t : Nat) (p : Fin 512) (s : State), isProto p = true ∧ Reads p s ∧ (s.proto p).rxData = []) ∧
    (∃ (t : Nat) (p : Fin 512) (s : State), isProto p = true ∧ Reads p s) ∧
    (∃ (t : Nat) (r : Fin 96) (p : Fin 512) (w : Word) (s : State) (z : State), z = s.upTo t ∧ Served r 6 p z ∧
      isProto p = true ∧ s.fabricPath p = true ∧ s.protoRegion p = r ∧ ((s.proto p).build ++ [w]).length < 6 +
      (dataLen p (((s.proto p).build ++ [w]).getD 0 0) + 3) / 4) ∧
    (∃ (t : Nat) (r : Fin 96) (p : Fin 512) (w : Word) (b : List Word) (s : State) (z : State), z = s.upTo t ∧
      Served r 6 p z ∧ isProto p = true ∧ s.fabricPath p = true ∧ s.protoRegion p = r ∧ b = (s.proto p).build
      ++ [w] ∧ 6 + (dataLen p (b.getD 0 0) + 3) / 4 ≤ b.length ∧ TxRoom p (b.take 6) s) ∧
    (∃ (t : Nat) (r : Fin 96) (p : Fin 512) (w : Word) (e : Entry) (l : List Entry) (s : State) (z : State), z
      = s.upTo t ∧ Served r 6 p z ∧ isProto p = true ∧ s.fabricPath p = true ∧ s.protoRegion p = r ∧
      (s.proto p).unload = [] ∧ (s.proto p).rx = e :: l) ∧
    (∃ (t : Nat) (r : Fin 96) (p : Fin 512) (w : Word) (x : Word) (l : List Word) (s : State) (z : State), z =
      s.upTo t ∧ Served r 6 p z ∧ isProto p = true ∧ s.fabricPath p = true ∧ s.protoRegion p = r ∧
      (s.proto p).unload = x :: l) ∧
    (∃ (t : Nat) (r : Fin 96) (p : Fin 512) (push : Bool) (w : Word) (s : State) (z : State), z = s.upTo t ∧
      Served r 6 p z ∧ isProto p = true ∧ (s.fabricPath p = false ∨ s.protoRegion p ≠ r)) ∧
    (∃ (t : Nat) (p : Fin 512) (s : State), isProto p (some .can) = true ∧ s.isOn p = true ∧ s.busOff p = true
      ∧ s.rb (reg p 0x100) 1 = true) ∧
    (∃ (t : Nat) (p : Fin 512) (id : BitVec 6) (start : Nat) (s : State), isProto p (some .lin) = true ∧
      s.protoLive p = true ∧ s.rb (reg p 0x100) 0 = false ∧ (s.proto p).tx = [] ∧ s.rb (reg p 0x040) 19 =
      false) ∧
    (∃ (t : Nat) (p : Fin 512) (s : State), isProto p (some .lin) = true ∧ s.protoLive p = true ∧ s.deaf p =
      false) ∧
    (∃ (t : Nat) (p : Fin 512) (s : State), isProto p (some .eth) = true ∧ s.isOn p = true) ∧
    (∃ (t : Nat) (p : Fin 512) (s : State), isProto p (some .sent) = true ∧ s.protoLive p = true ∧ s.rb
      (reg p 0x100) 2 = true ∧ s.rb (reg p 0x100) 0 = false) :=
  ⟨⟨0, 0x50, { start := 1000000000, length := 2, data := [1, 2] }, (sets [(reg 0x50 oStatus, 2),
     (reg (pDom 0) oStatus, 2), (dreg 0 0x040, 2), (dreg 0 0x100, 5000)] (on)).setProto 0x50 {}, _, rfl,
     by decide +kernel⟩,
   ⟨0, 0xA7,
     { start := 1000000000, length := 2, data := [1, 2], cal := 56, id := BitVec.ofNat 32 (16 * sentCrc false (sentNibbles 2 [1, 2])) },
     (sets [(reg 0xA7 oStatus, 2), (reg 0xA7 0x104, 1)] (on)).setProto 0xA7
     { rx := List.replicate 64 { h := [0x10080000, 5, 0, 0, 0, 0], data := [1, 2] } }, by decide +kernel⟩,
   ⟨0, 0xA7, { start := 1000000000, length := 2, data := [1, 2], status := 4, cal := 56 },
     (sets [(reg 0xA7 oStatus, 2), (reg 0xA7 0x104, 1)] (on)).setProto 0xA7 {}, _, rfl, by decide +kernel⟩,
   ⟨0, 0xA7, { start := 1000000000, length := 2, data := [1, 2] }, on, by decide +kernel⟩,
   ⟨0, 0xA7, { start := 1000000000, length := 2, data := [1, 2], cal := 99 },
     (sets [(reg 0xA7 oStatus, 2), (reg 0xA7 0x104, 1)] (on)).setProto 0xA7 {}, by decide +kernel⟩,
   ⟨0, 0x8F, { start := 1000000000, length := 2, data := [1, 2], pflags := 16, id := 9, cal := 20000 }, 6, 9,
     [0x11, 0x22, 0x33, 0x44, 0, 0], (sets [(reg 0x8F oStatus, 2), (reg 0x8F 0x100, 3),
     (reg 0x8F (0x200 + 4 * 9), 0xC0000006), (reg 0x8F (0x300 + 8 * 9), 0x44332211)] (on)).setProto 0x8F {},
     by decide +kernel⟩,
   ⟨0, 0xAF,
     { start := 1000000000, length := 60, data := List.replicate 60 5, pflags := 32, check := BitVec.ofNat 32 (ethCrc (List.replicate 60 5)) },
     5 * 256 + 5, (ns 100), (sets [(reg 0xAF oStatus, 2), (reg 0xAF 0x100, 8)] (on)).setProto 0xAF {}, _, rfl,
     by decide +kernel⟩,
   ⟨0, .host, 0xAF, 1, { h := [0x10080000, 5, 0, 0, 0, 0], data := [1, 2] }, [],
     (sets [(reg 0xAF oStatus, 2)] (on)).setProto 0xAF
     { rx := [{ h := [0x10080000, 5, 0, 0, 0, 0], data := [1, 2] }] }, by decide +kernel⟩,
   ⟨0, 0xAF, 5, [6], (sets [(reg 0xAF oStatus, 2)] (on)).setProto 0xAF { rxData := [5, 6] }, by decide +kernel⟩,
   ⟨0, 0xAF, (sets [(reg 0xAF oStatus, 2)] (on)).setProto 0xAF {}, by decide +kernel⟩,
   ⟨0, 0x50, (sets [(reg 0x50 oStatus, 2), (reg 0x50 0x04C, 0x00030000)] (on)).setProto 0x50
     { rx := [{ h := [0x10080000, 5, 0, 0, 0, 0], data := [1, 2] }] }, by decide +kernel⟩,
   ⟨0, 6, 0x50, 0x10080000, (sets [(reg 0x50 oStatus, 2), (reg (pReg 6) oStatus, 2),
     (reg 0x50 0x040, 0x08600000)] (on)).setProto 0x50 {}, _, rfl, by decide +kernel⟩,
   ⟨0, 6, 0x50, 9, [0x10080000, 5, 0, 0, 0, 0, 8, 9], (sets [(reg 0x50 oStatus, 2), (reg (pReg 6) oStatus, 2),
     (reg 0x50 0x040, 0x08600000)] (on)).setProto 0x50 { build := [0x10080000, 5, 0, 0, 0, 0, 8] }, _, rfl,
     by decide +kernel⟩,
   ⟨0, 6, 0x50, 0, { h := [0x10080000, 5, 0, 0, 0, 0], data := [1, 2] }, [], (sets [(reg 0x50 oStatus, 2),
     (reg (pReg 6) oStatus, 2), (reg 0x50 0x040, 0x08600000)] (on)).setProto 0x50
     { rx := [{ h := [0x10080000, 5, 0, 0, 0, 0], data := [1, 2] }] }, _, rfl, by decide +kernel⟩,
   ⟨0, 6, 0x50, 0, 7, [8], (sets [(reg 0x50 oStatus, 2), (reg (pReg 6) oStatus, 2),
     (reg 0x50 0x040, 0x08600000)] (on)).setProto 0x50 { unload := [7, 8] }, _, rfl, by decide +kernel⟩,
   ⟨0, 6, 0x50, false, 0, (sets [(reg 0x50 oStatus, 2), (reg (pReg 6) oStatus, 2)] (on)).setProto 0x50 {}, _,
     rfl, by decide +kernel⟩,
   ⟨0, 0x50, (sets [(reg 0x50 oStatus, 2), (reg 0x50 0x100, 2), (canErr 0x50, 0x01000002)] (on)).setProto 0x50
     {}, by decide +kernel⟩,
   ⟨0, 0x8F, 9, 1000000000, (sets [(reg 0x8F oStatus, 2)] (on)).setProto 0x8F {}, by decide +kernel⟩,
   ⟨0, 0x8F, (sets [(reg 0x8F oStatus, 2)] (on)).setProto 0x8F {}, by decide +kernel⟩,
   ⟨0, 0xAF, (sets [(reg 0xAF oStatus, 2)] (on)).setProto 0xAF {}, by decide +kernel⟩,
   ⟨0, 0xA7, (sets [(reg 0xA7 oStatus, 2), (reg 0xA7 0x100, 4)] (on)).setProto 0xA7 {}, by decide +kernel⟩⟩

theorem witness_UnitSelfTest :
    (∃ (t : Nat) (a : Agent) (v : Word) (n : Nat) (s : State), privileged a = true ∧ Opens a pBist s ∧ fld v 31
      28 = 1 ∧ n = fld v 8 0 ∧ UnitIndex n ∧ s.test? n = none ∧ s.pwr.phase = .user ∧ taken
      (s.claim actSelftest agStw (unitRes n) (unitMw n)).1 = true) ∧
    (∃ (t : Nat) (a : Agent) (v : Word) (n : Nat) (r : Reason) (s : State), privileged a = true ∧ Opens a pBist
      s ∧ fld v 31 28 = 1 ∧ n = fld v 8 0 ∧ UnitIndex n ∧ s.test? n = none ∧ s.pwr.phase = .user ∧
      (s.claim actSelftest agStw (unitRes n) (unitMw n)).1 = .refused r) ∧
    (∃ (t : Nat) (a : Agent) (v : Word) (s : State), privileged a = true ∧ Opens a pBist s ∧ fld v 31 28 = 1 ∧
      UnitIndex (fld v 8 0) ∧ ((s.test? (fld v 8 0)).isSome = true ∨ s.pwr.phase ≠ .user)) ∧
    (∃ (t : Nat) (a : Agent) (v : Word) (s : State), privileged a = true ∧ Opens a pBist s ∧
      (fld v 31 28 = 0 ∨ 2 < fld v 31 28 ∨ ¬UnitIndex (fld v 8 0))) ∧
    (∃ (t : Nat) (a : Agent) (v : Word) (n : Nat) (c : Nat) (x : Test) (s : State), privileged a = true ∧ Opens
      a pBist s ∧ fld v 31 28 = 2 ∧ n = fld v 8 0 ∧ UnitIndex n ∧ s.test? n = some x ∧ x.claim = some c ∧
      (s.claimOf c).any (·.queued) = true) ∧
    (∃ (t : Nat) (a : Agent) (v : Word) (n : Nat) (x : Test) (s : State), privileged a = true ∧ Opens a pBist s
      ∧ fld v 31 28 = 2 ∧ n = fld v 8 0 ∧ UnitIndex n ∧ s.test? n = some x ∧ x.claim.all
      (fun c => !(s.claimOf c).any (·.queued)) = true) ∧
    (∃ (t : Nat) (n : Fin 308) (x : Test) (s : State) (z : State), z = s.upTo t ∧ s.test? n = some x ∧ x.since
      = none ∧ x.claim.all s.claimGranted = true) ∧
    (∃ (t : Nat) (n : Fin 308) (c : Nat) (x : Test) (s : State), s.test? n = some x ∧ x.claim = some c ∧
      s.claimGranted c = false) ∧
    (∃ (t : Nat) (pats : Nat) (k : Nat) (r : Nat) (n : Fin 308) (caps : List (BitVec 64)) (mem : Bool)
      (x : Test) (s : State) (z : State), z = s.upTo t ∧ s.test? n = some x ∧ x.since.isSome = true ∧ x.ended =
      none ∧ x.why < 4 ∧ s.inSelftest pBist = false ∧ (k = (if x.abort ∨ s.metaStopped then min pats
      (unitPatterns n) else unitPatterns n)) ∧ r = (if mem then 2 else if k < unitPatterns n then 3 else if
      misrOf caps = unitSig n then 1 else 2)) ∧
    (∃ (t : Nat) (r : Nat) (b : Nat) (n : Fin 308) (x : Test) (s : State), s.test? n = some x ∧ x.ended = some
      (b, r) ∧ s.pwr.phase = .user ∧ s.bist.todo = []) ∧
    (∃ (t : Nat) (r : Nat) (b : Nat) (n : Fin 308) (x : Test) (s : State), s.bist.tests = [(n.val, x)] ∧
      x.ended = some (b, r) ∧ s.pwr.phase = .test ∧ s.bist.todo = [] ∧ s.inSelftest pStw = false) ∧
    (∃ (t : Nat) (b : Nat) (k : Nat) (s : State) (z : State), z = s.upTo t ∧ s.pwr.phase = .test ∧ s.bist.shut
      = some b ∧ b + ms 100 ≤ z.now) ∧
    (∃ (t : Nat) (a : Agent) (v : Word) (s : State), Opens a pBist s) :=
  ⟨⟨0, .host, 0x100000C8, 200, on, by decide +kernel⟩,
   ⟨0, .host, 0x100000C8, 200, .conflict,
     { on with ledger := { claims := [{ number := 7, activity := 5, agent := 1, res := [resUnit (unitPage 200)], mw := 100, queued := false }] } },
     by decide +kernel⟩,
   ⟨0, .host, 0x100000C8, { on with bist := { tests := [(200, { why := 3 })] } }, by decide +kernel⟩,
   ⟨0, .host, 0x10000130, on, by decide +kernel⟩,
   ⟨0, .host, 0x200000C8, 200, 7, { claim := some 7, why := 3 },
     { on with bist := { tests := [(200, { claim := some 7, why := 3 })] }, ledger := { claims := [{ number := 7, activity := 5, agent := 1, res := [], mw := 100, queued := true }] } },
     by decide +kernel⟩,
   ⟨0, .host, 0x200000C8, 200, { claim := some 7, why := 3, since := some 5, prev := 2 },
     { on with bist := { tests := [(200, { claim := some 7, why := 3, since := some 5, prev := 2 })] } },
     by decide +kernel⟩,
   ⟨0, 149, { why := 3 }, { sets [(qreg 5 0x05C, 2)] on with bist := { tests := [(149, { why := 3 })] } }, _,
     rfl, by decide +kernel⟩,
   ⟨0, 200, 7, { claim := some 7, why := 3 },
     { on with bist := { tests := [(200, { claim := some 7, why := 3 })] }, ledger := { claims := [{ number := 7, activity := 5, agent := 1, res := [], mw := 100, queued := true }] } },
     by decide +kernel⟩,
   ⟨0, 16384, (unitPatterns 149), 2, 149, [], true, { claim := some 7, why := 3, since := some 5, prev := 2 },
     { (on.putBytes (progBase 5) [1, 2]) with bist := { tests := [(149, { claim := some 7, why := 3, since := some 5, prev := 2 })] } },
     _, rfl, by decide +kernel⟩,
   ⟨0, 2, 9, 200, { claim := some 7, why := 3, since := some 5, prev := 2, ended := some (9, 2) },
     { on with bist := { tests := [(200, { claim := some 7, why := 3, since := some 5, prev := 2, ended := some (9, 2) })] }, ledger := { claims := [{ number := 7, activity := 5, agent := 1, res := [], mw := 100, queued := false }] } },
     by decide +kernel⟩,
   ⟨0, 1, 9, 200, { claim := some 7, why := 3, since := some 5, prev := 2, ended := some (9, 1) },
     { on with bist := { tests := [(200, { claim := some 7, why := 3, since := some 5, prev := 2, ended := some (9, 1) })] }, pwr := { phase := .test } },
     by decide +kernel⟩,
   ⟨204800000000, 9, 5,
     { on with bist := { shut := some 9, todo := [5, 200] }, ledger := { claims := [{ number := 7, activity := 1, agent := 1, res := [resUnit (unitPage 5)], mw := 100, queued := false }] }, pwr := { phase := .test } },
     _, rfl, by decide +kernel⟩,
   ⟨0, .host, 1, on, by decide +kernel⟩⟩

theorem witness_MaintenanceLedger :
    (∃ (t : Nat) (a : Agent) (v : Word) (ws : List Word) (mw : Nat) (s : State), Opens a pLedger s ∧ HostClaim
      v ws mw s ∧ Claimable (fld v 27 24) ws mw s ∧ s.claimQueue = [] ∧ s.grantedMw + mw ≤ s.budget) ∧
    (∃ (t : Nat) (a : Agent) (v : Word) (ws : List Word) (mw : Nat) (s : State), Opens a pLedger s ∧ HostClaim
      v ws mw s ∧ Claimable (fld v 27 24) ws mw s ∧ (s.claimQueue ≠ [] ∨ s.budget < s.grantedMw + mw) ∧
      s.claimQueue.length < 16) ∧
    (∃ (t : Nat) (a : Agent) (v : Word) (ws : List Word) (mw : Nat) (i : Nat) (c : Claim) (r : List Claim)
      (s : State), Opens a pLedger s ∧ HostClaim v ws mw s ∧ ws.all resOk = true ∧ s.shutRefuses (fld v 27 24)
      = false ∧ s.ledger.claims = c :: r ∧ clashAt ws c.res = some i) ∧
    (∃ (t : Nat) (a : Agent) (v : Word) (ws : List Word) (mw : Nat) (s : State), Opens a pLedger s ∧ HostClaim
      v ws mw s ∧ ws.all resOk = true ∧ s.shutRefuses (fld v 27 24) = false ∧ s.clashing ws = none ∧
      (s.ledger.reroot = true → clashAt ws [resUnit pCar] = none) ∧
      (64 ≤ s.ledger.claims.length ∨ s.budget < mw)) ∧
    (∃ (t : Nat) (a : Agent) (v : Word) (s : State), Opens a pLedger s ∧ bit v 31 = true ∧ fld v 27 24 ≠ 1 ∧
      fld v 27 24 ≠ 2) ∧
    (∃ (t : Nat) (a : Agent) (v : Word) (c : Claim) (s : State), Opens a pLedger s ∧ bit v 31 = true ∧
      s.claimOf (fld v 7 0) = some c ∧ c.agent = agHost ∧ s.bist.todo = []) ∧
    (∃ (t : Nat) (a : Agent) (v : Word) (c : Claim) (d : Claim) (s : State), Opens a pLedger s ∧ bit v 31 =
      true ∧ s.ledger.claims = [c, d] ∧ c.number = fld v 7 0 ∧ c.agent = agHost ∧ c.queued = false ∧ d.number ≠
      c.number ∧ d.queued = true ∧ d.mw ≤ s.budget ∧ s.bist.tests = [] ∧ s.bist.todo = []) ∧
    (∃ (t : Nat) (k : Nat) (a : Agent) (v : Word) (c : Claim) (s : State), Opens a pLedger s ∧ bit v 31 = true
      ∧ s.ledger.claims = [c] ∧ c.number = fld v 7 0 ∧ c.agent = agHost ∧ s.ledger.reroot = false ∧ s.pwr.phase
      = .test ∧ s.bist.tests = [] ∧ s.bist.todo = [k] ∧ k < 304 ∧ unitMw k ≤ s.budget) ∧
    (∃ (t : Nat) (a : Agent) (v : Word) (s : State), Opens a pLedger s ∧ bit v 31 = true ∧
      (s.claimOf (fld v 7 0)).all (·.agent != agHost) = true) ∧
    (∃ (t : Nat) (a : Agent) (v : Word) (s : State), Opens a pLedger s ∧ 1000 ≤ fld v 16 0 ∧ fld v 16 0 ≤
      100000 ∧ s.bist.todo = []) ∧
    (∃ (t : Nat) (k : Nat) (a : Agent) (v : Word) (s : State), Opens a pLedger s ∧ 1000 ≤ fld v 16 0 ∧ fld v 16
      0 ≤ 100000 ∧ s.ledger.claims = [] ∧ s.ledger.reroot = false ∧ s.pwr.phase = .test ∧ s.bist.tests = [] ∧
      s.bist.todo = [k] ∧ k < 304 ∧ unitMw k ≤ fld v 16 0) ∧
    (∃ (t : Nat) (a : Agent) (v : Word) (s : State), Opens a pLedger s ∧
      (fld v 16 0 < 1000 ∨ 100000 < fld v 16 0)) :=
  ⟨⟨0, .host, 0x81000064, [0x40000105], 200, sets [(reg pLedger 0x050, 0x40000105)] (on), by decide +kernel⟩,
   ⟨0, .host, 0x81000064, [0x40000105], 200, sets [(reg pLedger 0x050, 0x40000105)]
     ({ on with ledger := { claims := [{ number := 7, activity := 5, agent := 1, res := [], mw := 14000, queued := true }] } }),
     by decide +kernel⟩,
   ⟨0, .host, 0x81000064, [0x40000105], 200, 0,
     { number := 7, activity := 5, agent := 1, res := [0x40000205], mw := 100, queued := false }, [], sets
     [(reg pLedger 0x050, 0x40000105)]
     ({ on with ledger := { claims := [{ number := 7, activity := 5, agent := 1, res := [0x40000205], mw := 100, queued := false }] } }),
     by decide +kernel⟩,
   ⟨0, .host, 0x8101869F, [0x40000105], 100099, sets [(reg pLedger 0x050, 0x40000105)] (on), by decide +kernel⟩,
   ⟨0, .host, 0x83000000, sets [(reg pLedger 0x050, 0x40000105)] (on), by decide +kernel⟩,
   ⟨0, .host, 0x80000007, { number := 7, activity := 5, agent := 1, res := [], mw := 100, queued := false },
     { on with ledger := { claims := [{ number := 7, activity := 5, agent := 1, res := [], mw := 100, queued := false }] } },
     by decide +kernel⟩,
   ⟨0, .host, 0x80000007, { number := 7, activity := 5, agent := 1, res := [], mw := 100, queued := false },
     { number := 8, activity := 5, agent := 1, res := [], mw := 14000, queued := true },
     { on with ledger := { claims := [{ number := 7, activity := 5, agent := 1, res := [], mw := 100, queued := false }, { number := 8, activity := 5, agent := 1, res := [], mw := 14000, queued := true }] } },
     by decide +kernel⟩,
   ⟨0, 200, .host, 0x80000007,
     { number := 7, activity := 5, agent := 1, res := [], mw := 100, queued := false },
     { on with ledger := { claims := [{ number := 7, activity := 5, agent := 1, res := [], mw := 100, queued := false }] }, pwr := { phase := .test, vaux := true, serving := true }, bist := { todo := [200] } },
     by decide +kernel⟩,
   ⟨0, .host, 0x80000007,
     { on with ledger := { claims := [{ number := 7, activity := 5, agent := 2, res := [], mw := 100, queued := false }] } },
     by decide +kernel⟩,
   ⟨0, .host, 100000,
     { on with ledger := { claims := [{ number := 7, activity := 5, agent := 1, res := [], mw := 100, queued := false }, { number := 8, activity := 5, agent := 1, res := [], mw := 90000, queued := true }] } },
     by decide +kernel⟩,
   ⟨0, 200, .host, 60000,
     { on with pwr := { phase := .test, vaux := true, serving := true }, bist := { todo := [200] } },
     by decide +kernel⟩,
   ⟨0, .host, 999, sets [(reg pLedger 0x050, 0x40000105)] (on), by decide +kernel⟩⟩

theorem witness_LifeCycle :
    (∃ (e : (Nat → Agent → Word → Instr) × Nat) (t : Nat) (a : Agent) (v : Word) (s : State) (z : State), z =
      s.upTo t ∧ True ∧ Opens a pLife s ∧ fld v 31 28 = e.2 ∧ LcPasses e.2 (fld v 20 18) (fld v 9 8) s ∧
      s.lcBits e.2 (fld v 20 18) ≠ []) ∧
    (∃ (t : Nat) (a : Agent) (v : Word) (s : State) (z : State), z = s.upTo t ∧ Opens a pLife s ∧ fld v 31 28 =
      2 ∧ LcPasses 2 (fld v 20 18) (fld v 9 8) s ∧ s.lcState = 1) ∧
    (∃ (e : (Nat → Agent → Word → Instr) × Nat) (t : Nat) (a : Agent) (v : Word) (s : State), True ∧ Opens a
      pLife s ∧ fld v 31 28 = e.2 ∧ s.lcRange e.2 (fld v 20 18) (fld v 9 8) = true) ∧
    (∃ (e : (Nat → Agent → Word → Instr) × Nat) (t : Nat) (a : Agent) (v : Word) (s : State), True ∧ Opens a
      pLife s ∧ fld v 31 28 = e.2 ∧ s.lcRange e.2 (fld v 20 18) (fld v 9 8) = false ∧ s.lifeBusy = true) ∧
    (∃ (e : (Nat → Agent → Word → Instr) × Nat) (t : Nat) (a : Agent) (v : Word) (s : State), True ∧ Opens a
      pLife s ∧ fld v 31 28 = e.2 ∧ s.lcRange e.2 (fld v 20 18) (fld v 9 8) = false ∧ s.lifeBusy = false ∧
      s.pwr.phase = .user ∧ s.lcForbidden e.2 (fld v 20 18) = true) ∧
    (∃ (t : Nat) (b : Nat) (r : List Nat) (c : LcCmd) (s : State), s.metaStopped = false ∧ s.life.cmd = some c
      ∧ c.left = b :: r ∧ r ≠ []) ∧
    (∃ (t : Nat) (b : Nat) (c : LcCmd) (s : State) (z : State), z = s.upTo t ∧ s.metaStopped = false ∧
      s.life.cmd = some c ∧ c.left = [b] ∧ s.life.sec = none) ∧
    (∃ (t : Nat) (b : Nat) (r : List Nat) (c : LcCmd) (s : State), s.metaStopped = false ∧ s.life.cmd = some c
      ∧ c.left = b :: r ∧ s.inSelftest pLife = false) ∧
    (∃ (t : Nat) (ok : Bool) (s : State), s.metaStopped = true) ∧
    (∃ (t : Nat) (a : Agent) (v : Word) (s : State), Opens a pLife s ∧ fld v 1 0 ≠ 3 ∧ s.lcState ≠ 5 ∧
      (s.lcState < 3 ∨ s.profile ≤ fld v 1 0)) ∧
    (∃ (t : Nat) (a : Agent) (v : Word) (s : State), Opens a pLife s ∧ fld v 1 0 ≠ 3 ∧
      (s.lcState = 5 ∨ 3 ≤ s.lcState ∧ fld v 1 0 < s.profile)) :=
  ⟨⟨(.advance, 1), 0, .host, 0x10080000, { on with life := { pairs := [(0, ⟨8, 8⟩)] } }, _, rfl,
     by decide +kernel⟩,
   ⟨0, .host, 0x20000100, { on with life := { pairs := [(0, ⟨8, 8⟩)] } }, _, rfl, by decide +kernel⟩,
   ⟨(.advance, 1), 0, .host, 0x10000000, on, by decide +kernel⟩,
   ⟨(.advance, 1), 0, .host, 0x100C0000,
     { on with life := { cmd := some { advance := true, unlock := 0, left := [4], since := 0 } } },
     by decide +kernel⟩,
   ⟨(.unlock, 2), 0, .host, 0x20000100, { on with life := { pairs := [] } }, by decide +kernel⟩,
   ⟨0, 4, [5], { advance := true, unlock := 0, left := [4, 5], since := 0 },
     { on with life := { cmd := some { advance := true, unlock := 0, left := [4, 5], since := 0 } } },
     by decide +kernel⟩,
   ⟨0, 5, { advance := true, unlock := 0, left := [5], since := 0 },
     { on with life := { cmd := some { advance := true, unlock := 0, left := [5], since := 0 } } }, _, rfl,
     by decide +kernel⟩,
   ⟨0, 4, [5], { advance := true, unlock := 0, left := [4, 5], since := 0 },
     { on with life := { cmd := some { advance := true, unlock := 0, left := [4, 5], since := 0 } } },
     by decide +kernel⟩,
   ⟨0, false, { on with store := { pfStop := true } }, by decide +kernel⟩,
   ⟨0, .host, 2, on, by decide +kernel⟩,
   ⟨0, .host, 1,
     { sets [(lifeReg 0x044, 2)] on with life := { pairs := [(0, ⟨8, 8⟩), (1, ⟨8, 8⟩), (2, ⟨8, 8⟩)] } },
     by decide +kernel⟩⟩

theorem witness_SecurityCommands :
    (∃ (e : (Nat → Agent → Word → Instr) × Nat) (t : Nat) (tg : Nat) (slot : Nat) (a : Agent) (v : Word)
      (s : State), True ∧ Opens a pSec s ∧ fld v 31 28 = e.2 ∧ tg = fld v 12 8 ∧ slot = fld v 2 0 ∧ s.secRange
      e.2 tg slot = false ∧ s.lifeBusy = false ∧ s.pwr.phase = .user ∧ s.secConflict e.2 tg slot = false ∧
      s.secForbidden e.2 = false) ∧
    (∃ (e : (Nat → Agent → Word → Instr) × Nat) (t : Nat) (tg : Nat) (slot : Nat) (a : Agent) (v : Word)
      (r : Reason) (s : State), True ∧ Opens a pSec s ∧ fld v 31 28 = e.2 ∧ tg = fld v 12 8 ∧ slot = fld v 2 0
      ∧ (s.secRange e.2 tg slot = true ∧ r = .range ∨ s.secRange e.2 tg slot = false ∧ s.secConflict e.2 tg
      slot = true ∧ r = .conflict ∨ s.secRange e.2 tg slot = false ∧ s.lifeBusy = false ∧ s.pwr.phase = .user ∧
      s.secConflict e.2 tg slot = false ∧ s.secForbidden e.2 = true ∧ r = .lifecycle)) ∧
    (∃ (t : Nat) (c : SecCmd) (s : State), s.metaStopped = false ∧ s.life.cmd = none ∧ s.life.sec = some c ∧ 1
      < c.left) ∧
    (∃ (t : Nat) (c : SecCmd) (s : State), s.metaStopped = false ∧ s.life.cmd = none ∧ s.life.sec = some c ∧
      c.left ≤ 1 ∧ s.inSelftest pSec = false) ∧
    (∃ (t : Nat) (c : SecCmd) (s : State), s.metaStopped = false ∧ s.life.cmd = none ∧ s.life.sec = some c ∧
      s.inSelftest pSec = false) :=
  ⟨⟨(.writeDigest, 1), 0, 18, 0, .host, 0x10001200, on, by decide +kernel⟩,
   ⟨(.revokeKey, 3), 0, 0, 0, .host, 0x30000000, .range, on, by decide +kernel⟩,
   ⟨0, { op := 2, target := 3, left := 9 },
     { on with life := { sec := some { op := 2, target := 3, left := 9 } } }, by decide +kernel⟩,
   ⟨0, { op := 2, target := 3, left := 1 },
     { on with life := { sec := some { op := 2, target := 3, left := 1 } } }, by decide +kernel⟩,
   ⟨0, { op := 2, target := 3, left := 9 },
     { on with life := { sec := some { op := 2, target := 3, left := 9 } } }, by decide +kernel⟩⟩

theorem witness_PowerAndReset :
    (∃ (t : Nat) (ok : Bool) (s : State), s.pwr.vaux = false ∧ (s.rollOwed = false ∨ s.metaStopped = true)) ∧
    (∃ (t : Nat) (s : State), s.pwr.vaux = false ∧ s.rollOwed = true ∧ s.metaStopped = false) ∧
    (∃ (t : Nat) (s : State), s.pwr.vaux = false ∧ s.rollOwed = true ∧ s.metaStopped = false ∧ s.pwr.ready =
      false ∧ s.pwr.serving = false) ∧
    (∃ (t : Nat) (ok : Bool) (s : State), s.pwr.vaux = true) ∧
    (∃ (t : Nat) (s : State), s.pwr.vaux = true) ∧
    (∃ (t : Nat) (k : Fin 5) (s : State), s.pwr.phase ≠ .reset ∧ s.pwr.phase ≠ .fault) ∧
    (∃ (t : Nat) (k : Fin 5) (s : State), (s.pwr.phase = .reset ∨ s.pwr.phase = .fault)) ∧
    (∃ (t : Nat) (q : Nat) (k : Fin 5) (x : DQueue) (j : Job) (s : State) (z : State), z = s.upTo t ∧
      s.pwr.phase ≠ .reset ∧ s.pwr.phase ≠ .fault ∧ s.store.queues = [(q, x)] ∧ x.running = [j] ∧ isOperation
      j.desc.op = true ∧ j.fetch = false ∧ j.ended = none ∧ j.stopped = none ∧
      (j.desc.op = opProgram → 0 < j.data.length) ∧ j.desc.bank < 104 ∧ z.store.pfFall.all
      (fun b => decide (z.now < b + us 50)) = true) ∧
    (∃ (t : Nat) (s : State) (z : State), z = s.upTo t ∧ s.pwr.vaux = true ∧ s.thermalHold = false) ∧
    (∃ (t : Nat) (s : State) (z : State), z = s.upTo t ∧ s.pwr.vaux = true ∧ s.thermalHold = true) ∧
    (∃ (t : Nat) (a : Agent) (v : Word) (s : State) (z : State), z = s.upTo t ∧ Opens a pStw s ∧ v =
      0xC0960001) ∧
    (∃ (t : Nat) (a : Agent) (v : Word) (s : State), Opens a pStw s ∧ v ≠ 0xC0960001) ∧
    (∃ (t : Nat) (fab : List (BitVec 16)) (store : BitVec 16) (top : Int) (s : State), s.pwr.vaux = true ∧ top
      ∈ fab.map (fun x => x.toInt) ∧ fab.all (fun x => decide (x.toInt ≤ top)) = true ∧ fab.length = 16 ∧
      s.pwr.phase ≠ .reset ∧ s.pwr.phase ≠ .fault ∧ (top < 2000 ∨ s.pwr.hot < 9) ∧ s.inSelftest pPower = false) ∧
    (∃ (t : Nat) (fab : List (BitVec 16)) (store : BitVec 16) (top : Int) (s : State), s.pwr.vaux = true ∧ top
      ∈ fab.map (fun x => x.toInt) ∧ fab.all (fun x => decide (x.toInt ≤ top)) = true ∧ fab.length = 16 ∧
      s.pwr.phase ≠ .reset ∧ s.pwr.phase ≠ .fault ∧ 2000 ≤ top ∧ 9 ≤ s.pwr.hot) ∧
    (∃ (t : Nat) (fab : List (BitVec 16)) (store : BitVec 16) (s : State), s.pwr.vaux = false) :=
  ⟨⟨0, false, { on with pwr := { vaux := false } }, by decide +kernel⟩,
   ⟨0, { on with pwr := { vaux := false }, life := { pairs := [(0, ⟨8, 8⟩), (1, ⟨5, 0⟩)] } },
     by decide +kernel⟩,
   ⟨0, { on with pwr := { vaux := false }, life := { pairs := [(0, ⟨8, 8⟩), (1, ⟨5, 0⟩)] } },
     by decide +kernel⟩,
   ⟨0, false, on, by decide +kernel⟩,
   ⟨0, (sets [(reg 1 0x044, 5), (dreg 0 0x100, 9)] on).setUnitState 9 2, by decide +kernel⟩,
   ⟨0, 1, on, by decide +kernel⟩,
   ⟨0, 4, { on with pwr := { phase := .fault } }, by decide +kernel⟩,
   ⟨0, 1, 0,
     { running := [{ desc := { src := .host, ws := [0x90002, 0x1407000, 117440513, 3, 16, 2, 3, 0] }, since := 7, data := [5] }] },
     { desc := { src := .host, ws := [0x90002, 0x1407000, 117440513, 3, 16, 2, 3, 0] }, since := 7, data := [5] },
     { on with store := { queues := [(1, { running := [{ desc := { src := .host, ws := [0x90002, 0x1407000, 117440513, 3, 16, 2, 3, 0] }, since := 7, data := [5] }] })] } },
     _, rfl, by decide +kernel⟩,
   ⟨0, { on with ep := { perst := true }, mem := [(5, 1)] }, _, rfl, by decide +kernel⟩,
   ⟨0, { on with pwr := { phase := .fault, hold := 0x30, faultN := true, resetN := false } }, _, rfl,
     by decide +kernel⟩,
   ⟨0, .host, 0xC0960001, on, _, rfl, by decide +kernel⟩,
   ⟨0, .host, 1, on, by decide +kernel⟩,
   ⟨0, (List.replicate 15 16 ++ [2000]), 0xFFF0, 2000, on, by decide +kernel⟩,
   ⟨0, (List.replicate 15 16 ++ [2000]), 0, 2000,
     { on with pwr := { phase := .user, ready := true, serving := true, hot := 9 } }, by decide +kernel⟩,
   ⟨0, [], 0, { on with pwr := { vaux := false } }, by decide +kernel⟩⟩

theorem witness_StartAndShutdown :
    (∃ (t : Nat) (straps : BitVec 4) (s : State) (z : State), z = s.upTo t ∧ StartDue s z ∧ s.life.fault =
      false ∧ s.rollOwed = false) ∧
    (∃ (t : Nat) (straps : BitVec 4) (o : StartRun) (s : State) (z : State), z = s.upTo t ∧ StartDue s z ∧
      s.life.fault = false ∧ s.rollOwed = false) ∧
    (∃ (t : Nat) (straps : BitVec 4) (bad : List (Nat × BitVec 64)) (wipe : Bool) (s : State) (z : State), z =
      s.upTo t ∧ StartDue s z ∧ s.life.fault = false ∧ s.rollOwed = false ∧ rowGood bad = false) ∧
    (∃ (e : StartRun × Nat) (t : Nat) (straps : BitVec 4) (s : State) (z : State), z = s.upTo t ∧ True ∧
      StartDue s z ∧ s.life.fault = false ∧ s.rollOwed = false) ∧
    (∃ (t : Nat) (straps : BitVec 4) (refclk : Bool) (o : StartRun) (s : State) (z : State), z = s.upTo t ∧
      StartDue s z ∧ s.life.fault = true) ∧
    (∃ (t : Nat) (straps : BitVec 4) (refclk : Bool) (o : StartRun) (s : State) (z : State), z = s.upTo t ∧
      s.thermalHold = false ∧ (s.pwr.vaux = false ∨ s.pwr.phase ≠ .reset ∨ z.now < s.pwr.startAt)) ∧
    (∃ (t : Nat) (straps : BitVec 4) (refclk : Bool) (o : StartRun) (s : State), s.thermalHold = true ∧
      s.pwr.resetN = false ∧ 1760 ≤ s.pwr.top) ∧
    (∃ (t : Nat) (s : State), s.pwr.clockWait = true) ∧
    (∃ (t : Nat) (o : StartRun) (s : State), s.pwr.clockWait = false) ∧
    (∃ (t : Nat) (s : State) (z : State), z = s.upTo t ∧ s.startOver = true) ∧
    (∃ (t : Nat) (s : State), s.startOver = false) ∧
    (∃ (t : Nat) (a : Agent) (v : Word) (s : State) (z : State), z = s.upTo t ∧ privileged a = true ∧ Opens a
      pStw s ∧ bit v 0 = true ∧ s.pwr.ready = true ∧ s.lifeBusy = false) ∧
    (∃ (t : Nat) (a : Agent) (v : Word) (s : State), privileged a = true ∧ Opens a pStw s ∧ bit v 0 = true ∧
      (s.pwr.ready = false ∨ s.lifeBusy = true)) ∧
    (∃ (t : Nat) (s : State) (z : State), z = s.upTo t ∧ s.pwr.phase = .drain ∧
      ((∀ q, q ∈ [1, 2, 3] → s.dqHeld q = 0) ∨ s.pwr.shutAt + ms 100 ≤ z.now) ∧ s.inSelftest pStw = false) ∧
    (∃ (t : Nat) (s : State) (z : State), z = s.upTo t ∧ (s.pwr.phase ≠ .drain ∨
      (∃ q, q ∈ [1, 2, 3] ∧ s.dqHeld q ≠ 0) ∧ z.now < s.pwr.shutAt + ms 100)) :=
  ⟨⟨0, 1,
     { on with pwr := { phase := .reset }, life := { latch := 1 }, bist := { recs := [(7, { result := 2, pats := 5, mem := false, logic := true, misr := 0 })] } },
     _, rfl, by decide +kernel⟩,
   ⟨0, 0, {}, { on with pwr := { phase := .reset } }, _, rfl, by decide +kernel⟩,
   ⟨0, 0, [(511, (rowCrc + 1).setWidth 64)], true, { on with pwr := { phase := .reset } }, _, rfl,
     by decide +kernel, by decide +kernel, by decide +kernel, test_row_altered⟩,
   ⟨({ wipe := false }, 0x21), 0, 0, { on with pwr := { phase := .reset } }, _, rfl, by decide +kernel⟩,
   ⟨0, 0, false, {}, { on with pwr := { phase := .reset }, life := { fault := true } }, _, rfl,
     by decide +kernel⟩,
   ⟨0, 0, false, {}, on, _, rfl, by decide +kernel⟩,
   ⟨0, 0, false, {},
     { on with pwr := { phase := .fault, hold := 0x30, faultN := true, vaux := true, resetN := false, top := 1760 } },
     by decide +kernel⟩,
   ⟨0, { on with pwr := { phase := .starting, clockWait := true } }, by decide +kernel⟩,
   ⟨0, {}, on, by decide +kernel⟩,
   ⟨0, { on with pwr := { phase := .starting, t0 := 1000000000 } }, _, rfl, by decide +kernel⟩,
   ⟨0, on, by decide +kernel⟩,
   ⟨0, .host, 1, (sets [(qreg 3 0x05C, 2), (reg (pSeq 3) oStatus, 2)] on).setSq 3 {}, _, rfl,
     by decide +kernel⟩,
   ⟨0, .host, 1, { on with pwr := { phase := .user, serving := true } }, by decide +kernel⟩,
   ⟨0, { on with pwr := { phase := .drain } }, _, rfl, by decide +kernel⟩,
   ⟨0, on, _, rfl, by decide +kernel⟩⟩

theorem witness_AfterReset : ∃ p, (blockOf p).isSome = true := ⟨0x1EF, by decide +kernel⟩

theorem witness_ClockAndQueue : ∃ s : State, s.pending = [] := ⟨on, rfl⟩

theorem witness_MemoryStaysCanonical :
    ∃ s u : State, Memory.wf s.mem = true ∧ step s = .next u :=
  ⟨{ on with mem := [(7, 1)], pending := [.bar2Write 0 0x02000040 0xF (some 7)] }, _, by decide +kernel, rfl⟩

theorem witness_MemoryFrame :
    ∃ (c : Instr) (s u : State), c.storing = false ∧ exec c s = .next u :=
  ⟨.hsubmit 0 .host 1, on, _, rfl, rfl⟩

theorem witness_PowerStaysConsistent :
    ∃ s u : State, PowerConsistent s.pwr ∧ step s = .next u :=
  ⟨{ on with pending := [.shutdown 0 .host 1] }, _, by decide +kernel, rfl⟩

theorem witness_SharedPagesAreGated :
    (∃ (c : Instr) (a : Agent) (p : Nat) (s : State), c.sharedPage = some (a, p) ∧ s.serves a = true ∧
      s.closed p = false ∧ s.inSelftest p = true) ∧
    (∃ (c : Instr) (a : Agent) (p : Nat) (s : State), c.sharedPage = some (a, p) ∧ s.serves a = true ∧
      s.closed p = false ∧ s.inSelftest p = false ∧ s.reachesWrite a p = false) ∧
    ∃ (c : Instr) (a : Agent) (p : Nat) (s : State), c.sharedPage = some (a, p) ∧ s.serves a = true ∧
      s.closed p = false ∧ s.inSelftest p = false ∧ s.reachesWrite a p = true ∧ s.ownerAllows p a = false :=
  ⟨⟨.tsDataWrite 0 .host 5 1, .host, pGrp 5, sets [(reg (pGrp 5) oStatus, 4)] on, by decide +kernel⟩,
   ⟨.mdioGo 0 (.seq 3) 0xAF 1, .seq 3, 0xAF, on, by decide +kernel⟩,
   ⟨.shaftApply 0 (.region 6) 15 1, .region 6, pDom 15, sets [(reg (pDom 15) oOwner, 0x14)] on, by decide +kernel⟩⟩

end Sys2Proof.Tests
end

section
/-! PROOFS. What holds right after reset (O55). -/
namespace Sys2Proof.Machine

/-- Every register that the tables name lies behind the common header (Table 16.2). -/
theorem regRow_header (b : Block) {off : Nat} (h : off < 0x40) : regRow b off = none := by
  have hlo : ∀ r ∈ blockRows b, 0x40 ≤ r.lo := by cases b <;> decide
  refine List.find?_eq_none.mpr fun r hr => ?_
  have := hlo r hr
  simp [RegRow.holds]; omega

theorem pageRow_header (p : Nat) {off : Nat} (h : off < 0x40) : pageRow p off = none := by
  unfold pageRow
  split
  · rfl
  · rw [if_neg (by simp; omega), if_neg (by simp; omega), regRow_header _ h]

/-- A header register other than EVENT_MASK reads 0 after reset (Table 16.3). -/
theorem rd_reset_header (p : Nat) {off : Nat} (h : off < 0x40) (hm : off ≠ oMask) : State.reset.rd (reg p off) = 0 := by
  have hmod : reg p off % 4096 = off := by unfold reg; omega
  have hrow : pageRow (reg p off / 4096) (reg p off % 4096) = none := by rw [hmod, pageRow_header _ h]
  change regReset (reg p off) = 0
  unfold regReset
  rw [if_neg (by simp [hmod, hm]), hrow]

/-- EVENT_MASK of a page of the directory reads 0xFFFF after reset (Table 16.3). -/
theorem rd_reset_mask {p : Nat} (h : (blockOf p).isSome = true) : State.reset.rd (reg p oMask) = 0xFFFF := by
  have hmod : reg p oMask % 4096 = oMask := by unfold reg oMask; omega
  have hdiv : reg p oMask / 4096 = p := reg_div (by decide)
  change regReset (reg p oMask) = 0xFFFF
  unfold regReset
  rw [if_pos (by simp [hmod, hdiv, h])]

/-- The header of a page after reset: no unit enabled, nothing raised, owned or locked. -/
theorem header_reset {p : Nat} (h : (blockOf p).isSome = true) :
    State.reset.rd (reg p oMask) = 0xFFFF ∧ State.reset.unitState p = 0 ∧ State.reset.rd (reg p oEvent) = 0 ∧
      State.reset.rd (reg p oOwner) = 0 ∧ State.reset.locked p = false ∧ State.reset.rb (reg p oCtrl) 0 = false := by
  have hz {off : Nat} : off < 0x40 → off ≠ oMask → State.reset.rd (reg p off) = 0 := rd_reset_header p
  refine ⟨rd_reset_mask h, ?_, hz (by decide) (by decide), hz (by decide) (by decide), ?_, ?_⟩
  · unfold State.unitState State.rf; rw [hz (by decide) (by decide)]; decide
  · unfold State.locked State.rb; rw [hz (by decide) (by decide)]; decide
  · unfold State.rb; rw [hz (by decide) (by decide)]; decide

/-- Settles O55: the header from its general lemma, the named registers and the power state by evaluation. -/
theorem afterReset : Obligations.AfterReset :=
  ⟨fun _ => header_reset, by decide, by decide, by decide, by decide, fun _ => rfl, rfl, rfl, rfl, rfl, by decide⟩

end Sys2Proof.Machine
end

section
/-! PROOFS. Further rules of `Yields` and `Only`, the receive path of a pin group, and the order of the writes of a cycle. -/
namespace Sys2Proof
open Machine
variable {ks : List Nat} {ps : List Part} {s u : State}

/-! ### Further rules of `Yields` and `Only` -/

/-- A command whose meaning is `run t f` has the effect of `f` at its instant. -/
theorem Yields.of_run {c : Instr} {t : Nat} {f : State → State} {P : State → Prop} (hc : exec c s = run t f s)
    (h : P ((s.upTo t).settle (f (s.upTo t)))) : Yields c s P := ⟨_, hc, h⟩

/-- The frame of an effect, as the frame of the command that runs it. -/
theorem Only.ran {t : Nat} (h : Only ks ps (s.upTo t) u) : Only ks ps s ((s.upTo t).settle u) := h.ofUpTo.settle

theorem Only.take {key per rank : Nat} (h : Only ks ps s u) (hp : Part.taken ∈ ps) :
    Only ks ps s (u.take key per rank) :=
  ⟨h.1, fun p n => by
    cases p with
    | taken => exact absurd hp n
    | _ => exact h.2 _ n⟩

/-- A register written with the word that it holds reads as before. -/
theorem Only.wr_self {k : Nat} {v : Word} (h : Only ks ps s u) (hv : v = u.rd k) : Only ks ps s (u.wr k v) :=
  ⟨fun j hj => by
    rw [State.rd_wr]
    split
    · next e => rw [hv, ← e]; exact h.1 j hj
    · exact h.1 j hj,
    ((h.mono (ks2 := k :: ks) (fun _ => .tail k) fun _ => id).wr (.head ks)).2⟩

theorem Only.forEach {α : Type} {l : List α} {f : α → State → State} (h : Only ks ps s u)
    (hf : ∀ a ∈ l, ∀ z, Only ks ps z (f a z)) : Only ks ps s (Machine.forEach l f u) := by
  unfold Machine.forEach
  induction l generalizing u with
  | nil => exact h
  | cons a l ih => exact ih (h.trans (hf a (.head l) u)) fun b hb => hf b (.tail a hb)

theorem Only.raiseAt {t p b : Nat} (h : Only ks ps s u) (hk : reg p oEvent ∈ ks) (hp : ∀ q, q ∈ eventParts → q ∈ ps) :
    Only ks ps s (u.raiseAt t p b) := by
  unfold State.raiseAt
  refine Only.ite (fun _ => h) fun _ => ?_
  exact ((h.wb hk).with_ctr (hp _ (by decide))).judge (hp _ (by decide)) (hp _ (by decide))

/-! ### The receive path of a pin (R73) -/

/-- The parts that the receive path of a pin touches beside EVENT. -/
abbrev rxParts : List Part := .pins :: .free :: eventParts

theorem Only.rxPush {i t : Nat} {bs : List Bool} (h : Only ks ps s u) (hk : reg (pGrp (i / 64)) oEvent ∈ ks)
    (hp : ∀ q, q ∈ rxParts → q ∈ ps) : Only ks ps s (u.rxPush i t bs) := by
  have hpins : Part.pins ∈ ps := hp _ (by decide)
  unfold State.rxPush
  dsimp only
  exact Only.ite (fun _ => (h.setPin hpins).raiseAt hk fun q hq => hp q (.tail _ (.tail _ hq))) fun _ => h.setPin hpins

theorem Only.rxTake {i : Nat} {l : List RxItem} (h : Only ks ps s u) (hk : reg (pGrp (i / 64)) oEvent ∈ ks)
    (hp : ∀ q, q ∈ rxParts → q ∈ ps) : Only ks ps s (u.rxTake i l) := by
  have hpins : Part.pins ∈ ps := hp _ (by decide)
  induction l generalizing u with
  | nil => exact h.setPin hpins
  | cons x l ih =>
    cases x with
    | wait id n per own => exact h.setPin hpins
    | flush => exact ih (Only.ite (fun _ => h) fun _ => h.rxPush hk hp)
    | sample t own =>
      unfold State.rxTake
      refine Only.ite (fun _ => h.setPin hpins) fun _ => ih ?_
      have hd : ∀ c : Bool, Only ks ps s (if c then u.drew else u) :=
        fun c => Only.ite (fun _ => h.drew (hp _ (by decide))) fun _ => h
      exact Only.ite (fun _ => (hd _).rxPush hk hp) fun _ => (hd _).setPin hpins

/-- Bringing the receive paths of a pin group up to the present touches EVENT of its page alone. -/
theorem Only.rxGroup {g : Nat} (h : Only ks ps s u) (hk : reg (pGrp g) oEvent ∈ ks) (hp : ∀ q, q ∈ rxParts → q ∈ ps) :
    Only ks ps s (u.rxGroup g) := by
  unfold State.rxGroup
  refine h.forEach fun i hi z => Only.refl.rxTake ?_ hp
  have hg : i / 64 = g := by
    have := (List.mem_filter.mp (List.mem_filter.mp hi).1).2
    simpa using this
  rwa [hg]

/-! ### The order of the writes of a cycle (R177, R439) -/

theorem Only.ordered {a : Agent} {p off : Nat} {f : State → State} (hf : Only ks ps s (f s))
    (hp : Part.taken ∈ ps) : Only ks ps s (Machine.ordered a p off f s) := by
  unfold Machine.ordered
  split
  · exact Only.ite (fun _ => Only.refl) fun _ => Only.ite (fun _ => hf) fun _ => hf.take hp
  · exact hf

/-- A write that prevails has its effect, and beside it only its place in the order is kept. -/
theorem ordered_only_of_prevails {a : Agent} {p off : Nat} {f : State → State} (h : Prevails a p off s) :
    Only [] [.taken] (f s) (Machine.ordered a p off f s) := by
  rcases ordered_prevails (f := f) h with e | ⟨k, n, e⟩ <;> rw [e]
  · exact Only.refl
  · exact Only.refl.take (by simp)

end Sys2Proof
end

section
/-! PROOFS. What a register of the header, and one that only stores, hold after a write (R5, R6, R433 to R438). -/
namespace Sys2Proof.Machine

/-! ### Register writes of the header -/

/-- The writes of one cycle to a register whose fields do not hold what was written last have no order. -/
theorem ordered_of_not_plainReg {a : Agent} {p off : Nat} {f : State → State} {s : State}
    (h : plainReg p off = false) : ordered a p off f s = f s := by
  simp [ordered, orderPlace, h]

theorem not_plainReg_oEvent (p : Nat) : plainReg p oEvent = false := by
  simp [plainReg, oEvent, oCtrl, oMask, oOwner]

theorem not_plainReg_oLock (p : Nat) : plainReg p oLock = false := by
  simp [plainReg, oLock, oCtrl, oMask, oOwner]

/-- EVENT shows no receive path but that of a pin group. -/
theorem eventSync_of_not_pingroup {p : Nat} {s : State} (h : blockOf p ≠ some .pingroup) : s.eventSync p = s := by
  unfold State.eventSync
  split
  · next b hb => simp [blockOf, hb] at h
  · rfl

theorem rd_eventWrite (p : Nat) (v : Word) (s : State) :
    (State.eventWrite p v s).rd (reg p oEvent) =
      (s.eventSync p).rd (reg p oEvent) &&& ~~~(v &&& ~~~(word ((s.eventSync p).raisedNow p))) := by
  simp [State.eventWrite]

theorem Only.eventWrite {ks : List Nat} {ps : List Part} {s u : State} {p : Nat} {v : Word}
    (h : Only ks ps s (u.eventSync p)) (hk : reg p oEvent ∈ ks) (he : Part.ep ∈ ps) (ho : Part.out ∈ ps) :
    Only ks ps s (State.eventWrite p v u) := (h.wr hk).judge he ho

theorem maskWrite_only (p : Nat) (v : Word) (s : State) : Only [reg p oMask] [.ep, .out] s (State.maskWrite p v s) :=
  (Only.refl.wr (by simp)).judge (by simp) (by simp)

@[simp] theorem rd_maskWrite (p : Nat) (v : Word) (s : State) :
    (State.maskWrite p v s).rd (reg p oMask) = v &&& 0xFFFF := by simp [State.maskWrite]

theorem ownerWrite_accepted {p : Nat} {v : Word} {s : State} (hl : s.locked p = false)
    (hv : fld v 7 0 ∈ [0x00, 0x01, 0x10, 0x3F, 0xF0]) :
    State.ownerWrite p v s = s.wr (reg p oOwner) (word (fld v 7 0)) := by
  have hok : (decide (fld v 7 0 = 0) || decide (fld v 7 0 = 1) ||
      (decide (0x10 ≤ fld v 7 0) && decide (fld v 7 0 ≤ 0x3F)) || decide (fld v 7 0 = 0xF0)) = true := by
    simp only [List.mem_cons, List.not_mem_nil, or_false] at hv
    rcases hv with e | e | e | e | e <;> simp [e]
  unfold State.ownerWrite
  simp [hl, hok]

/-! ### Registers that only store (R5, R6, R438) -/

/-- What a write of `v` leaves in a register of row `r` that holds `old`. -/
def stored (r : RegRow) (enZero : Bool) (old v : Word) : Word :=
  let m := word ((if r.gate = .rw || enZero then r.rw else 0) + (if enZero then r.more else 0))
  ((old &&& ~~~m) ||| (v &&& m)) &&& ~~~(v &&& word r.w1c)

theorem storeReg_eq {p off : Nat} {r : RegRow} (h : pageRow p off = some r) (v : Word) (s : State) :
    State.storeReg p off v s = s.wr (reg p off) (stored r (s.enZero p) (s.rd (reg p off)) v) := by
  unfold State.storeReg; rw [h]; rfl

/-- A write that takes no bit. -/
theorem merge_word_zero (old v : Word) : (old &&& ~~~(word 0)) ||| (v &&& word 0) = old := by
  have h : word 0 = 0#32 := rfl
  rw [h, BitVec.and_zero, BitVec.or_zero, BitVec.not_zero, BitVec.and_allOnes]

/-- A write that clears no bit. -/
theorem and_not_and_word_zero (x v : Word) : x &&& ~~~(v &&& word 0) = x := by
  have h : word 0 = 0#32 := rfl
  rw [h, BitVec.and_zero, BitVec.not_zero, BitVec.and_allOnes]

/-- A register whose bits take writes in every state keeps its other bits. -/
theorem stored_rw (lo m reset : Nat) (e : Bool) (old v : Word) :
    stored (rwRow lo m reset) e old v = (old &&& ~~~(word m)) ||| (v &&& word m) := by
  cases e <;> exact and_not_and_word_zero _ v

/-- A register whose bits take writes while EN = 0 does so then. -/
theorem stored_en0 (lo m reset : Nat) (old v : Word) :
    stored (en0Row lo m reset) true old v = (old &&& ~~~(word m)) ||| (v &&& word m) :=
  and_not_and_word_zero _ v

/-- A register whose bits take writes while EN = 0 keeps its word in the other states. -/
theorem stored_en0_shut (lo m reset : Nat) (old v : Word) : stored (en0Row lo m reset) false old v = old :=
  (and_not_and_word_zero _ v).trans (merge_word_zero old v)

/-- A register each bit of which a 1 clears. -/
theorem stored_w1c (lo n : Nat) (e : Bool) (old v : Word) :
    stored { lo := lo, n := n, w1c := allBits } e old v = old &&& ~~~v := by
  have h : stored { lo := lo, n := n, w1c := allBits } e old v =
      ((old &&& ~~~(word 0)) ||| (v &&& word 0)) &&& ~~~(v &&& word allBits) := by cases e <;> rfl
  have hv : v &&& word allBits = v := BitVec.and_allOnes
  rw [h, merge_word_zero, hv]

/-! ### The writes of the pages named -/

theorem pageRow_loadPosHi (d : Fin 16) : pageRow (pDom d) 0x074 = some (rwRow 0x074 0xFFFFF) := by revert d; decide
theorem pageRow_src (d : Fin 16) : pageRow (pDom d) 0x040 = some (en0Row 0x040 0x007FFFFF) := by revert d; decide
theorem plainReg_loadPosHi (d : Fin 16) : plainReg (pDom d) 0x074 = true := by revert d; decide
theorem not_plainReg_failLo (g : Fin 48) : plainReg (pGrp g) 0x068 = false := by revert g; decide
theorem pageRow_failLo (g : Fin 48) : pageRow (pGrp g) 0x068 = some { lo := 0x068, n := 2, w1c := allBits } := by
  revert g; decide

theorem pageWrite_dom_store {a : Agent} {d : Fin 16} {off : Nat} (h : off = 0x040 ∨ off = 0x074) (v : Word) (s : State) :
    State.pageWrite a (pDom d) off v s = State.storeReg (pDom d) off v s := by
  rcases h with rfl | rfl <;> simp [State.pageWrite, State.expertOk, State.isTrim, State.domPageWrite]

theorem pageWrite_failLo {a : Agent} {g : Fin 48} (v : Word) (s : State) :
    State.pageWrite a (pGrp g) 0x068 v s = State.storeReg (pGrp g) 0x068 v s := by
  simp [State.pageWrite, State.expertOk, State.isTrim, State.grpPageWrite]

/-- A write to a page's own registers that takes place. -/
theorem regWrite_stores {a : Agent} {p off : Nat} {v : Word} {s : State} (h : Opens a p s) (ho : 0x40 ≤ off)
    (ho2 : off < 4096) (h4 : off % 4 = 0)
    (hw : ∀ z : State, State.pageWrite a p off v z = State.storeReg p off v z) :
    State.regWrite a p off v s = ordered a p off (State.storeReg p off v) (s.answer .ok) := by
  rw [regWrite_page h ho ho2 h4, show State.pageWrite a p off v = State.storeReg p off v from funext hw]

/-- The state after a write that a register stores and that prevails. -/
def Stores (k : Nat) (w : Word) (s u : State) : Prop :=
  u.rd k = w ∧ u.resp = .ok ∧ Only [k] [.resp, .taken] s u

theorem Stores.of_ordered {a : Agent} {p off k : Nat} {f : State → State} {w : Word} {s : State}
    (h : Prevails a p off s) (hf : f (s.answer .ok) = (s.answer .ok).wr k w) :
    Stores k w s (ordered a p off f (s.answer .ok)) := by
  have ho : Only [] [.taken] ((s.answer .ok).wr k w) (ordered a p off f (s.answer .ok)) :=
    hf ▸ ordered_only_of_prevails h
  refine ⟨(ho.1 k (by simp)).trans (State.rd_wr_same _ _ _), ho.2 .resp (by simp), ?_⟩
  exact Only.trans ((Only.refl.answer (by simp)).wr (by simp)) (ho.mono (by simp) (by simp))

theorem Stores.ran {k t : Nat} {w : Word} {s u : State} (h : Stores k w (s.upTo t) u) :
    Stores k w s ((s.upTo t).settle u) := ⟨h.1, h.2.1, h.2.2.ran⟩

end Sys2Proof.Machine
end

section
/-! PROOFS. Register writes by access type, the header, and reserved pages (O3). -/
namespace Sys2Proof.Machine

/-! ### A later agent's write of the same cycle (R177, R439) -/

theorem self_mem_tabPut {α : Type} (m : List (Nat × α)) (a : Nat) (v : α) : (a, v) ∈ tabPut m a v := by
  induction m with
  | nil => simp [tabPut]
  | cons e r ih =>
    unfold tabPut
    split
    · exact List.mem_cons_self
    · split
      · exact List.mem_cons_self
      · exact List.mem_cons_of_mem _ ih

theorem lt_nextAfter {m : Nat} (t : Nat) (h : 0 < m) : t < nextAfter m t :=
  (Nat.div_lt_iff_lt_mul h).mp (Nat.lt_succ_self _)

/-- A write taken in a cycle overtakes those of lower rank to the end of the cycle. -/
theorem outranked_take (s : State) (key : Nat) {per rank low : Nat} (hper : 0 < per) (h : low < rank) :
    (s.take key per rank).outranked key low = true := by
  unfold State.outranked
  refine List.any_eq_true.mpr ⟨(key, nextAfter per s.now, rank), self_mem_tabPut _ _ _, ?_⟩
  simp [h, lt_nextAfter s.now hper]

/-- A write that does not prevail leaves nothing. -/
theorem ordered_of_not_prevails {a : Agent} {p off : Nat} {f : State → State} {s : State} (h : ¬Prevails a p off s) :
    ordered a p off f s = s := by
  cases hk : orderPlace a p off with
  | none => exact absurd (fun x hx => by simp [hk] at hx) h
  | some x =>
    obtain ⟨k, n⟩ := x
    by_cases hn : s.outranked k n = true
    · exact ordered_overtaken hk hn
    · refine absurd (fun x hx => ?_) h
      obtain rfl : (k, n) = x := by simpa [hk] using hx
      exact Bool.eq_false_iff.mpr hn

/-- Once a lattice write is taken, a host write to the register in the same cycle comes too late. -/
theorem not_prevails_host_of_lattice {p off : Nat} {f : State → State} {s z : State} (hr : plainReg p off = true)
    (h : Prevails .lattice p off s) (hf : (f s).now = s.now) (hz : z.now = s.now) :
    ¬Prevails .host p off (z.settle (ordered .lattice p off f s)) := by
  have hl : s.outranked (reg p off) 1 = false := h (reg p off, 1) (by simp [orderPlace, hr])
  have ho : ordered .lattice p off f s = (f s).take (reg p off) pageCycle 1 := by
    simp [ordered, orderPlace, hr, hl]
  have hnow : (z.settle ((f s).take (reg p off) pageCycle 1)).outranked (reg p off) 0 =
      ((f s).take (reg p off) pageCycle 1).outranked (reg p off) 0 := by
    have e : z.now = ((f s).take (reg p off) pageCycle 1).now := hz.trans hf.symm
    unfold State.outranked State.settle
    dsimp only
    rw [e]
  intro hh
  have := hh (reg p off, 0) (by simp [orderPlace, hr])
  rw [ho, hnow, outranked_take _ _ (by decide) (by decide)] at this
  exact absurd this (by decide)

/-! ### The writes to the header -/

variable {t off : Nat} {a : Agent} {p : Fin 512} {v : Word} {s : State}

theorem eventMaskWrite_effect (hp : privileged a = true) (ho : Opens a p s) (h : Prevails a p oMask (s.upTo t)) :
    Yields (.eventMaskWrite t a p v) s fun u =>
      u.rd (reg p oMask) = v &&& 0xFFFF ∧ u.resp = .ok ∧ Only [reg p oMask] [.resp, .ep, .out, .taken] s u := by
  refine Yields.of_run rfl ?_
  rw [regWrite_header (Opens.upTo t ho) hp (by decide) (by decide)]
  have h1 := maskWrite_only p v ((s.upTo t).answer .ok)
  have h2 : Only [] [.taken] _ _ :=
    ordered_only_of_prevails (f := State.headerWrite p oMask v) (s := (s.upTo t).answer .ok) h
  refine ⟨(h2.1 _ (by simp)).trans (rd_maskWrite p v _), (h2.2 .resp (by simp)).trans (h1.2 .resp (by simp)), ?_⟩
  exact (((Only.refl.answer (by simp)).trans (h1.mono (by simp) (by simp))).trans (h2.mono (by simp) (by simp))).ran

theorem eventW1c_effect (hp : privileged a = true) (ho : Opens a p s) (hb : blockOf p ≠ some .pingroup) :
    Yields (.eventW1c t a p v) s fun u =>
      u.rd (reg p oEvent) = s.rd (reg p oEvent) &&& ~~~(v &&& ~~~(word ((s.upTo t).raisedNow p))) ∧ u.resp = .ok ∧
        Only [reg p oEvent] [.resp, .ep, .out] s u := by
  refine Yields.of_run rfl ?_
  rw [regWrite_header (Opens.upTo t ho) hp (by decide) (by decide), ordered_of_not_plainReg (not_plainReg_oEvent _)]
  have h1 := rd_eventWrite p v ((s.upTo t).answer .ok)
  rw [eventSync_of_not_pingroup hb] at h1
  have h2 : Only [reg p oEvent] [.ep, .out] ((s.upTo t).answer .ok) (State.eventWrite p v ((s.upTo t).answer .ok)) :=
    Only.eventWrite (by rw [eventSync_of_not_pingroup hb]; exact Only.refl) (by simp) (by simp) (by simp)
  exact ⟨h1, h2.2 .resp (by simp), ((Only.refl.answer (by simp)).trans (h2.mono (by simp) (by simp))).ran⟩

theorem eventW1c_effect_of_pingroup {g : Fin 48} {hg : pGrp g < 512} {z : State}
    (hz : z = ((s.upTo t).answer .ok).rxGroup g) (hp : privileged a = true) (ho : Opens a (pGrp g) s) :
    Yields (.eventW1c t a ⟨pGrp g, hg⟩ v) s fun u =>
      u.rd (reg (pGrp g) oEvent) =
        z.rd (reg (pGrp g) oEvent) &&& ~~~(v &&& ~~~(word (z.raisedNow (pGrp g)))) ∧ u.resp = .ok ∧
        Only [reg (pGrp g) oEvent] (.resp :: .pins :: .free :: eventParts) s u := by
  refine Yields.of_run rfl ?_
  dsimp only
  rw [regWrite_header (Opens.upTo t ho) hp (by decide) (by decide), ordered_of_not_plainReg (not_plainReg_oEvent _)]
  have hsync : ((s.upTo t).answer .ok).eventSync (pGrp g) = z := by simp [State.eventSync, hz]
  have h1 := rd_eventWrite (pGrp g) v ((s.upTo t).answer .ok)
  rw [hsync] at h1
  have h2 : Only [reg (pGrp g) oEvent] rxParts ((s.upTo t).answer .ok)
      (State.eventWrite (pGrp g) v ((s.upTo t).answer .ok)) := by
    refine Only.eventWrite ?_ (by simp) (by decide) (by decide)
    rw [hsync, hz]
    exact Only.refl.rxGroup (by simp) fun _ => id
  exact ⟨h1, h2.2 .resp (by decide), ((Only.refl.answer (by simp)).trans (h2.mono (by simp) fun _ => .tail _)).ran⟩

theorem lock_effect (hp : privileged a = true) (ho : Opens a p s) (hv : bit v 0 = true) :
    Yields (.lock t a p v) s fun u =>
      u.locked p = true ∧ u.rd (reg p oLock) = setBit (s.rd (reg p oLock)) 0 true ∧
        u.rd (reg p oCtrl) = setBit (s.rd (reg p oCtrl)) 1 false ∧ u.resp = .ok ∧
        Only [reg p oLock, reg p oCtrl] [.resp] s u := by
  refine Yields.of_run rfl ?_
  rw [regWrite_header (Opens.upTo t ho) hp (by decide) (by decide), ordered_of_not_plainReg (not_plainReg_oLock _)]
  have hw : State.headerWrite p oLock v ((s.upTo t).answer .ok) =
      ((((s.upTo t).answer .ok).wb (reg p oCtrl) 1 false).wb (reg p oLock) 0 true) := by
    simp [State.headerWrite, State.lockWrite, hv, oLock, oCtrl, oEvent, oMask, oOwner]
  rw [hw]
  refine ⟨?_, ?_, ?_, rfl, ?_⟩
  · simp [State.locked, State.rb_wb_same]
  · simp [State.wb, State.rd_wr, oLock, oCtrl]
  · simp [State.wb, State.rd_wr, oLock, oCtrl]
  · exact (((Only.refl.answer (by simp)).wb (by simp)).wb (by simp)).ran

theorem lock_effect_of_zero (hp : privileged a = true) (ho : Opens a p s) (hv : bit v 0 = false) :
    Yields (.lock t a p v) s fun u => u.resp = .ok ∧ Only [] [.resp] s u := by
  refine Yields.of_run rfl ?_
  rw [regWrite_header (Opens.upTo t ho) hp (by decide) (by decide), ordered_of_not_plainReg (not_plainReg_oLock _)]
  have hw : State.headerWrite p oLock v ((s.upTo t).answer .ok) = (s.upTo t).answer .ok := by
    simp [State.headerWrite, State.lockWrite, hv, oLock, oCtrl, oEvent, oMask, oOwner]
  rw [hw]
  exact ⟨rfl, (Only.refl.answer (by simp)).ran⟩

theorem ownerWrite_effect (hp : privileged a = true) (ho : Opens a p s) (h : Prevails a p oOwner (s.upTo t))
    (hl : s.locked p = false) (hv : fld v 7 0 ∈ [0x00, 0x01, 0x10, 0x3F, 0xF0]) :
    Yields (.registerWrite t a p oOwner v) s (Stores (reg p oOwner) (word (fld v 7 0)) s) := by
  refine Yields.of_run rfl (Stores.ran ?_)
  rw [regWrite_header (Opens.upTo t ho) hp (by decide) (by decide)]
  exact Stores.of_ordered h (ownerWrite_accepted hl hv)

/-! ### The writes to a page's own registers -/

theorem loadPosHiWrite_effect {d : Fin 16} {hd : pDom d < 512} (ho : Opens a (pDom d) s)
    (h : Prevails a (pDom d) 0x074 (s.upTo t)) :
    Yields (.registerWrite t a ⟨pDom d, hd⟩ 0x074 v) s
      (Stores (reg (pDom d) 0x074) ((s.rd (reg (pDom d) 0x074) &&& 0xFFF00000) ||| (v &&& 0xFFFFF)) s) := by
  refine Yields.of_run rfl (Stores.ran ?_)
  rw [regWrite_stores (Opens.upTo t ho) (by decide) (by decide) (by decide) (pageWrite_dom_store (.inr rfl) v)]
  refine Stores.of_ordered h ?_
  rw [storeReg_eq (pageRow_loadPosHi d), stored_rw]
  rfl

theorem srcWrite_effect {d : Fin 16} {hd : pDom d < 512} (ho : Opens a (pDom d) s)
    (h : Prevails a (pDom d) 0x040 (s.upTo t)) (he : s.enZero (pDom d) = true) :
    Yields (.registerWrite t a ⟨pDom d, hd⟩ 0x040 v) s
      (Stores (reg (pDom d) 0x040) ((s.rd (reg (pDom d) 0x040) &&& 0xFF800000) ||| (v &&& 0x7FFFFF)) s) := by
  refine Yields.of_run rfl (Stores.ran ?_)
  rw [regWrite_stores (Opens.upTo t ho) (by decide) (by decide) (by decide) (pageWrite_dom_store (.inl rfl) v)]
  refine Stores.of_ordered h ?_
  rw [storeReg_eq (pageRow_src d), show ((s.upTo t).answer .ok).enZero (pDom d) = true from he, stored_en0]
  rfl

theorem srcWrite_effect_of_enabled {d : Fin 16} {hd : pDom d < 512} (ho : Opens a (pDom d) s)
    (he : s.enZero (pDom d) = false) :
    Yields (.registerWrite t a ⟨pDom d, hd⟩ 0x040 v) s fun u => u.resp = .ok ∧ Only [] [.resp, .taken] s u := by
  refine Yields.of_run rfl ?_
  dsimp only
  rw [regWrite_stores (Opens.upTo t ho) (by decide) (by decide) (by decide) (pageWrite_dom_store (.inl rfl) v)]
  have h1 : Only [] [.taken] ((s.upTo t).answer .ok) (State.storeReg (pDom d) 0x040 v ((s.upTo t).answer .ok)) := by
    rw [storeReg_eq (pageRow_src d), show ((s.upTo t).answer .ok).enZero (pDom d) = false from he, stored_en0_shut]
    exact Only.refl.wr_self rfl
  have h2 := Only.ordered (a := a) (p := pDom d) (off := 0x040) h1 (by simp)
  exact ⟨h2.2 .resp (by simp), ((Only.refl.answer (by simp)).trans (h2.mono (by simp) (by simp))).ran⟩

theorem failLoWrite_effect {g : Fin 48} {hg : pGrp g < 512} (ho : Opens a (pGrp g) s) :
    Yields (.registerWrite t a ⟨pGrp g, hg⟩ 0x068 v) s fun u =>
      u.rd (reg (pGrp g) 0x068) = s.rd (reg (pGrp g) 0x068) &&& ~~~v ∧ u.resp = .ok ∧
        Only [reg (pGrp g) 0x068] [.resp] s u := by
  refine Yields.of_run rfl ?_
  dsimp only
  rw [regWrite_stores (Opens.upTo t ho) (by decide) (by decide) (by decide) (pageWrite_failLo v),
    ordered_of_not_plainReg (not_plainReg_failLo g), storeReg_eq (pageRow_failLo g), stored_w1c]
  exact ⟨State.rd_wr_same _ _ _, rfl, ((Only.refl.answer (by simp)).wr (by simp)).ran⟩

theorem registerWrite_effect_of_overtaken (ho : Opens a p s) (h1 : off < 4096) (h4 : off % 4 = 0)
    (hp : privileged a = true ∨ 0x40 ≤ off) (h : ¬Prevails a p off (s.upTo t)) :
    Yields (.registerWrite t a p off v) s fun u => u.resp = .ok ∧ Only [] [.resp] s u := by
  have hz {f : State → State} : ordered a p off f ((s.upTo t).answer .ok) = (s.upTo t).answer .ok :=
    ordered_of_not_prevails h
  have hw : State.regWrite a p off v (s.upTo t) = (s.upTo t).answer .ok := by
    rw [regWrite_open (Opens.upTo t ho) h1 h4, hz, hz]
    split
    · next hlt => rw [if_pos (hp.resolve_right (by omega))]
    · rfl
  refine Yields.of_run rfl ?_
  rw [hw]
  exact ⟨rfl, (Only.refl.answer (by simp)).ran⟩

theorem latticeWrite_overtakes_host {d : Fin 16} {hd : pDom d < 512} (ho : Opens .lattice (pDom d) s)
    (h : Prevails .lattice (pDom d) 0x074 (s.upTo t)) :
    Yields (.registerWrite t .lattice ⟨pDom d, hd⟩ 0x074 v) s fun u => ¬Prevails .host (pDom d) 0x074 u := by
  refine Yields.of_run rfl ?_
  rw [regWrite_stores (Opens.upTo t ho) (by decide) (by decide) (by decide) (pageWrite_dom_store (.inr rfl) v)]
  refine not_prevails_host_of_lattice (plainReg_loadPosHi d) h ?_ rfl
  rw [storeReg_eq (pageRow_loadPosHi d), State.now_wr]

/-! ### Reserved pages (R8) -/

theorem registerWrite_effect_of_reserved (h : blockOf p = none) :
    Yields (.registerWrite t a p off v) s fun u => Only [] [.resp] s u := by
  refine Yields.of_run rfl (Only.ran ?_)
  unfold State.regWrite
  rw [if_pos (by simp [h])]
  exact Only.ite (fun _ => Only.refl.answer (by simp)) fun _ => Only.refl.answer (by simp)

theorem regRead_reserved {a : Agent} {p off : Nat} {s : State} (hs : s.serves a = true) (h : blockOf p = none) :
    State.regRead a p off s = (s.ret 0xFFFFFFFF).answer .ok := by
  have h1 : p ≠ pLife := by rintro rfl; simp at h
  have h2 : p ≠ pSec := by rintro rfl; simp at h
  simp [State.regRead, hs, h, h1, h2]

theorem bar0Read_effect_of_reserved (hs : s.pwr.serving = true) (h4 : off % 4 = 0) (h : blockOf (off / 4096) = none) :
    Yields (.bar0Access t { off := off, write := false }) s fun u =>
      u.rdata = 0xFFFFFFFF ∧ u.resp = .ok ∧ Only [] [.rdata, .resp] s u := by
  have hb : State.bar0 .host { off := off, write := false } (s.upTo t) = ((s.upTo t).ret 0xFFFFFFFF).answer .ok := by
    have hs' : (s.upTo t).serves .host = true := hs
    simp [State.bar0, hs', h4, regRead_reserved hs' h]
  refine Yields.of_run rfl ?_
  rw [hb]
  exact ⟨rfl, rfl, ((Only.refl.ret (by simp)).answer (by simp)).ran⟩

/-- Settles O3: the clauses one by one, each from the gate of its page and what its register stores. -/
theorem registerWrites : Obligations.RegisterWrites :=
  ⟨fun _ _ _ _ _ => eventMaskWrite_effect, fun _ _ _ _ _ => eventW1c_effect,
    fun _ _ _ _ _ _ => eventW1c_effect_of_pingroup, fun _ _ _ _ _ => lock_effect,
    fun _ _ _ _ _ => lock_effect_of_zero, fun _ _ _ _ _ => loadPosHiWrite_effect,
    fun _ _ _ _ _ => srcWrite_effect, fun _ _ _ _ _ => srcWrite_effect_of_enabled,
    fun _ _ _ _ _ => failLoWrite_effect, fun _ _ _ _ _ => ownerWrite_effect,
    fun _ _ _ _ _ _ => registerWrite_effect_of_overtaken, fun _ _ _ _ => latticeWrite_overtakes_host,
    fun _ _ _ _ _ _ => registerWrite_effect_of_reserved, fun _ _ _ => bar0Read_effect_of_reserved⟩

end Sys2Proof.Machine
end

section
/-! PROOFS. How a sequencer stops: the claim of a LOG let go, the end of issuing, halts and faults. -/
namespace Sys2Proof
open Machine
variable {ks : List Nat} {ps : List Part} {s u : State}

/-! ### The ledger as a LOG's claim ends (R358, R359) -/

/-- The registers and the parts that the end of a claim touches: those of the ledger, and its events. -/
abbrev ledgerRegs : List Nat := [reg pLedger 0x094, reg pLedger oEvent]
abbrev ledgerParts : List Part := .ledger :: eventParts

theorem Only.grant {n : Nat} (h : Only ks ps s u) (hk : ∀ k, k ∈ ledgerRegs → k ∈ ks)
    (hp : ∀ p, p ∈ ledgerParts → p ∈ ps) : Only ks ps s (u.grant n) := by
  have hl : ∀ x, Only ks ps s { u with ledger := x } := fun x => h.with_ledger (hp _ (by decide))
  unfold State.grant
  dsimp only
  exact Only.raiseIf (Only.ite (fun _ => (hl _).wf (hk _ (by simp))) fun _ => hl _) (hk _ (by simp))
    fun q hq => hp q (.tail _ hq)

theorem Only.pump {n : Nat} (h : Only ks ps s u) (hk : ∀ k, k ∈ ledgerRegs → k ∈ ks)
    (hp : ∀ p, p ∈ ledgerParts → p ∈ ps) : Only ks ps s (State.pump n u) := by
  induction n generalizing u with
  | zero => exact h
  | succ n ih =>
    unfold State.pump
    split
    · exact h
    · exact Only.ite (fun _ => ih (h.grant hk hp)) fun _ => h

theorem Only.unclaim {n : Nat} (h : Only ks ps s u) (hk : ∀ k, k ∈ ledgerRegs → k ∈ ks)
    (hp : ∀ p, p ∈ ledgerParts → p ∈ ps) : Only ks ps s (u.unclaim n) := by
  unfold State.unclaim
  refine Only.ite (fun _ => Only.pump ?_ hk hp) fun _ => h
  exact Only.raise (h.with_ledger (hp _ (by decide))) (hk _ (by simp)) fun q hq => hp q (.tail _ hq)

end Sys2Proof

namespace Sys2Proof.Machine.State
variable {s u : State} {q : Nat}

/-- What a sequencer's record holds depends on the records alone. -/
theorem sq_congr (h : u.seqs = s.seqs) (i : Nat) : u.sq i = s.sq i := by unfold sq; rw [h]

/-- A register of a sequencer's page is none of the ledger's. -/
theorem qreg_not_mem_ledgerRegs {off : Nat} (h : off < 4096) : qreg q off ∉ ledgerRegs := by
  have hp : pSeq q ≠ pLedger := by unfold pSeq pLedger; omega
  simp [qreg, reg_eq_page h (show 0x094 < 4096 by decide), reg_eq_page h (show oEvent < 4096 by decide), hp]

/-! ### The claim of a LOG, let go at a halt or a fault (R161) -/

/-- The registers that letting go of a LOG's claim may change: LOG_STAT, and those of the ledger. -/
abbrev logRegs (q : Nat) : List Nat := qreg q 0x098 :: ledgerRegs

theorem logRelease_only (s : State) (q : Nat) : Only (logRegs q) (.seqs :: ledgerParts) s (s.logRelease q) := by
  unfold logRelease
  dsimp only
  split
  · refine Only.ite (fun _ => Only.refl) fun _ => Only.unclaim (Only.wb (Only.setSq Only.refl (.head _)) ?_) ?_ ?_
    · exact List.mem_cons_self
    · exact fun k => .tail _
    · exact fun p => .tail _
  · exact Only.refl

theorem sq_logRelease (s : State) (q : Nat) : (s.logRelease q).sq q = s.sq q ∨
    (s.logRelease q).sq q = { s.sq q with logClaim := none, logQueued := false } := by
  have h (z : State) (c : Nat) : (z.unclaim c).seqs = z.seqs :=
    (Only.unclaim (ks := ledgerRegs) (ps := ledgerParts) Only.refl (fun _ => id) fun _ => id).2 .seqs (by decide)
  unfold logRelease
  dsimp only
  split
  · split
    · exact .inl rfl
    · exact .inr ((sq_congr (h _ _) q).trans (by rw [sq_wb, sq_setSq, if_pos rfl]))
  · exact .inl rfl

/-! ### The end of issuing -/

theorem endVectors_only (s : State) (q : Nat) : Only [] [.pins] s (s.endVectors q) := by
  unfold endVectors
  dsimp only
  split
  · exact Only.refl
  · exact Only.refl.forEach fun i _ z => Only.ite (fun _ => Only.refl.setPin (by simp)) fun _ => Only.refl

theorem stopIssue_only (s : State) (q : Nat) : Only [] [.pins, .seqs] s (s.stopIssue q) :=
  ((endVectors_only s q).mono (by simp) (by simp)).setSq (by simp)

theorem sq_stopIssue (s : State) (q : Nat) : (s.stopIssue q).sq q = { s.sq q with issuing := false } := by
  have h : (s.endVectors q).sq q = s.sq q := sq_congr ((endVectors_only s q).2 .seqs (by simp)) q
  simp [stopIssue, h]

/-! ### Halts and faults (R136, R163) -/

/-- From `s` to `u` sequencer `q` stopped at the instruction that PC names: RUN_STAT reads `run`, and event `b` of its
page was raised. -/
structure Stopped (q b : Nat) (run : Word) (s u : State) : Prop where
  pc : u.pcOf q = s.pcOf q
  stat : u.rd (qreg q 0x05C) = run
  event : u.rb (reg (pSeq q) oEvent) b = true
  idle : (u.sq q).busy = .idle
  step : (u.sq q).step = false

/-- What a halt and a fault share: the sequencer's record and RUN_STAT are set, an event is raised, and a LOG's claim is
let go. -/
def stopWith (q : Nat) (x : Seq) (run : Word) (b : Nat) (s : State) : State :=
  (((s.setSq q x).wr (qreg q 0x05C) run).raise (pSeq q) b).logRelease q

theorem stopped_stopWith {x : Seq} (run : Word) {b : Nat} (hb : b < 32) (hx : x.busy = .idle) (hs : x.step = false)
    (h : s.inSelftest (pSeq q) = false) : Stopped q b run s (stopWith q x run b s) := by
  have hself : ((s.setSq q x).wr (qreg q 0x05C) run).inSelftest (pSeq q) = false := by simpa [qreg] using h
  have hrd {off : Nat} (h1 : off < 4096) (h2 : off ≠ 0x098) :
      (stopWith q x run b s).rd (qreg q off) =
        (((s.setSq q x).wr (qreg q 0x05C) run).raise (pSeq q) b).rd (qreg q off) :=
    (logRelease_only _ q).1 _ fun hm => (List.mem_cons.mp hm).elim (fun e => h2 (by simpa [qreg] using e))
      (qreg_not_mem_ledgerRegs h1)
  have hsq : (stopWith q x run b s).sq q = x ∨
      (stopWith q x run b s).sq q = { x with logClaim := none, logQueued := false } := by
    simpa [stopWith] using sq_logRelease (((s.setSq q x).wr (qreg q 0x05C) run).raise (pSeq q) b) q
  refine ⟨?_, ?_, ?_, ?_, ?_⟩
  · unfold pcOf rf
    rw [hrd (by decide) (by decide), rd_raise_ne _ _ _ _ (by simp [qreg, oEvent]),
      rd_wr_ne _ _ _ _ (by simp [qreg]), rd_setSq]
  · rw [hrd (by decide) (by decide), rd_raise_ne _ _ _ _ (by simp [qreg, oEvent]), rd_wr_same]
  · unfold rb
    rw [show reg (pSeq q) oEvent = qreg q oEvent from rfl, hrd (by decide) (by decide)]
    exact rb_raise_same _ _ _ hself hb
  · rcases hsq with e | e <;> rw [e] <;> exact hx
  · rcases hsq with e | e <;> rw [e] <;> exact hs

theorem Stopped.stopIssue {b : Nat} {run : Word} (h : Stopped q b run s u) : Stopped q b run s (u.stopIssue q) := by
  have hrd (k : Nat) : (u.stopIssue q).rd k = u.rd k := (stopIssue_only u q).1 k (by simp)
  refine ⟨?_, (hrd _).trans h.stat, ?_, ?_, ?_⟩
  · unfold pcOf rf; rw [hrd]; exact h.pc
  · unfold rb; rw [hrd]; exact h.event
  · rw [sq_stopIssue]; exact h.idle
  · rw [sq_stopIssue]; exact h.step

/-- RUN_STAT after a halt with `cause`, from its word `w` before. -/
def haltStat (cause : Nat) (w : Word) : Word := setFld (setFld w 11 8 cause) 2 0 4

/-- RUN_STAT after a fault of `code`. -/
def faultStat (code : Nat) (w : Word) : Word := setFld (setFld (setFld w 15 12 code) 11 8 5) 2 0 5

theorem stopped_haltAt (cause : Nat) (h : s.inSelftest (pSeq q) = false) :
    Stopped q 0 (haltStat cause (s.rd (qreg q 0x05C))) s (s.haltAt q cause) :=
  stopped_stopWith (x := { s.sq q with busy := .idle, step := false, armed := none }) _ (by decide) rfl rfl h

theorem stopped_faultAt (code : Nat) (h : s.inSelftest (pSeq q) = false) :
    Stopped q 1 (faultStat code (s.rd (qreg q 0x05C))) s (s.faultAt q code) := by
  have hz := stopped_stopWith (b := 1) (x := { s.sq q with busy := .idle, step := false, spanFault := false })
    (faultStat code (s.rd (qreg q 0x05C))) (by decide) rfl rfl h
  unfold faultAt
  dsimp only
  split
  · exact hz.stopIssue
  · exact hz

theorem Stopped.halted {cause : Nat} {w : Word} (h : Stopped q 0 (haltStat cause w) s u) (hc : cause < 16) :
    u.runOf q = 4 ∧ u.rf (qreg q 0x05C) 11 8 = cause := by
  have h1 : u.rd (reg (pSeq q) 0x05C) = haltStat cause w := h.stat
  constructor
  · unfold runOf rf; rw [h1, haltStat]; exact fld_setFld _ _ _ _ (by decide) (by decide)
  · unfold rf
    rw [h.stat, haltStat, fld_setFld_ne _ _ _ _ _ _ (by decide) (by decide) (by decide),
      fld_setFld _ _ _ _ (by decide) (by decide)]
    exact Nat.mod_eq_of_lt hc

theorem Stopped.faulted {code : Nat} {w : Word} (h : Stopped q 1 (faultStat code w) s u) (hc : code < 16) :
    u.runOf q = 5 ∧ u.rf (qreg q 0x05C) 15 12 = code := by
  have h1 : u.rd (reg (pSeq q) 0x05C) = faultStat code w := h.stat
  constructor
  · unfold runOf rf; rw [h1, faultStat]; exact fld_setFld _ _ _ _ (by decide) (by decide)
  · unfold rf
    rw [h.stat, faultStat, fld_setFld_ne _ _ _ _ _ _ (by decide) (by decide) (by decide),
      fld_setFld_ne _ _ _ _ _ _ (by decide) (by decide) (by decide), fld_setFld _ _ _ _ (by decide) (by decide)]
    exact Nat.mod_eq_of_lt hc

end Sys2Proof.Machine.State
end

section
/-! PROOFS. How an instruction of a sequencer begins and retires. -/
namespace Sys2Proof.Machine.State
variable {s u : State} {q w : Nat} {d : Bool} {sel : Nat → Bool} {f : Nat → State → State}

/-! ### An instruction begins (R131, R135) -/

theorem goSync_of_not_armed (h : (s.sq q).armed = none) : s.goSync q = s := by simp [goSync, h]

/-- The state in which the instruction at PC has its effect: its line is the most recently used one, and a free value was
drawn if its word came undefined. -/
def begun (s : State) (q : Nat) (d : Bool) : State := (if d then s.drew else s).xipTouch q

/-- Touching a line moves it within its bank's buffer. -/
theorem xipTouch_cases (s : State) (q : Nat) : s.xipTouch q = s ∨ ∃ b x, s.xipTouch q = s.setXip b x := by
  unfold xipTouch
  dsimp only
  split
  · exact .inl rfl
  · exact .inr ⟨_, _, rfl⟩

theorem begun_only (s : State) (q : Nat) (d : Bool) : Only [] [.xips, .free] s (s.begun q d) := by
  have h : Only [] [.xips, .free] s (if d then s.drew else s) :=
    Only.ite (fun _ => Only.refl.drew (by simp)) fun _ => Only.refl
  unfold begun
  rcases xipTouch_cases (if d then s.drew else s) q with e | ⟨b, x, e⟩ <;> rw [e]
  · exact h
  · exact h.setXip (by simp)

@[simp] theorem rd_begun (s : State) (q : Nat) (d : Bool) (k : Nat) : (s.begun q d).rd k = s.rd k :=
  (begun_only s q d).1 k (by simp)

@[simp] theorem sq_begun (s : State) (q : Nat) (d : Bool) (i : Nat) : (s.begun q d).sq i = s.sq i :=
  sq_congr ((begun_only s q d).2 .seqs (by simp)) i

/-- A condition looks neither at the execute-in-place buffers nor at free values. -/
theorem condition_begun (s : State) (q c : Nat) (d : Bool) : (s.begun q d).condition q c = s.condition q c := by
  have h : (if d then s.drew else s).condition q c = s.condition q c := by cases d <;> rfl
  unfold begun
  rcases xipTouch_cases (if d then s.drew else s) q with e | ⟨b, x, e⟩ <;> rw [e, ← h]
  rfl

theorem inSelftest_begun (s : State) (q : Nat) (d : Bool) (h : s.inSelftest (pSeq q) = false) :
    (s.begun q d).inSelftest (pSeq q) = false := by
  unfold inSelftest unitState rf at *; rwa [rd_begun]

/-- The unit takes the word at PC for `sel` to judge. -/
def Takes (s : State) (q w : Nat) (d : Bool) (sel : Nat → Bool) : Prop :=
  s.canExec q = true ∧ (s.sq q).armed = none ∧ s.fetch q = .word w d ∧ sel w = true

/-- An instruction whose condition is true has its effect. -/
theorem instr_of_yes (h : s.Takes q w d sel) (hc : s.condition q (iCond w) = .yes) (ho : (d && outward w) = false) :
    instr q sel f s = f w (s.begun q d) := by
  obtain ⟨hx, ha, hf, hs⟩ := h
  have hc' : ((if d then s.drew else s).xipTouch q).condition q (iCond w) = .yes := (condition_begun s q _ d).trans hc
  simp [instr, goSync_of_not_armed ha, hx, hf, hs, hc', ho, begun]

/-- An undefined instruction whose condition is true acts within its sequencer. -/
theorem instr_of_undefined (h : s.Takes q w d sel) (hc : s.condition q (iCond w) = .yes) (ho : (d && outward w) = true) :
    instr q sel f s = confined q w (s.begun q d) := by
  obtain ⟨hx, ha, hf, hs⟩ := h
  have hc' : ((if d then s.drew else s).xipTouch q).condition q (iCond w) = .yes := (condition_begun s q _ d).trans hc
  simp [instr, goSync_of_not_armed ha, hx, hf, hs, hc', ho, begun]

/-- An instruction whose condition is false retires. -/
theorem instr_of_no (h : s.Takes q w d sel) (hc : s.condition q (iCond w) = .no) :
    instr q sel f s = (s.begun q d).retireNext q := by
  obtain ⟨hx, ha, hf, hs⟩ := h
  have hc' : ((if d then s.drew else s).xipTouch q).condition q (iCond w) = .no := (condition_begun s q _ d).trans hc
  simp [instr, goSync_of_not_armed ha, hx, hf, hs, hc', begun]

/-- An instruction whose condition waits for judgements does not begin. -/
theorem instr_of_wait (h : s.Takes q w d sel) (hc : s.condition q (iCond w) = .wait) : instr q sel f s = s := by
  obtain ⟨hx, ha, hf, hs⟩ := h
  have hc' : ((if d then s.drew else s).xipTouch q).condition q (iCond w) = .wait := (condition_begun s q _ d).trans hc
  simp [instr, goSync_of_not_armed ha, hx, hf, hs, hc']

/-! ### An instruction retires -/

theorem qreg_inj {a b : Nat} : qreg q a = qreg q b ↔ a = b := reg_eq _ _ _

theorem runOf_of_canExec (h : s.canExec q = true) : s.runOf q = 2 := by simp [canExec] at h; exact h.1.2
theorem busy_of_canExec (h : s.canExec q = true) : (s.sq q).busy = .idle := by simp [canExec] at h; exact h.2
theorem inSelftest_of_canExec (h : s.canExec q = true) : s.inSelftest (pSeq q) = false :=
  inSelftest_of_isOn (by simp [canExec] at h; exact h.1.1)

theorem pcOf_setPc (s : State) (q n : Nat) : (s.setPc q n).pcOf q = n % 2 ^ 20 :=
  rf_wf_same _ _ _ _ _ (by decide) (by decide)

/-- RUN_STAT, seen from another register of the page that was written. -/
theorem runOf_setPc (s : State) (q n : Nat) : (s.setPc q n).runOf q = s.runOf q := by
  unfold runOf rf setPc; rw [rd_wf_ne _ _ _ _ _ _ (by simp [qreg])]

/-- What an instruction that runs on does last: its record is closed, and PC names the next. -/
def retired (q next : Nat) (s : State) : State :=
  (s.setSq q { s.sq q with busy := .idle, retired := s.pcOf q, retiredAt := some s.now, miss := none }).setPc q
    (next % 2 ^ 20)

theorem retire_eq (s : State) (q next : Nat) : s.retire q next =
    if (s.sq q).spanFault then (s.retired q next).faultAt q 6
    else if (s.sq q).step then
      (if (s.sq q).fifo.isEmpty then ((s.retired q next).haltAt q 3).stopIssue q else (s.retired q next).haltAt q 3)
    else if (s.retired q next).runOf q = 3 then (s.retired q next).setRun q 2 else s.retired q next := rfl

theorem runOf_retired (s : State) (q next : Nat) : (s.retired q next).runOf q = s.runOf q := runOf_setPc _ _ _

/-- The next instruction that retires halts sequencer `q` neither for a STEP nor for a fault of its span. -/
def RunsOn (q : Nat) (s : State) : Prop := (s.sq q).spanFault = false ∧ (s.sq q).step = false ∧ s.runOf q = 2

theorem RunsOn.congr (h : RunsOn q s) (hq : u.sq q = s.sq q) (hr : u.rd (qreg q 0x05C) = s.rd (qreg q 0x05C)) :
    RunsOn q u := by
  obtain ⟨hf, hs, h2⟩ := h
  exact ⟨by rw [hq, hf], by rw [hq, hs], (congrArg (fld · 2 0) hr).trans h2⟩

theorem RunsOn.begun (h : RunsOn q s) (d : Bool) : RunsOn q (s.begun q d) :=
  h.congr (sq_begun _ _ _ _) (rd_begun _ _ _ _)

theorem RunsOn.drew (h : RunsOn q s) : RunsOn q s.drew := h

theorem retire_of_runsOn (h : RunsOn q s) (next : Nat) : s.retire q next = s.retired q next := by
  obtain ⟨hf, hs, hr⟩ := h
  rw [retire_eq, runOf_retired, if_neg (by simp [hf]), if_neg (by simp [hs]), if_neg (by omega)]

theorem retire_step {next : Nat} (hf : (s.sq q).spanFault = false) (hs : (s.sq q).step = true) :
    s.retire q next = if (s.sq q).fifo.isEmpty then ((s.retired q next).haltAt q 3).stopIssue q
      else (s.retired q next).haltAt q 3 := by
  rw [retire_eq, if_neg (by simp [hf]), if_pos hs]

theorem retired_only (s : State) (q next : Nat) : Only [qreg q 0x060] [.seqs] s (s.retired q next) :=
  (Only.refl.setSq (by simp)).wf (by simp)

@[simp] theorem pcOf_retired (s : State) (q next : Nat) : (s.retired q next).pcOf q = next % 2 ^ 20 :=
  (pcOf_setPc _ _ _).trans (Nat.mod_mod _ _)

@[simp] theorem sq_retired (s : State) (q next p : Nat) : (s.retired q next).sq p = if p = q then
    { s.sq q with busy := .idle, retired := s.pcOf q, retiredAt := some s.now, miss := none } else s.sq p := by
  simp [retired, setPc]

theorem inSelftest_retired {next p : Nat} (h : s.inSelftest p = false) : (s.retired q next).inSelftest p = false := by
  simpa [retired, setPc, qreg] using h

/-- An instruction that has changed the registers `ks` and the parts `ps`, and no other sequencer's record, retires. -/
theorem retires_retireNext {ks : List Nat} {ps : List Part} (h : RunsOn q u)
    (ho : Only ks (.seqs :: .xips :: .free :: ps) s u) (hq : ∀ p, p ≠ q → u.sq p = s.sq p)
    (hpc : u.rd (qreg q 0x060) = s.rd (qreg q 0x060)) :
    Retires q (s.pcOf q + 1) ks ps s (u.retireNext q) := by
  have e : u.pcOf q = s.pcOf q := congrArg (fld · 19 0) hpc
  rw [retireNext, retire_of_runsOn h, e]
  refine ⟨pcOf_retired _ _ _, by simp, (runOf_retired _ _ _).trans h.2.2, fun p hp => ?_, ?_⟩
  · rw [sq_retired, if_neg hp]; exact hq p hp
  · exact (ho.mono (fun _ => .tail _) fun _ => id).trans ((retired_only _ _ _).mono (by simp) (by simp))

/-- Retiring writes PC alone. -/
theorem rd_retireNext (h : RunsOn q s) {off : Nat} (ho : off ≠ 0x060) :
    (s.retireNext q).rd (qreg q off) = s.rd (qreg q off) := by
  rw [retireNext, retire_of_runsOn h]
  exact (retired_only _ _ _).1 _ (by simp [qreg_inj, ho])

@[simp] theorem pcOf_upTo (s : State) (t q : Nat) : (s.upTo t).pcOf q = s.pcOf q := rfl

/-- What an instruction did when it retired, as the command that runs it. -/
theorem retires_ran {t : Nat} {ks : List Nat} {ps : List Part}
    (h : Retires q ((s.upTo t).pcOf q + 1) ks ps (s.upTo t) u) :
    Retires q (s.pcOf q + 1) ks ps s ((s.upTo t).settle u) := by
  obtain ⟨hpc, hb, hr, hq, ho⟩ := h
  exact ⟨hpc, hb, hr, hq, ho.ran⟩

/-! ### A register of the instruction unit takes a value (R134) -/

theorem only_setGpr {ks : List Nat} {ps : List Part} (h : Only ks ps s u) {n : Nat} (v : Word)
    (hg : qreg q (0x100 + 4 * n) ∈ ks) (hz : qreg q 0x064 ∈ ks) : Only ks ps s (u.setGpr q n v) := (h.wr hg).wb hz

theorem gpr_setGpr (s : State) (q n : Nat) (v : Word) : (s.setGpr q n v).gpr q n = v := by
  unfold gpr setGpr setQflag
  rw [rd_wb_ne _ _ _ _ _ (by rw [ne_eq, qreg_inj]; omega), rd_wr_same]

theorem flags_setGpr (s : State) (q n : Nat) (v : Word) :
    (s.setGpr q n v).rd (qreg q 0x064) = setBit (s.rd (qreg q 0x064)) 12 (decide (v = 0)) := by
  unfold setGpr setQflag wb
  rw [rd_wr_same, rd_wr_ne _ _ _ _ (by rw [ne_eq, qreg_inj]; omega)]

@[simp] theorem sq_setGpr (s : State) (q n : Nat) (v : Word) (p : Nat) : (s.setGpr q n v).sq p = s.sq p := rfl

/-- A write of G leaves every other register of the page but FLAGS. -/
theorem rd_setGpr_ne (s : State) (q n : Nat) (v : Word) {off : Nat} (h : off ≠ 0x100 + 4 * n) (h2 : off ≠ 0x064) :
    (s.setGpr q n v).rd (qreg q off) = s.rd (qreg q off) := by
  unfold setGpr setQflag
  rw [rd_wb_ne _ _ _ _ _ (by simp [qreg_inj, h2]), rd_wr_ne _ _ _ _ (by simp [qreg_inj, h])]

theorem RunsOn.setGpr (h : RunsOn q s) (n : Nat) (v : Word) : RunsOn q (s.setGpr q n v) :=
  h.congr rfl (rd_setGpr_ne _ _ _ _ (by omega) (by decide))

end Sys2Proof.Machine.State
end

section
/-! PROOFS. Arithmetic and logic, conditions, a single step, HALT and illegal words (O20). -/
namespace Sys2Proof.Machine.State
variable {s u : State} {q : Nat}

/-! ### The arithmetic and logical instructions (R134) -/

/-- An instruction that puts `g` into G[A] and retires. -/
theorem setGpr_effect {c : Instr} {q : Fin 48} {op t w : Nat} {g : Nat → State → Word} {r : Word} {s : State}
    (hc : exec c s = run t (opcode q op fun w s => (s.setGpr q (iA w) (g w s)).retireNext q) s)
    (hx : Executes q op w (s.upTo t)) (hr : ∀ d, g w ((s.upTo t).begun q d) = r) :
    Yields c s fun u =>
      u.gpr q (iA w) = r ∧ u.rd (qreg q 0x064) = setBit (s.rd (qreg q 0x064)) 12 (decide (r = 0)) ∧
        Retires q (s.pcOf q + 1) [qreg q (0x100 + 4 * iA w), qreg q 0x064] [] s u := by
  obtain ⟨hexec, harmed, hstep, hspan, ⟨d, hfetch, hd⟩, hop, hcond⟩ := hx
  have ht : (s.upTo t).Takes q w d fun w => iOp w = op := ⟨hexec, harmed, hfetch, by simp [hop]⟩
  have hout : (d && outward w) = false := by cases d <;> simp_all
  have hrun : RunsOn q (((s.upTo t).begun q d).setGpr q (iA w) r) :=
    (RunsOn.begun ⟨hspan, hstep, runOf_of_canExec hexec⟩ d).setGpr _ _
  have hgpr : ((((s.upTo t).begun q d).setGpr q (iA w) r).retireNext q).gpr q (iA w) = r :=
    (rd_retireNext hrun (by omega)).trans (gpr_setGpr _ _ _ _)
  have hflags : ((((s.upTo t).begun q d).setGpr q (iA w) r).retireNext q).rd (qreg q 0x064) =
      setBit (s.rd (qreg q 0x064)) 12 (decide (r = 0)) := by
    rw [rd_retireNext hrun (by decide), flags_setGpr, rd_begun, rd_upTo]
  have hret : Retires q ((s.upTo t).pcOf q + 1) [qreg q (0x100 + 4 * iA w), qreg q 0x064] [] (s.upTo t)
      ((((s.upTo t).begun q d).setGpr q (iA w) r).retireNext q) := by
    refine retires_retireNext hrun ?_ (fun p _ => by rw [sq_setGpr, sq_begun]) ?_
    · exact only_setGpr ((begun_only _ _ _).mono (by simp) (by simp)) _ (by simp) (by simp)
    · rw [rd_setGpr_ne _ _ _ _ (by omega) (by decide), rd_begun]
  refine Yields.of_run hc ?_
  rw [opcode, instr_of_yes ht hcond hout, hr d]
  exact ⟨hgpr, hflags, retires_ran hret⟩

theorem aluDoes_of_exec {c : Nat → Fin 48 → Instr} {op : Nat} {f : Word → Word → Word}
    (hc : ∀ t (q : Fin 48) s, exec (c t q) s = run t (opcode q op (aluOp q f)) s) : AluDoes c op f := by
  intro t q w r s z hz hx hr
  subst hz
  refine setGpr_effect (g := fun w s => f (s.gpr q (iA w)) (s.aluX q w)) (hc t q s) hx fun d => ?_
  simp only [hr, gpr, aluX, rd_begun]
  rfl

theorem fld_low5 (x : Word) : fld x 4 0 = x.toNat % 32 := by simp [fld, bits]

/-! ### Instructions that do not act, and undefined ones (R3, R135, R146) -/

/-- Every instruction that its opcode alone selects is `opcode` while the unit is idle: WAITP and LOG alone look at what is
under way. -/
theorem exec_opcodes {e : (Nat → Fin 48 → Instr) × Nat} (he : e ∈ opcodes) (t : Nat) (q : Fin 48) :
    ∃ f, ∀ s : State, (s.sq q).busy = .idle → exec (e.1 t q) s = run t (opcode q e.2 f) s := by
  have hwaitp : ∀ s : State, (s.sq q).busy = .idle →
      exec (.waitp t q) s = run t (opcode q 0x10 (waitpOp q)) s := fun s hb => by
    have h : State.waitp q (s.upTo t) = opcode q 0x10 (waitpOp q) (s.upTo t) := by
      unfold State.waitp; rw [sq_upTo, hb]
    exact congrArg (fun u => Host.Outcome.next ((s.upTo t).settle u)) h
  have hlog : ∀ s : State, (s.sq q).busy = .idle →
      exec (.log t q) s = run t (opcode q 0x2D (logOp q)) s := fun s hb => by
    have h : State.logCmd q (s.upTo t) = opcode q 0x2D (logOp q) (s.upTo t) := by
      unfold State.logCmd; rw [sq_upTo, hb]
    exact congrArg (fun u => Host.Outcome.next ((s.upTo t).settle u)) h
  simp only [opcodes, List.mem_cons, List.not_mem_nil, or_false] at he
  rcases he with rfl | rfl | rfl | rfl | rfl | rfl | rfl | rfl | rfl | rfl | rfl | rfl | rfl | rfl | rfl | rfl | rfl |
    rfl | rfl | rfl | rfl | rfl | rfl | rfl | rfl | rfl | rfl | rfl | rfl | rfl
  any_goals exact ⟨_, fun _ _ => rfl⟩
  · exact ⟨_, hwaitp⟩
  · exact ⟨_, hlog⟩

section
variable {e : (Nat → Fin 48 → Instr) × Nat} {t w : Nat} {q : Fin 48} {d : Bool} {s : State}

theorem opcode_effect_of_no (he : e ∈ opcodes) (ht : (s.upTo t).Takes q w d fun w => iOp w = e.2)
    (hrun : RunsOn q (s.upTo t)) (hc : (s.upTo t).condition q (iCond w) = .no) :
    Yields (e.1 t q) s fun u => Retires q (s.pcOf q + 1) [] [] s u := by
  obtain ⟨f, hf⟩ := exec_opcodes he t q
  refine Yields.of_run (hf s (busy_of_canExec ht.1)) ?_
  rw [opcode, instr_of_no ht hc]
  exact retires_ran (retires_retireNext (hrun.begun d) ((begun_only _ _ _).mono (by simp) (by simp))
    (fun p _ => sq_begun _ _ _ _) (rd_begun _ _ _ _))

theorem opcode_effect_of_wait (he : e ∈ opcodes) (ht : (s.upTo t).Takes q w d fun w => iOp w = e.2)
    (hc : (s.upTo t).condition q (iCond w) = .wait) : Yields (e.1 t q) s fun u => Only [] [] s u := by
  obtain ⟨f, hf⟩ := exec_opcodes he t q
  refine Yields.of_run (hf s (busy_of_canExec ht.1)) ?_
  rw [opcode, instr_of_wait ht hc]
  exact Only.refl.ran

end

/-- The registers that an undefined instruction may change: those of a load. -/
abbrev confinedRegs (q w : Nat) : List Nat :=
  if iOp w = 0x20 then [qreg q (0x100 + 4 * iA w), qreg q 0x064] else []

theorem retires_confined {w : Nat} {d : Bool} (h : RunsOn q s) :
    Retires q (s.pcOf q + 1) (confinedRegs q w) [] s (confined q w (s.begun q d)) := by
  have hb : Only (confinedRegs q w) [.seqs, .xips, .free] s (s.begun q d) := (begun_only s q d).mono (by simp) (by simp)
  unfold confined
  by_cases hl : iOp w = 0x20
  · rw [if_pos hl]
    refine retires_retireNext ((h.begun d).setGpr _ _).drew ?_ (fun p _ => ?_) ?_
    · exact (only_setGpr hb _ (by simp [confinedRegs, hl]) (by simp [confinedRegs, hl])).drew (by simp)
    · rw [sq_drew, sq_setGpr, sq_begun]
    · rw [rd_drew, rd_setGpr_ne _ _ _ _ (by omega) (by decide), rd_begun]
  · rw [if_neg hl]
    exact retires_retireNext (h.begun d) hb (fun p _ => sq_begun _ _ _ _) (rd_begun _ _ _ _)

theorem opcode_effect_of_undefined {e : (Nat → Fin 48 → Instr) × Nat} {t w : Nat} {q : Fin 48} {s : State}
    (he : e ∈ opcodes) (ht : (s.upTo t).Takes q w true fun w => iOp w = e.2) (hrun : RunsOn q (s.upTo t))
    (hc : (s.upTo t).condition q (iCond w) = .yes) (ho : outward w = true) :
    Yields (e.1 t q) s fun u => Retires q (s.pcOf q + 1) (confinedRegs q w) [] s u := by
  obtain ⟨f, hf⟩ := exec_opcodes he t q
  refine Yields.of_run (hf s (busy_of_canExec ht.1)) ?_
  rw [opcode, instr_of_undefined ht hc (by simpa using ho)]
  exact retires_ran (retires_confined hrun)

/-! ### STEP, HALT and faults (R136, R163) -/

section
variable {t w : Nat} {q : Fin 48} {d : Bool} {s : State}

/-- A STEP halts its sequencer as the instruction retires, with CAUSE STEP. -/
theorem stopped_retire_step {s : State} {q next : Nat} (hf : (s.sq q).spanFault = false) (hs : (s.sq q).step = true)
    (h : s.inSelftest (pSeq q) = false) :
    ∃ w, Stopped q 0 (haltStat 3 w) (s.retired q next) (s.retire q next) := by
  have hz := stopped_haltAt 3 (inSelftest_retired (q := q) (next := next) h)
  refine ⟨(s.retired q next).rd (qreg q 0x05C), ?_⟩
  rw [retire_step hf hs]
  split
  · exact hz.stopIssue
  · exact hz

theorem nop_effect_of_step (ht : (s.upTo t).Takes q w d fun w => iOp w = 0x01) (hs : (s.sq q).step = true)
    (hf : (s.sq q).spanFault = false) (hc : (s.upTo t).condition q (iCond w) = .yes) :
    Yields (.nop t q) s fun u =>
      u.pcOf q = (s.pcOf q + 1) % 2 ^ 20 ∧ u.runOf q = 4 ∧ u.rf (qreg q 0x05C) 11 8 = 3 ∧ (u.sq q).step = false ∧
        u.rb (reg (pSeq q) oEvent) 0 = true := by
  have hop : iOp w = 0x01 := by simpa using ht.2.2.2
  have hout : (d && outward w) = false := by simp [outward, hop]
  have hpc : ((s.upTo t).begun q d).pcOf q = s.pcOf q := congrArg (fld · 19 0) (rd_begun _ _ _ _)
  obtain ⟨v, hv⟩ := stopped_retire_step (s := (s.upTo t).begun q d) (next := s.pcOf q + 1) (by rwa [sq_begun])
    (by rwa [sq_begun]) (inSelftest_begun _ _ _ (inSelftest_of_canExec ht.1))
  refine Yields.of_run (f := opcode q 0x01 fun _ s => s.retireNext q) rfl ?_
  rw [opcode, instr_of_yes ht hc hout, retireNext, hpc]
  obtain ⟨hrun, hcause⟩ := hv.halted (by decide)
  exact ⟨hv.pc.trans (pcOf_retired _ _ _), hrun, hcause, hv.step, hv.event⟩

theorem illegal_effect_of_word (hx : (s.upTo t).canExec q = true) (ha : (s.sq q).armed = none)
    (hf : (s.upTo t).fetch q = .word w d)
    (hbad : opKnown (iOp w) = false ∨ (s.upTo t).condition q (iCond w) = .bad ∨
      iOp w = 0x29 ∧ bits w 1 0 = 3 ∧ (s.upTo t).condition q (iCond w) = .yes) :
    Yields (.illegal t q) s fun u =>
      u.pcOf q = s.pcOf q ∧ u.runOf q = 5 ∧ u.rf (qreg q 0x05C) 15 12 = 1 ∧ (u.sq q).busy = .idle ∧
        u.rb (reg (pSeq q) oEvent) 1 = true := by
  have hw : illegal q (s.upTo t) = ((s.upTo t).begun q d).faultAt q 1 := by
    have hg := goSync_of_not_armed (s := s.upTo t) ha
    unfold illegal
    simp only [hg, hx, hf]
    rcases hbad with h | h | ⟨h1, h2, h3⟩
    · simp [h, begun]
    · simp [h, begun]
    · simp [h1, h2, h3, begun]
  refine Yields.of_run (f := illegal q) rfl ?_
  rw [hw]
  have hz := stopped_faultAt 1 (inSelftest_begun (s.upTo t) q d (inSelftest_of_canExec hx))
  obtain ⟨hrun, hcode⟩ := hz.faulted (by decide)
  exact ⟨hz.pc.trans (congrArg (fld · 19 0) (rd_begun _ _ _ _)), hrun, hcode, hz.idle, hz.event⟩

/-- A fetch that faults stops the sequencer with FETCH, whatever it raises on the bank's page. -/
theorem stopped_fetchFault {s : State} {q : Nat} (h : s.inSelftest (pSeq q) = false) :
    ∃ w, Stopped q 1 (faultStat 4 w) s (s.fetchFault q) := by
  have hne : pSeq q ≠ pRecord (s.xipBank q) := by
    have := bits_lt (s.qcfg q).toNat 14 12
    unfold pSeq pRecord xipBank fld
    omega
  have hpc (c : Bool) : (s.raiseIf c (pRecord (s.xipBank q)) 2).pcOf q = s.pcOf q :=
    congrArg (fld · 19 0) (rd_raiseIf_ne _ _ _ _ _ (by
      rw [qreg, ne_eq, reg_eq_page (by decide) (by decide)]; exact fun e => hne e.1))
  have hz (c : Bool) := stopped_faultAt (s := s.raiseIf c (pRecord (s.xipBank q)) 2) (q := q) 4 (by simpa using h)
  exact ⟨_, (hz _).pc.trans (hpc _), (hz _).stat, (hz _).event, (hz _).idle, (hz _).step⟩

theorem illegal_effect_of_fault (hx : (s.upTo t).canExec q = true) (ha : (s.sq q).armed = none)
    (hf : (s.upTo t).fetch q = .fault) :
    Yields (.illegal t q) s fun u =>
      u.pcOf q = s.pcOf q ∧ u.runOf q = 5 ∧ u.rf (qreg q 0x05C) 15 12 = 4 ∧ u.rb (reg (pSeq q) oEvent) 1 = true := by
  have hw : illegal q (s.upTo t) = (s.upTo t).fetchFault q := by
    have hg := goSync_of_not_armed (s := s.upTo t) ha
    simp [illegal, hg, hx, hf]
  obtain ⟨v, hz⟩ := stopped_fetchFault (inSelftest_of_canExec hx)
  obtain ⟨hrun, hcode⟩ := hz.faulted (by decide)
  refine Yields.of_run (f := illegal q) rfl ?_
  rw [hw]
  exact ⟨hz.pc, hrun, hcode, hz.event⟩

theorem halt_effect (hx : Executes q 0x00 w (s.upTo t)) :
    Yields (.halt t q) s fun u =>
      u.rd (qreg q 0x06C) = word (bits w 15 0) ∧ (u.sq q).busy = .halt ∧ u.pcOf q = s.pcOf q ∧
        (∀ p, p ≠ q.val → u.sq p = s.sq p) ∧ Only [qreg q 0x06C] [.seqs, .xips, .free] s u := by
  obtain ⟨hexec, harmed, -, -, ⟨d, hfetch, hd⟩, hop, hcond⟩ := hx
  have ht : (s.upTo t).Takes q w d fun w => iOp w = 0x00 := ⟨hexec, harmed, hfetch, by simp [hop]⟩
  have hout : (d && outward w) = false := by cases d <;> simp_all
  refine Yields.of_run (f := opcode q 0x00 (haltOp q)) rfl ?_
  rw [opcode, instr_of_yes ht hcond hout, haltOp]
  refine ⟨?_, by simp, ?_, fun p hp => by simp [hp], ?_⟩
  · simp
  · unfold pcOf rf
    rw [rd_settle, rd_setSq, rd_wr_ne _ _ _ _ (by simp [qreg_inj]), rd_begun, rd_upTo]
  · exact ((((begun_only _ _ _).mono (by simp) (by simp)).wr (by simp)).setSq (by simp)).ran

theorem haltRetire_effect (hb : (s.sq q).busy = .halt) (hfifo : (s.sq q).fifo = []) (hf : (s.sq q).spanFault = false)
    (hself : s.inSelftest (pSeq q) = false) :
    Yields (.haltRetire t q) s fun u =>
      u.pcOf q = (s.pcOf q + 1) % 2 ^ 20 ∧ u.runOf q = 4 ∧ u.rf (qreg q 0x05C) 11 8 = 1 ∧ (u.sq q).busy = .idle ∧
        (u.sq q).issuing = false ∧ u.rb (reg (pSeq q) oEvent) 0 = true := by
  obtain ⟨x, hx⟩ : ∃ x, (s.upTo t).haltRetire q =
      ((((s.upTo t).setSq q x).setPc q ((s.pcOf q + 1) % 2 ^ 20)).haltAt q 1).stopIssue q := by
    refine ⟨{ s.sq q with retired := s.pcOf q, retiredAt := some (s.upTo t).now }, ?_⟩
    unfold haltRetire
    dsimp only
    rw [if_neg (by simp [hb, hfifo]), if_neg (by simp [hf])]
    rfl
  have hz := (stopped_haltAt (s := ((s.upTo t).setSq q x).setPc q ((s.pcOf q + 1) % 2 ^ 20)) (q := q) 1
    (by simpa [setPc, qreg] using hself)).stopIssue
  obtain ⟨hrun, hcause⟩ := hz.halted (by decide)
  have hpc := hz.pc.trans ((pcOf_setPc _ _ _).trans (Nat.mod_mod _ _))
  rw [← hx] at hz hrun hcause hpc
  refine Yields.of_run (f := (·.haltRetire q)) rfl ⟨hpc, hrun, hcause, hz.idle, ?_, hz.event⟩
  rw [sq_settle, hx, sq_stopIssue]

end

/-- Settles O20: what an instruction does once its word is taken, by the answer of its condition, and how a sequencer
stops. -/
theorem sequencerComputation : Obligations.SequencerComputation := by
  refine ⟨?_, aluDoes_of_exec fun _ _ _ => rfl, aluDoes_of_exec fun _ _ _ => rfl, aluDoes_of_exec fun _ _ _ => rfl,
    aluDoes_of_exec fun _ _ _ => rfl, aluDoes_of_exec fun _ _ _ => rfl, aluDoes_of_exec fun _ _ _ => ?_,
    aluDoes_of_exec fun _ _ _ => ?_, ?_, ?_, ?_, ?_, ?_, ?_, ?_, ?_⟩
  · rintro t q w s _ rfl hx
    exact setGpr_effect (g := fun w _ => word (bits w 31 0)) rfl hx fun _ => rfl
  · simp only [← fld_low5]; rfl
  · simp only [← fld_low5]; rfl
  · rintro e he t q w d s _ rfl hx ha hs hf hw hop hc
    exact opcode_effect_of_no he ⟨hx, ha, hw, by simpa using hop⟩ ⟨hf, hs, runOf_of_canExec hx⟩ hc
  · rintro e he t q w d s _ rfl hx ha hw hop hc
    exact opcode_effect_of_wait he ⟨hx, ha, hw, by simpa using hop⟩ hc
  · rintro t q w s _ rfl hx ha hs hf hw e he ho hop hc
    exact opcode_effect_of_undefined he ⟨hx, ha, hw, by simpa using hop⟩ ⟨hf, hs, runOf_of_canExec hx⟩ hc ho
  · rintro t q w d s _ rfl hx ha hs hf hw hop hc
    exact nop_effect_of_step ⟨hx, ha, hw, by simpa using hop⟩ hs hf hc
  · rintro t q w d s _ rfl hx ha hw hbad
    exact illegal_effect_of_word hx ha hw hbad
  · rintro t q s _ rfl hx ha hw
    exact illegal_effect_of_fault hx ha hw
  · rintro t q w s _ rfl hx
    exact halt_effect hx
  · intro t q s hb hfifo hf hself
    exact haltRetire_effect hb hfifo hf hself

end Sys2Proof.Machine.State
end
